-- ==== Sys2Proof/Word.lean ====
section
/-! DEFINITION. The plainest numbers of the model: the 32-bit register word, the byte, and small
exact-arithmetic helpers that every other file uses. -/

namespace Sys2Proof

/-- One BAR0 register word (R392). -/
abbrev Word := BitVec 32

/-- One byte of region memory or of a record. -/
abbrev Byte := BitVec 8

/-- `⌈a / b⌉` in exact integer arithmetic. -/
def ceilDiv (a b : Nat) : Nat := (a + b - 1) / b

/-- `a / b` rounded to the nearest integer, halves up (R48). -/
def roundDiv (a b : Nat) : Nat := (2 * a + b) / (2 * b)

/-- The smallest multiple of `m` that is at least `a`. -/
def roundUpTo (a m : Nat) : Nat := ceilDiv a m * m

/-- The bits `lo .. lo + width - 1` of a number. -/
def bitsOf (v lo width : Nat) : Nat := v / 2 ^ lo % 2 ^ width

/-- Bit `i` of a number. -/
def bitOf (v i : Nat) : Bool := v / 2 ^ i % 2 == 1

/-- A number with bit `i` set to `b`. -/
def setBit (v i : Nat) (b : Bool) : Nat :=
  if bitOf v i then (if b then v else v - 2 ^ i) else (if b then v + 2 ^ i else v)

/-- A two's-complement reading of the low `w` bits. -/
def signed (w v : Nat) : Int :=
  let u := v % 2 ^ w
  if 2 * u < 2 ^ w then (u : Int) else (u : Int) - (2 ^ w : Nat)

/-- The two's-complement encoding of an integer in `w` bits. -/
def unsignedOf (w : Nat) (v : Int) : Nat := (v % ((2 ^ w : Nat) : Int)).toNat

/-- `v` held within `lo .. hi`. -/
def clampInt (lo hi v : Int) : Int := max lo (min hi v)

/-- `⌊a / b⌋` for integers with a positive divisor (an arithmetic shift when `b` is a power of two). -/
def floorDiv (a : Int) (b : Nat) : Int := a / (b : Int)

/-- A truth value as a register bit. -/
def b2n (b : Bool) : Nat := if b then 1 else 0

end Sys2Proof
end

