-- ==== Sys2Proof/Syntax.lean ====
section
/-! DEFINITION. The commands of the block: one constructor of `Instr` per row of spec/opcode_table.json,
with the operands the row's rule gives it (an address, a value, what a pin or a stream showed). Conventions:
`w` is the owner ID of a writer (R398), `r` a region, `c` a channel, `rd` a rendition index, `i` an island,
`g` a global lane or port number, `page` the BAR0 address of a page, `t` the TB time in ns at which a
happening falls. -/

namespace Sys2Proof

/-- The straps one island samples (R5, R429, R341). -/
structure Straps where
  modeSel : Nat
  bootSel : Nat
  boardId : Nat
  deriving DecidableEq, Repr

/-- What an island finds when it verifies an image set (R432): the signature checks, the digests, and the
security version of each class 0 to 2. -/
structure ImageSet where
  vendorSigOk : Bool
  custSigOk : Bool
  digestOk : Bool
  svn0 : Nat
  svn1 : Nat
  svn2 : Nat
  deriving DecidableEq, Repr

/-- The two heartbeat paths of R28. -/
inductive Path where
  | awn
  | stolon
  deriving DecidableEq, Repr

/-- A source timecode: hours, minutes, seconds, frames (R152). -/
structure Timecode where
  hh : Nat
  mm : Nat
  ss : Nat
  ff : Nat
  deriving DecidableEq, Repr

/-- The samples of a picture: luma, Cb and Cr, each as rows from the top, the samples of a row from the left. -/
structure Planes where
  y : List (List Nat)
  cb : List (List Nat)
  cr : List (List Nat)
  deriving DecidableEq, Repr

/-- A source frame as CAPTURE sees it (R85, R87, R88, R91): the instant of its active start in units of 2^-16 ns, whether its rate
and format are the channel's, what each link carries as ancillary data (its timecode, and its caption triplets as 24-bit
numbers), the RTP timestamp (0 for SDI), the links that are aligned with one another by bit, and its active samples, of which
those of a lost link hold anything. `stby` tells that it arrives at the standby of a protected channel (R274). -/
structure SrcFrame where
  stby : Bool
  start : Nat
  formatOk : Bool
  anc : List (Option Timecode × List Nat)
  rtpTs : Nat
  aligned : Nat
  pic : Planes
  deriving DecidableEq, Repr

/-- The header fields by which a packet of an ST 2110-20 stream is told (R86): destination address, UDP destination port, RTP payload
type. -/
structure StreamHdr where
  group : Nat
  udp : Nat
  pt : Nat
  deriving DecidableEq, Repr

/-- A packet of an ST 2110-20 stream (R84, R86): its RTP sequence number and the header fields by which it is told. -/
structure StreamPkt where
  seq : Nat
  hdr : StreamHdr
  deriving DecidableEq, Repr

/-- A received source packet at a policer (R260, R261): the port it came on, its header fields and its bytes. -/
structure RxPkt where
  port : Nat
  hdr : StreamHdr
  bytes : Nat
  deriving DecidableEq, Repr

/-- What a rail's monitor shows (R463): the number of the rail of R462, 0 to 7 VDD_CORE_n, then the others in the table's order, and the
voltage at its balls in mV. -/
structure RailMv where
  rail : Nat
  mv : Nat
  deriving DecidableEq, Repr

/-- A change of a block's sideband (R295): whether it masks, and the cycle on which it does. -/
structure SideEdge where
  masked : Bool
  cyc : Nat
  deriving DecidableEq, Repr

/-- Who accesses memory: the requester of R288, and for a decode engine the buffer descriptor that the access goes through (R204). -/
structure MemReq where
  q : Nat
  desc : Nat
  deriving DecidableEq, Repr

/-- What a write carries: its bytes, and the symbol errors found in the codewords that it reads first (R306). -/
structure MemData where
  bytes : List Byte
  errs : List Nat
  deriving DecidableEq, Repr

/-- A PTP domain and the identity of a message's sender (R376). -/
structure PtpFrom where
  dom : Nat
  src : Nat
  deriving DecidableEq, Repr

/-- The header of a PTP message: where it comes from, and its sequence number (R378). -/
structure PtpHdr where
  sender : PtpFrom
  seq : Nat
  deriving DecidableEq, Repr

/-- A register word and the owner ID of the writer (R398). -/
structure WordBy where
  w : Nat
  v : Nat
  deriving DecidableEq, Repr

/-- The coding tools that the tables of R120 to R122 name and that a CTU's coding uses or not, and rate-distortion-optimised
quantisation (R71, R123). -/
inductive Tool where
  | ternarySplit | multiRefLine | crossCompModel | mmvd | amvr | affine | sbTmvp | gpm | ciip | bcw | smvd | mts | lfnst | sbt
  | jointChroma | depQuant | alf | ccAlf | lmcs | sao | asymPartition | signHiding | transform8 | spatialDirect | rdoq
  /-- Never emitted in VVC. -/
  | matrixIntra | intraSubPartition | intraBlockCopy | palette | blockDpcm | dmvr | bdof | prof | refResampling | act
  /-- Never emitted in any of the three, or in HEVC. -/
  | weightedPred | longTermRef | transformSkip | scalingList | pcm | transquantBypass | crossCompPred | implicitRdpcm
  | explicitRdpcm | extPrecision | chromaQpOfsList | dependentSlice
  /-- Never emitted in AVC. -/
  | cavlc | mbaff | temporalDirect | lossless | fmo | aso | redundantPic
  deriving DecidableEq, Repr

/-- Where a prediction takes its vector from, in quarter samples (R71, R145): the pre-analysis hint alone, a merge
candidate, or the motion search, for which `costs` gives what a position costs and `merges` the merge candidates. -/
inductive MvFrom where
  | hint
  | merge (mv : Int × Int)
  | search (costs : List ((Int × Int) × Nat)) (merges : List (Int × Int))
  deriving DecidableEq, Repr

/-- A prediction from one reference picture: list (0 or 1), index in the list, and where the vector comes from. -/
structure PredRef where
  list : Nat
  idx : Nat
  mv : MvFrom
  deriving DecidableEq, Repr

/-- A prediction block: its place in the CTU and its size in luma samples, its intra mode where it is intra, and otherwise its
predictions. -/
structure PredBlk where
  x : Nat
  y : Nat
  w : Nat
  h : Nat
  intra : Option Nat
  preds : List PredRef
  deriving DecidableEq, Repr

/-- A coding of a CTU that the engine can choose (R123, R180): the depth of its partition, of its multi-type splits and of its
transform trees, the side of its smallest CU, the place of its intra candidates in their list, its rate-distortion cost, its exact
bits, the luma SSE, the tools it uses and its prediction blocks. -/
structure Coding where
  depth : Nat
  mttDepth : Nat
  tuDepth : Nat
  cuMin : Nat
  rank : Nat
  cost : Nat
  bits : Nat
  sse : Nat
  tools : List Tool
  blocks : List PredBlk
  deriving DecidableEq, Repr

/-- A CTU (R123, R145, R180): the cycles it takes and those of one search position, the partition depth and the use of the 8 × 8 transform
that the pre-analysis suggests, the codings that can be chosen in the order in which the engine tries them, and the bits, the SSE and,
in a P or B picture, the vector of its minimal coding. -/
structure CtuIn where
  cycles : Nat
  posCycles : Nat
  est : Nat
  pre8 : Bool
  cands : List Coding
  minBits : Nat
  minSse : Nat
  minMv : Int × Int
  deriving DecidableEq, Repr

/-- Sizes in bytes, without start codes, of the NAL units of a tick slice whose syntax the spec leaves to the standards (R126, R151, R489):
the parameter sets, the VVC picture header, the ALF and the LMCS adaptation parameter set, and the SEI messages buffering period,
picture timing, recovery point, time code and DU information. -/
structure NvIn where
  vps : Nat
  sps : Nat
  pps : Nat
  ph : Nat
  alf : Nat
  lmcs : Nat
  bp : Nat
  pt : Nat
  rp : Nat
  tc : Nat
  dui : Nat
  deriving DecidableEq, Repr

/-- What a picture's adaptive loop filters need (R125): whether a new ALF adaptation parameter set is written, whether an LMCS one is, and
the identifiers of the ALF sets the picture refers to. -/
structure ApsIn where
  newAlf : Bool
  newLmcs : Bool
  refs : List Nat
  deriving DecidableEq, Repr

/-- What the coder gives with a slice's grant: the sizes of its NAL units and what its adaptive loop filters need. -/
structure UnitIn where
  nv : NvIn
  aps : ApsIn
  deriving DecidableEq, Repr

/-- What a row's completion reports (R176, R183): the bits of the row end, and, if the row completes the tick slice, the cost in bits of
the header of each of its slice NAL units. -/
structure ReconIn where
  endBits : Nat
  headers : List Nat
  deriving DecidableEq, Repr

/-- The picture kinds that R119, R131 to R136, R201 and R209 to R213 tell apart. -/
inductive PicKind where
  | idr | cra | gdr | radl | rasl | trail
  deriving DecidableEq, Repr

/-- A 16 × 16 block that the decoder has decoded (R210): its number in raster order, and per list its vector in sixteenths of a luma
sample with the POC of the picture it points to; neither in an intra block. -/
structure DecBlk where
  num : Nat
  l0 : Option ((Int × Int) × Int)
  l1 : Option ((Int × Int) × Int)
  deriving DecidableEq, Repr

/-- What a sequence parameter set says of its pictures (R113, R194, R195, R198, R200, R207, R208): codec and chroma as FEED_CTRL gives them (3
monochrome), the profile as in R113 where it is one of them, the level in tenths, whether an extension of R195 is used, depth, coded size, the
samples cropped at the left, right, top and bottom, whether interlaced, the picture rate where signalled, the CTUs of a picture, the pictures that
the DPB may hold, and how many may wait for output. -/
structure SeqIn where
  codec : Nat
  profile : Option Nat
  level : Nat
  extended : Bool
  chroma : Nat
  depth : Nat
  width : Nat
  height : Nat
  crop : Nat × Nat × Nat × Nat
  interlaced : Bool
  rate : Option (Nat × Nat)
  ctus : Nat
  dpb : Nat
  reorder : Nat
  deriving DecidableEq, Repr

/-- A parameter set as the decoder reads it (R207, R209): kind (0 VPS, 1 SPS, 2 PPS, 3 APS), identifier, whether it parses and keeps the
profile and level it signals, the identifier of the set it refers to, what an SPS says, and the rest of its content as a number. -/
structure PsIn where
  kind : Nat
  id : Nat
  valid : Bool
  parent : Nat
  seq : Option SeqIn
  body : Nat
  deriving DecidableEq, Repr

/-- A slice as the decoder reads it (R207, R208, R210, R211, R213): the parameter set it names, its picture's POC and in AVC those of its
fields, picture kind, field (0 a frame, 1 top, 2 bottom), whether it opens a new picture (first_slice_segment_in_pic_flag, or AVC's detection of a first VCL NAL unit),
whether its header agrees with the picture's, its first CTU and how many it decodes, the syntax error at which it ends, the pictures in its
lists, those that its reference picture set or marking keeps, those that a frame_num gap leaves out, the POC at which a GDR picture
has recovered, whether the picture is output, and the blocks decoded with their samples in a picture of the coded size. -/
structure DecSlice where
  pps : Nat
  poc : Int
  fieldPocs : List Int
  kind : PicKind
  field : Nat
  opens : Bool
  headerOk : Bool
  first : Nat
  ctus : Nat
  err : Option Nat
  refs : List Int
  keep : List Int
  gaps : List Int
  recovery : Option Int
  output : Bool
  blocks : List DecBlk
  pic : Planes
  deriving DecidableEq, Repr

/-- What a NAL unit holds for the decoder (R195, R208, R209). -/
inductive DecBody where
  | params (p : PsIn)
  | slice (s : DecSlice)
  | picHeader
  | delimiter
  /-- A recovery point SEI message: the POC of its recovery point. -/
  | recovery (poc : Int)
  /-- Anything else of the base layer, read over. -/
  | other
  deriving DecidableEq, Repr

/-- A NAL unit of a decode job (R195, R203, R207): the bytes of the job's input up to the last that the parser reads for it, its layer, whether its
type is reserved or unspecified, whether its header is consistent, whether none of its fragments is missing, and what it holds. -/
structure DecNal where
  reach : Nat
  layer : Nat
  reserved : Bool
  headerOk : Bool
  whole : Bool
  body : DecBody
  deriving DecidableEq, Repr

/-- A decode engine and what its job has done (R202): the TB instant in ns, the engine cycles it has spent, and the NAL units it has read. -/
structure DecRun where
  de : Nat
  t : Nat
  cycles : Nat
  nals : List DecNal
  deriving DecidableEq, Repr

/-- The end of a decoded picture: the TB instant in ns, and the NAL units read. -/
structure PicRead where
  t : Nat
  nals : List DecNal
  deriving DecidableEq, Repr

/-- A transport-stream packet of a feed: PID, continuity counter, whether it is scrambled (R196). -/
structure TsIn where
  pid : Nat
  cc : Nat
  scrambled : Bool
  deriving DecidableEq, Repr

/-- How a feed packet carries its stream (R196): RTP with the codec's payload format, of which the first three forms are supported, or
transport-stream packets. -/
inductive Carriage where
  | single | aggregate | fragment
  | interleaved | donl | paci
  | ts (packets : List TsIn)
  deriving DecidableEq, Repr

/-- A packet of a compressed feed (R86, R196, R199): whether it reaches the standby region, path, header, RTP sequence number, carriage, bytes, the
number of the access unit it belongs to, and whether it is that unit's last. -/
structure FeedPkt where
  stby : Bool
  path : Nat
  hdr : StreamHdr
  rtpSeq : Nat
  carriage : Carriage
  bytes : Nat
  au : Nat
  last : Bool
  deriving DecidableEq, Repr

/-- What a core brings to the work it asks for: a job of COMPOSE or a scaler (R99 to R109) on samples given with it, or on the pictures of a channel frame. -/
inductive JobData where
  | none
  /-- Straight-alpha or premultiplied blend of one sample over the background (R100). -/
  | blend (premult : Bool) (f b a : Nat)
  /-- One 8-bit ARGB sample into 10-bit Y′CbCr by converter `conv` (1 BT.709, 2 BT.2020), premultiplied or not (R99). -/
  | argb (premult : Bool) (conv a r g b : Nat)
  /-- One 10-bit triple through colour-chain set `set`, to `bits`-bit codes (R102 to R104). -/
  | chain (set x0 x1 x2 bits : Nat)
  /-- One line of chroma resampled: 0 4:2:2 to 4:4:4, 1 back, 2 to 4:2:0 type 0, 3 to 4:2:0 type 2 (R107). -/
  | chroma (kind : Nat) (line : List Nat)
  /-- One line or column scaled to `nOut` samples (R108, R109). -/
  | scale (vertical : Bool) (nOut : Nat) (line : List Nat)
  /-- The composed picture of frame `k` of a channel; of field `fld` (0 top, 1 bottom) in a 1080i channel (R94, R99 to R101). -/
  | compose (c k fld : Nat)
  /-- The eight buffer descriptors that firmware loads for a decode job (R204): BASE and LIMIT. -/
  | decode (bufs : List (Nat × Nat))
  /-- The picture of a rendition made from the composed one (R94, R102, R107, R108). -/
  | rendition (c rd k fld : Nat)
  deriving DecidableEq, Repr

/-- How a task comes to the dispatcher. -/
inductive PostBy where
  /-- The staged descriptor of the RA_POST window (R240). -/
  | window
  /-- The sixteen words of a descriptor that a block posts (R220). -/
  | words (ws : List Nat)
  /-- A media task of the table of R237: class, channel, rendition, frame, tick slice and, of a CE task, coding row with the halo rows it
  waits for and the frames they belong to; AFFINITY, COST_US and CONTEXT are the firmware's. -/
  | media (cls c rd k j row : Nat) (halo : List (Nat × Nat)) (aff cost ctx : Nat)
  /-- The DE task of a feed's access unit (R193, R237). -/
  | feed (c au aff cost ctx : Nat)
  deriving DecidableEq, Repr

/-- A received Ethernet frame (R328). -/
structure EthFrame where
  bytes : Nat
  fcsOk : Bool
  pause : Bool
  deriving DecidableEq, Repr

/-- How a full training or a restore verification ends (R318). -/
inductive TrainOutcome where
  | pass
  | restored
  | marginal
  | noSetting
  | noResponse
  | configMismatch
  | notPopulated
  deriving DecidableEq, Repr

/-- The triggers of an incremental retraining (R319). -/
inductive RetrainCause where
  | temperature
  | ceRate
  | uncorrectable
  | drift
  deriving DecidableEq, Repr

/-- The frequency measurements of one REFSEL entry at the end of a window, in ppt (R354), and the largest magnitude of its phase error in
the 1 s window, in ps (R360). -/
structure RefMeas where
  entry : Nat
  y1 : Int
  y10 : Int
  y100 : Int
  phasePs : Nat
  deriving DecidableEq, Repr

/-- What an Announce message carries (R377): clockClass, clockAccuracy, priorities, variance, identity,
stepsRemoved, currentUtcOffset and its valid flag; and the domain and the identity of the port that sends it. -/
structure Announce where
  cls : Nat
  acc : Nat
  prio1 : Nat
  prio2 : Nat
  variance : Nat
  gmid : Nat
  steps : Nat
  utcOfs : Int
  utcValid : Bool
  dom : Nat
  src : Nat
  deriving DecidableEq, Repr

/-- The commands: every row of spec/opcode_table.json, in the table's order. Operands of one name mean one thing throughout:
`w` the owner ID of the writer (R398), `r` a region, `c` a channel, `rd` a rendition, `t` the TB instant in ns at which the
command acts, `page` the BAR0 byte address of a block page, `tag` the tag of a request, `gen` a generation, `g` a global lane
(region × 16 + lane), `p` a region's port or memory port, `f` a flow, `n` a group or an instance, `h` a host port (0 HOST_A,
1 HOST_B), `e` an entry, `v` a register word, `off` a byte offset, `i` an island. -/
inductive Instr where
  | por (straps : List Straps)
  | pinReset (straps : List Straps) (lowUs : Nat)
  | warmReset (w : Nat)
  | regionReset (w r : Nat)
  | regionUp (r t : Nat)
  | blockReset (w page : Nat)
  /-- `outNs` is how long the rail stays where it is. -/
  | railFault (rail : RailMv) (outNs : Nat) (straps : List Straps)
  /-- `tj` is the junction temperature in units of 0.25 °C, as RGN_TEMP.TJ holds it. -/
  | thermalTrip (r : Nat) (tj : Int)
  | thermalRelease (r belowMs t : Nat)
  | bootImageVerify (i source slot : Nat) (img : ImageSet)
  | election (t : Nat)
  | awnHeartbeatSend (i t : Nat)
  /-- `ringPs` is the delay of the ring in each Awn direction, in ps, as the receiver measures it (R374). -/
  | awnHeartbeatRx (obs src : Nat) (path : Path) (ringPs : Nat × Nat) (t : Nat)
  | reachTimeout (obs src : Nat) (path : Path) (t : Nat)
  | holderLost (fatal : Bool) (t : Nat)
  | awnSegment (a b : Nat)
  | stolonDown (link : Nat)
  | stolonUp (link : Nat)
  | frameTick (c t : Nat)
  | sliceTick (c t : Nat)
  | rachisTick (r t : Nat)
  | sourceFrame (c : Nat) (f : SrcFrame)
  | inputCaptured (c rd j : Nat)
  | analysed (c rd j : Nat) (hints : List (Nat × Int × Int))
  | st2110Packet (c path : Nat) (x : StreamPkt)
  | admCreate (w tag c gen : Nat)
  | admModify (w tag c gen : Nat)
  | admStop (w tag c gen : Nat)
  | admCheck (w tag c gen : Nat)
  | admResultPost (t : Nat) (nonVcl : List NvIn)
  | modifyApply (c t : Nat)
  | channelStart (c t : Nat)
  | chQuarantineEnd (c t : Nat)
  | cmpCommit (w c id t : Nat)
  | lyPost (w c l slot : Nat)
  | composeLutValidWrite (w r v : Nat)
  | roiCommit (w c id t : Nat)
  | statCtrlWrite (w c rd v : Nat)
  /-- `k` is the picture whose record is written. -/
  | statRecordWrite (c rd k t : Nat)
  | budgetGranted (c rd j t : Nat) (z : UnitIn)
  | rowBudgetExpiry (r ce : Nat)
  | ctuCode (r ce : Nat) (x : CtuIn)
  | rowRecon (r ce : Nat) (x : ReconIn)
  | haloArrived (r c rd row lines : Nat)
  | cycleBudget (r : Nat) (x : DecRun)
  | wdExpiry (r : Nat) (x : DecRun)
  | decodePictureEnd (r slot : Nat) (x : PicRead)
  | feedPacket (c : Nat) (p : FeedPkt) (t : Nat)
  | feedDelayExpiry (c t : Nat)
  | confRowCompare (r slot row : Nat) (enc dec : List Nat)
  | raPost (r w : Nat) (by_ : PostBy)
  | raPostFixed (r w idx : Nat)
  | stalledPostAccept (r t : Nat)
  | raTokenSend (r w : Nat)
  | tokenArrive (r tok deadline : Nat)
  | tokenHoldExpiry (r idx t : Nat)
  | delayListJoin (r list : Nat)
  | getWork (r cls inst t : Nat) (job : JobData)
  | getWorkTimeout (r inst t : Nat)
  | doneOk (r idx gen : Nat)
  | doneFailed (r idx gen : Nat)
  | doneRepost (r idx gen : Nat)
  | doneYield (r idx gen : Nat)
  | taskQuarantineEnd (r idx t : Nat)
  | raModeNormal (r : Nat)
  | raModeTest (r : Nat)
  | raModeRecovery (r : Nat)
  | raReqTest (w r : Nat)
  | flCreate (w r f gen : Nat)
  | flModify (w r f gen : Nat)
  | flDelete (w r f gen : Nat)
  | flowQuarantineEnd (r f t : Nat)
  | commitImmediate (w page chan id : Nat)
  | commitFrame (w page chan id : Nat)
  | commitSlice (w page chan id : Nat)
  | commitWrap (w page chan id : Nat)
  | commitTb (w page chan id : Nat)
  | commitTbApply (page t : Nat)
  | pacerWrap (r p t : Nat)
  | stolonWrap (r p t : Nat)
  | packetDepart (r f t : Nat)
  | portIdle (r p t : Nat)
  | egressLateDiscard (r f t : Nat)
  | obsSample (r t : Nat)
  | obsConfigWrite (w r off v : Nat)
  | policePacket (r e : Nat) (x : RxPkt) (bufPct : Nat)
  | policerRateWrite (w r e off v : Nat)
  | ethFrameRx (g : Nat) (fr : EthFrame)
  | arpRequest (g target : Nat)
  | neighborSolicitation (g target : Nat)
  | pgCfgWrite (w n v : Nat)
  | pgSwitch (w n slot : Nat)
  | pgHold (w n slot : Nat)
  | pgRelease (w n slot : Nat)
  | mirrorCommit (c rd seq : Nat) (poisoned : Bool)
  | unitArrived (r c rd row bytes : Nat)
  | fwBeatMiss (r t : Nat)
  | islandFatalReport (i t : Nat)
  | regionFailDeclare (n slot t : Nat)
  | egressKill (r : Nat)
  | witnessBeatLoss (r t : Nat)
  | takeover (n slot t : Nat)
  | returnReset (n slot t : Nat)
  | revertSchedule (n slot t : Nat)
  | revertHandover (n slot t : Nat)
  | revertComplete (n slot t : Nat)
  | culmRequest (r tgt q beats cyc : Nat)
  | culmGrant (r tgt cyc : Nat)
  | culmWindowStart (r tgt cyc : Nat)
  | culmRevoke (r tgt cyc : Nat)
  | sidebandMask (r blk : Nat) (x : SideEdge)
  | stolonCreditReturn (r p cls flits : Nat)
  | memRead (r : Nat) (q : MemReq) (addr len need : Nat) (errs : List Nat)
  | memWrite (r : Nat) (q : MemReq) (addr need : Nat) (data : MemData)
  | refreshDue (r p : Nat) (blocked : Bool)
  | refreshRepay (r p : Nat)
  | refreshRatePoll (r p mult : Nat) (hot : Bool)
  | scrubRead (r p stripe : Nat) (errs : List (Nat × Nat))
  | trainingComplete (r p : Nat) (o : TrainOutcome) (temp margin : Nat)
  | retrainTrigger (r p : Nat) (cause : RetrainCause) (t : Nat)
  | retrainStep (r p : Nat)
  | retrainEnd (r p : Nat) (pass : Bool) (temp margin t : Nat)
  | portRetrainAttempt (r p : Nat) (o : TrainOutcome) (temp margin t : Nat)
  | laneLos (g t : Nat)
  | laneLosClear (g t : Nat)
  | laneLol (g t : Nat) (ppm : Int)
  | laneLolClear (g t : Nat) (ppm : Int)
  | laneSyncGain (g rate frac pid t : Nat)
  | laneSyncLoss (g t : Nat)
  | pcsLinkFail (g t : Nat)
  | portUp (g t : Nat)
  | llWidthRx (dcode : Nat)
  | llWidthTimeout (sinceUs : Nat)
  | llWidthRestore (heldMs : Nat)
  | llXoff
  | llXon
  | llFrameRx (bytes : List Byte) (codeErr aborted : Bool)
  | llFrameSend (m : Nat) (ts : List (List Byte)) (t : Nat)
  | llFrameExpire (t : Nat)
  | llTrainComplete (groups : Nat)
  | adaptStore (r : Nat) (vals : List (Nat × Nat)) (t : Nat)
  | refEdge (i pin t : Nat) (phasePs : Int)
  | refLoss (e t : Nat)
  | esmcRx (e ssm : Nat) (enh : Option Nat) (t : Nat)
  | refWindowEnd (t : Nat) (meas : List RefMeas)
  | dcoFofsWrite (w v : Nat)
  | tbIncWrite (w r v : Nat)
  | tbSet (w r : Nat)
  | tbStep (w r : Nat)
  | tbAdjApply (t : Nat)
  | tbNowRead (w r : Nat)
  | multiwordRead (w addr : Nat)
  | ptpSyncRx (n raw origin : Nat) (h : PtpHdr) (corr : Int) (twoStep : Bool)
  | ptpFollowUpRx (n origin : Nat) (h : PtpHdr) (corr : Int)
  | ptpDelayReqRx (n raw seq : Nat) (x : PtpFrom)
  | ptpDelayRespRx (n t4 : Nat) (h : PtpHdr) (corr : Int)
  | ptpAnnounceRx (n : Nat) (a : Announce) (t : Nat)
  | announceReceiptTimeout (n t : Nat)
  | ptpSyncTx (n raw : Nat)
  | ptpAnnounceTx (n : Nat)
  | ptpDelayReqTx (n raw : Nat)
  | phaseCorrectionEnd (t : Nat)
  | servoModeWrite (w v : Nat)
  | lockAcquire (w page : Nat)
  | lockRelease (w page : Nat)
  | lockRecover (w page : Nat)
  | lockLeaseExpiry (page t : Nat)
  | evRawClear (page : Nat) (x : WordBy)
  | evInject (page : Nat) (x : WordBy)
  | evtArmWrite (h hi v : Nat)
  | evrConfigWrite (w h off v : Nat)
  | msixUnmask (h vec : Nat)
  | hostLinkDown (h : Nat)
  | hostLinkUp (h : Nat)
  | blockEnableWrite (w page v : Nat)
  | bar2AperWrite (h v : Nat)
  | bar2Access (h off len : Nat) (wdata : Option (List Byte)) (errs : List Nat)
  | registerWrite (w addr v : Nat)
  | spiWrite (header : Nat) (data : List Nat)
  | spiRead (header n : Nat)
  | cl4Start (n : Nat)
  | cl4Stop (n : Nat)
  | cl4Apply (n : Nat)
  | cl4SoftReset
  | asiPacketSend (r n t : Nat)
  | glAttest (w tag : Nat)
  | glChallenge (w tag : Nat)
  | glUnlock (w tag : Nat)
  | glSvnCommit (w tag : Nat)
  | glCustKey (w tag : Nat)
  | glPcieBoot (w tag : Nat) (img : ImageSet)
  | nvmStoreRequest (rec : Nat) (body : List Byte)
  | storeRecheck (t : Nat)
  | storeDone (t : Nat)
  | pfailAssert (t : Nat)
  | pfailDeassert (t : Nat)
  | holdupSample (raw t : Nat)
  /-- The sources that CAPTURE finds on lanes 0 to 3: the global lane, and the source as SRC_RATE.RATE + 16 × raster (0 1280 × 720,
  1 1920 × 1080, 2 3840 × 2160, 3 7680 × 4320) + 64 × interlaced + 128 × 4:4:4 + 256 × 12-bit. -/
  | standaloneStart (t : Nat) (sources : List (Nat × Nat))
  | logRead (w tag : Nat)
  | logFlush (w tag : Nat)
  | logEntryWait (t : Nat)
  | logSummary (r hour : Nat)
  | mpInjArm (w r p v : Nat)
  | rgnSramInjArm (w r v : Nat)
  | sramReadError (r sram word : Nat) (ue : Bool) (idx : Nat)
  | pwrActive (w r : Nat)
  | pwrIdle (w r : Nat)
  | pwrNap (w r : Nat)
  | pwrPark (w r : Nat)
  | powerTransitionDone (r t : Nat)
  | esmcTimeout (e t : Nat)
  | rowIdleTimer (r p bank clks : Nat)
  | writeQueueIssue (r p : Nat)
  | hostPortReset (h : Nat)
  | islandUe (i t : Nat)
  | pcrOnlyPacket (c rd t : Nat)
  deriving DecidableEq, Repr

end Sys2Proof
end

