-- ==== Sys2Proof/Config.lean ====
section
/-! DEFINITION. What the spec leaves open as a value: opaque constants with no body, so that nothing can be
proved of their values. -/

namespace Sys2Proof.Config

/-- The value the spec leaves open at the `n`-th use of the model's own counter `Dev.free`. -/
opaque freeNat : Nat → Nat

/-- SHAKE256 of a byte string, 512 bits (R432, R436): the spec names the function and gives no arithmetic. -/
opaque shake256 : List Nat → List Nat

/-- Ed448 signing (R436): the key's number and the message. -/
opaque ed448Sign : Nat → List Nat → List Nat

/-- Ed448 verification (R438): the key's number, the message and the signature. -/
opaque ed448Verify : Nat → List Nat → List Nat → Bool

/-- Word `i` of the device certificate GL_CERT (R435, R444: "per part"). -/
opaque deviceCert : Nat → Nat

/-- The fused hash of the vendor's image key, by byte (R432, R437): "fused", with no value given. -/
opaque vendorKeyHash : Nat → Nat

/-- The SHAKE256 digest of a running image (R437): boot number, image class, byte. The images are not part of the spec. -/
opaque imageDigest : Nat → Nat → Nat → Nat

/-- The clockIdentity of a PTP instance (R377), which nothing gives. -/
opaque clockIdentity : Nat → BitVec 64

/-- 2^(m / 6) for m from 1 to 5, in the fixed point in which the device sums R171's prediction, in units of 2^-24: the
spec gives neither the precision nor the rounding. -/
opaque sixthRoot : Nat → Nat

/-- The byte of a stored ARGB 8:8:8:8 pixel (modulo 4) that holds a component, 0 to 3 for R, G, B and A (R92): the spec gives no order. -/
opaque argbByte : Nat → Nat

/-- Component 0 to 3 (Y′, Cb, Cr, A) of a stored Y′CbCrA 4:4:4:4 10-bit pixel, from its 64 bits (R92): the spec gives no packing. -/
opaque ycbcraPart : Nat → Nat → Nat

/-- A 12-bit source sample as composition takes it, in 10 bits, and back (R99, R100: layers are blended at 10 bits). -/
opaque narrow12 : Nat → Nat
opaque widen12 : Nat → Nat

/-- A sample of a picture that passes through no colour chain at another bit depth (R102 gives the rounding of a chain's output
only): the two depths and the sample. -/
opaque redepth : Nat → Nat → Nat → Nat

/-- A filter coefficient of the scalers' built-in set (R108): vertical stage, input and output size, phase and tap. -/
opaque scaleTap : Bool → Nat → Nat → Nat → Nat → Int

/-- A luma sample of the previous source frame beyond its edges, as SATD_inter reads it (R111): frame, row and column. -/
opaque beyondEdge : Nat → Int → Int → Nat

/-- The picture order count of the `n`-th picture of a sequence in output order, for a codec (R134, R158, R271): the standards leave its
step to the encoder, and the spec gives none. -/
opaque pocAt : Nat → Nat → Int

/-- The places around the best vector that a round of the motion search tries (R145), in units of the search's precision in quarter
samples (4, 2 or 1): the spec names a diamond and gives no pattern. -/
opaque pattern : Nat → Nat → List (Int × Int)

/-- The CPB removal delay increment of the first decoding unit of access unit `n` (R138 gives that of every later one). -/
opaque firstDuDelay : Nat → Nat

/-- A chroma sample that concealment takes from between the samples listed, where the vector falls between two of them (R210). -/
opaque betweenChroma : List Nat → Nat

/-- The length that a vector component scales to where a neighbour's reference has the POC of the picture itself (R210): the component in
sixteenths and the distance of the concealment reference. -/
opaque scaledVector : Int → Int → Int

end Sys2Proof.Config
end

