-- ==== Sys2Proof/Machine/Store.lean ====
section
/-! DEFINITION. Sparse tables in one canonical form (keys strictly rising) and the register fields that are
kept in them. Every register field of BAR0 and of the CL-4 map is one `Row`; a store lists only the fields
whose value differs from the row's reset value. -/

namespace Sys2Proof.Machine

/-- A sparse table: pairs of key and value, keys strictly rising. -/
abbrev Tbl (α : Type) := List (Nat × α)

/-- The entry of key `k`. -/
def tget? {α : Type} : Tbl α → Nat → Option α
  | [], _ => none
  | (a, v) :: t, k => if a = k then some v else tget? t k

/-- The entry of key `k`, or `x` where none is listed. -/
def tget {α : Type} (t : Tbl α) (k : Nat) (x : α) : α := (tget? t k).getD x

/-- Lists `v` under key `k`, in order. -/
def tput {α : Type} : Tbl α → Nat → α → Tbl α
  | [], k, v => [(k, v)]
  | (a, x) :: t, k, v =>
    if k < a then (k, v) :: (a, x) :: t
    else if k = a then (k, v) :: t
    else (a, x) :: tput t k v

/-- Removes key `k`. -/
def tdel {α : Type} : Tbl α → Nat → Tbl α
  | [], _ => []
  | (a, x) :: t, k => if k = a then tdel t k else (a, x) :: tdel t k

/-- Changes the entry of key `k`, which starts at `x` where none is listed. -/
def tmod {α : Type} (t : Tbl α) (k : Nat) (x : α) (f : α → α) : Tbl α := tput t k (f (tget t k x))

/-- Changes every entry. -/
def tmap {α : Type} (f : Nat → α → α) (t : Tbl α) : Tbl α := t.map (fun p => (p.1, f p.1 p.2))

/-- Keeps the entries whose key and value meet `p`. -/
def tkeep {α : Type} (p : Nat → α → Bool) (t : Tbl α) : Tbl α := t.filter (fun e => p e.1 e.2)

/-- The canonical form: keys strictly rising. -/
def twf {α : Type} : Tbl α → Bool
  | [] => true
  | (a, _) :: t => t.all (fun e => a < e.1) && twf t

/-- Inserts `a` before the first element of a larger key. -/
def insertKey {α : Type} (key : α → Nat) (a : α) : List α → List α
  | [] => [a]
  | x :: l => if key a < key x then a :: x :: l else x :: insertKey key a l

/-- Sorts by key; equal keys keep their order. -/
def sortKey {α : Type} (key : α → Nat) (l : List α) : List α := l.foldl (fun acc a => insertKey key a acc) []

/-- The access types of R12. -/
inductive Acc where
  | rw | ro | w1c | w1s | wo | rws | rc
  deriving DecidableEq, Repr

/-- The setting classes of R455. -/
inductive Cls where
  | a | b | c | d | e | f | g | h | i | j | k | l
  deriving DecidableEq, Repr

/-- One row of a register table: the offset of the field's word within its page or window entry, the stride and
count of its copies, its lowest bit, its width, its access type, its reset value, its setting class, and its part
in a multi-word field of R392 (0 none, 1 the low word of a pair, 2 the high word, 3 one name over its copies). -/
structure Row where
  off : Nat
  stride : Nat
  count : Nat
  lo : Nat
  width : Nat
  acc : Acc
  reset : Nat
  cls : Cls
  multi : Nat
  deriving DecidableEq, Repr

/-- The key of copy `i` of a field under the base address `base`: word address times 32 plus the lowest bit. -/
def Row.key (row : Row) (base i : Nat) : Nat := (base + row.off + i * row.stride) * 32 + row.lo

/-- A field's value in a store: its reset value where the store lists none. -/
def stGet (st : Tbl Nat) (row : Row) (base i : Nat) : Nat := tget st (row.key base i) row.reset

/-- Sets a field: the value is cut to the field's width, and the reset value is not listed. -/
def stSet (st : Tbl Nat) (row : Row) (base i v : Nat) : Tbl Nat :=
  if v % 2 ^ row.width = row.reset then tdel st (row.key base i)
  else tput st (row.key base i) (v % 2 ^ row.width)

end Sys2Proof.Machine
end

