-- ==== Sys2Proof/Machine/Regs.lean ====
section
/-! DEFINITION. Every register field of the spec's register tables, one `Row` each, by table: written from the
tables of spec/ (each line names its rule). The offset is within the page, or within the entry of the window. -/

namespace Sys2Proof.Machine.Reg

def ELECT_HOLDER : Row := ⟨0x100, 0, 1, 0, 3, .ro, 0, .a, 0⟩ -- R35
def ELECT_SHADOW : Row := ⟨0x100, 0, 1, 4, 3, .ro, 1, .a, 0⟩ -- R35
def ELECT_SHADOW_VALID : Row := ⟨0x100, 0, 1, 7, 1, .ro, 1, .a, 0⟩ -- R35
def ELECT_HEALTHY : Row := ⟨0x100, 0, 1, 8, 8, .ro, 0xff, .a, 0⟩ -- R35
def ELECT_REACH_AWN : Row := ⟨0x100, 0, 1, 16, 8, .ro, 0xff, .a, 0⟩ -- R35
def ELECT_ELECT_COUNT : Row := ⟨0x100, 0, 1, 24, 8, .ro, 1, .a, 0⟩ -- R35
def ADM_CMD_OP : Row := ⟨0x140, 0, 1, 0, 4, .wo, 0, .h, 0⟩ -- R57
def ADM_CMD_TAG : Row := ⟨0x140, 0, 1, 8, 8, .wo, 0, .h, 0⟩ -- R57
def ADM_CMD_CHANNEL : Row := ⟨0x140, 0, 1, 16, 7, .wo, 0, .h, 0⟩ -- R57
def ADM_CMD_GEN : Row := ⟨0x140, 0, 1, 24, 8, .wo, 0, .h, 0⟩ -- R57
def ADM_PLACE_REGION_MASK : Row := ⟨0x144, 0, 1, 0, 8, .rw, 0xff, .h, 0⟩ -- R57
def ADM_PLACE_SPAN : Row := ⟨0x144, 0, 1, 8, 2, .rw, 0, .h, 0⟩ -- R57
def ADM_PLACE_PREEMPTIBLE : Row := ⟨0x144, 0, 1, 10, 1, .rw, 0, .h, 0⟩ -- R57
def ADM_PLACE_PROTECT : Row := ⟨0x144, 0, 1, 11, 1, .rw, 0, .h, 0⟩ -- R57
def ADM_PLACE_PRIO : Row := ⟨0x144, 0, 1, 12, 4, .rw, 8, .h, 0⟩ -- R57
def ADM_RESULT_TAG : Row := ⟨0x148, 0, 1, 0, 8, .ro, 0, .i, 0⟩ -- R57
def ADM_RESULT_REASON : Row := ⟨0x148, 0, 1, 8, 8, .ro, 0, .i, 0⟩ -- R57
def ADM_RESULT_PLACED : Row := ⟨0x148, 0, 1, 16, 8, .ro, 0, .i, 0⟩ -- R57
def ADM_RESULT_GEN : Row := ⟨0x148, 0, 1, 24, 8, .ro, 0, .i, 0⟩ -- R57
def ADM_DETAIL_REGION : Row := ⟨0x14c, 0, 1, 0, 3, .ro, 0, .i, 0⟩ -- R57
def ADM_DETAIL_RENDITION : Row := ⟨0x14c, 0, 1, 4, 3, .ro, 0, .i, 0⟩ -- R57
def ADM_DETAIL_RENDITION_VALID : Row := ⟨0x14c, 0, 1, 7, 1, .ro, 0, .i, 0⟩ -- R57
def ADM_DETAIL_SHORTFALL : Row := ⟨0x14c, 0, 1, 8, 24, .ro, 0, .i, 0⟩ -- R57
def ADM_STATUS_BUSY : Row := ⟨0x150, 0, 1, 0, 1, .ro, 0, .i, 0⟩ -- R57
def ADM_STATUS_DONE : Row := ⟨0x150, 0, 1, 1, 1, .w1c, 0, .h, 0⟩ -- R57
def ADM_STATUS_INTERNAL : Row := ⟨0x150, 0, 1, 2, 1, .ro, 0, .i, 0⟩ -- R57
def PG_CFG_MODE : Row := ⟨0x180, 0x10, 4, 0, 2, .rw, 0, .k, 0⟩ -- R264
def PG_CFG_ACT_A : Row := ⟨0x180, 0x10, 4, 4, 3, .rw, 0, .k, 0⟩ -- R264
def PG_CFG_ACT_B : Row := ⟨0x180, 0x10, 4, 8, 3, .rw, 0, .k, 0⟩ -- R264
def PG_CFG_STBY : Row := ⟨0x180, 0x10, 4, 12, 3, .rw, 0, .k, 0⟩ -- R264
def PG_CFG_HOLDOFF_S : Row := ⟨0x180, 0x10, 4, 16, 8, .rw, 0xa, .k, 0⟩ -- R264
def PG_STATUS_STATE_A : Row := ⟨0x184, 0x10, 4, 0, 4, .ro, 0, .i, 0⟩ -- R287
def PG_STATUS_STATE_B : Row := ⟨0x184, 0x10, 4, 4, 4, .ro, 0, .i, 0⟩ -- R287
def PG_STATUS_SERVER_A : Row := ⟨0x184, 0x10, 4, 8, 3, .ro, 0, .i, 0⟩ -- R287
def PG_STATUS_HOLD_A : Row := ⟨0x184, 0x10, 4, 11, 1, .ro, 0, .i, 0⟩ -- R287
def PG_STATUS_SERVER_B : Row := ⟨0x184, 0x10, 4, 12, 3, .ro, 0, .i, 0⟩ -- R287
def PG_STATUS_HOLD_B : Row := ⟨0x184, 0x10, 4, 15, 1, .ro, 0, .i, 0⟩ -- R287
def PG_STATUS_RESULT : Row := ⟨0x184, 0x10, 4, 16, 8, .ro, 0, .i, 0⟩ -- R287
def PG_STATUS_TAKEOVERS : Row := ⟨0x184, 0x10, 4, 24, 8, .ro, 0, .i, 0⟩ -- R287
def PG_LAST_CAUSE : Row := ⟨0x188, 0x10, 4, 0, 4, .ro, 0, .i, 0⟩ -- R287
def PG_LAST_TAKE_US : Row := ⟨0x188, 0x10, 4, 16, 16, .ro, 0, .i, 0⟩ -- R287
def PG_NOTREADY_A : Row := ⟨0x18c, 0x10, 4, 0, 8, .ro, 0, .i, 0⟩ -- R287
def PG_NOTREADY_B : Row := ⟨0x18c, 0x10, 4, 8, 8, .ro, 0, .i, 0⟩ -- R287
def PG_CMD_OP : Row := ⟨0x1c0, 0, 1, 0, 4, .wo, 0, .i, 0⟩ -- R286
def PG_CMD_GROUP : Row := ⟨0x1c0, 0, 1, 4, 2, .wo, 0, .i, 0⟩ -- R286
def PG_CMD_SLOT : Row := ⟨0x1c0, 0, 1, 6, 1, .wo, 0, .i, 0⟩ -- R286
def BAR2_APER_REGION : Row := ⟨0x200, 0, 1, 0, 3, .rw, 0, .g, 0⟩ -- R390
def BAR2_APER_BASE_GIB : Row := ⟨0x200, 0, 1, 8, 7, .rw, 0, .g, 0⟩ -- R390
def RST_INFO_LAST : Row := ⟨0x210, 0, 1, 0, 2, .ro, 0, .l, 0⟩ -- R459
def RST_INFO_WARM_COUNT : Row := ⟨0x210, 0, 1, 8, 8, .ro, 0, .l, 0⟩ -- R459
def RST_INFO_PARKED : Row := ⟨0x210, 0, 1, 16, 8, .ro, 0, .l, 0⟩ -- R459

def rows_shm_0 : List Row := [ELECT_HOLDER, ELECT_SHADOW, ELECT_SHADOW_VALID, ELECT_HEALTHY, ELECT_REACH_AWN, ELECT_ELECT_COUNT, ADM_CMD_OP, ADM_CMD_TAG, ADM_CMD_CHANNEL, ADM_CMD_GEN, ADM_PLACE_REGION_MASK, ADM_PLACE_SPAN, ADM_PLACE_PREEMPTIBLE, ADM_PLACE_PROTECT, ADM_PLACE_PRIO, ADM_RESULT_TAG, ADM_RESULT_REASON, ADM_RESULT_PLACED, ADM_RESULT_GEN, ADM_DETAIL_REGION]
def rows_shm_1 : List Row := [ADM_DETAIL_RENDITION, ADM_DETAIL_RENDITION_VALID, ADM_DETAIL_SHORTFALL, ADM_STATUS_BUSY, ADM_STATUS_DONE, ADM_STATUS_INTERNAL, PG_CFG_MODE, PG_CFG_ACT_A, PG_CFG_ACT_B, PG_CFG_STBY, PG_CFG_HOLDOFF_S, PG_STATUS_STATE_A, PG_STATUS_STATE_B, PG_STATUS_SERVER_A, PG_STATUS_HOLD_A, PG_STATUS_SERVER_B, PG_STATUS_HOLD_B, PG_STATUS_RESULT, PG_STATUS_TAKEOVERS, PG_LAST_CAUSE]
def rows_shm_2 : List Row := [PG_LAST_TAKE_US, PG_NOTREADY_A, PG_NOTREADY_B, PG_CMD_OP, PG_CMD_GROUP, PG_CMD_SLOT, BAR2_APER_REGION, BAR2_APER_BASE_GIB, RST_INFO_LAST, RST_INFO_WARM_COUNT, RST_INFO_PARKED]
/-- The fields of table `shm`. -/
def rows_shm : List Row := rows_shm_0 ++ rows_shm_1 ++ rows_shm_2

def CH_STATE_STATE : Row := ⟨0, 0, 1, 0, 3, .ro, 0, .i, 0⟩ -- R81
def CH_STATE_GEN : Row := ⟨0, 0, 1, 8, 8, .ro, 0, .i, 0⟩ -- R81
def CH_STATE_STOP_REASON : Row := ⟨0, 0, 1, 16, 8, .ro, 0, .i, 0⟩ -- R81
def CH_STATE_PRIO : Row := ⟨0, 0, 1, 24, 4, .ro, 0, .i, 0⟩ -- R81
def CH_STATE_PREEMPTIBLE : Row := ⟨0, 0, 1, 28, 1, .ro, 0, .i, 0⟩ -- R81
def CH_STATE_PROTECTED : Row := ⟨0, 0, 1, 29, 1, .ro, 0, .i, 0⟩ -- R81
def CH_STATE_SPAN : Row := ⟨0, 0, 1, 30, 2, .ro, 0, .i, 0⟩ -- R81
def CH_LAT_NS_LAT : Row := ⟨4, 0, 1, 0, 32, .ro, 0, .i, 0⟩ -- R81
def CH_CLU_CLU : Row := ⟨8, 0, 1, 0, 20, .ro, 0, .i, 0⟩ -- R81
def CH_LADDER_CTL_EV_LEVEL : Row := ⟨0xc, 0, 1, 0, 3, .rw, 4, .e, 0⟩ -- R81
def CH_LADDER_CTL_EV_COUNT : Row := ⟨0xc, 0, 1, 16, 16, .rw, 0, .e, 0⟩ -- R81
def CH_LADDER_CNT0_L1 : Row := ⟨0x10, 0, 1, 0, 16, .ro, 0, .i, 0⟩ -- R81
def CH_LADDER_CNT0_L2 : Row := ⟨0x10, 0, 1, 16, 16, .ro, 0, .i, 0⟩ -- R81
def CH_LADDER_CNT1_L3 : Row := ⟨0x14, 0, 1, 0, 16, .ro, 0, .i, 0⟩ -- R81
def CH_LADDER_CNT1_L4 : Row := ⟨0x14, 0, 1, 16, 16, .ro, 0, .i, 0⟩ -- R81
def CH_LADDER_CNT2_L5 : Row := ⟨0x18, 0, 1, 0, 16, .ro, 0, .i, 0⟩ -- R81

/-- The fields of table `chstat`. -/
def rows_chstat : List Row := [CH_STATE_STATE, CH_STATE_GEN, CH_STATE_STOP_REASON, CH_STATE_PRIO, CH_STATE_PREEMPTIBLE, CH_STATE_PROTECTED, CH_STATE_SPAN, CH_LAT_NS_LAT, CH_CLU_CLU, CH_LADDER_CTL_EV_LEVEL, CH_LADDER_CTL_EV_COUNT, CH_LADDER_CNT0_L1, CH_LADDER_CNT0_L2, CH_LADDER_CNT1_L3, CH_LADDER_CNT1_L4, CH_LADDER_CNT2_L5]

def SRC_CTRL_IF : Row := ⟨0x400, 0, 1, 0, 2, .rw, 0, .h, 0⟩ -- R86
def SRC_CTRL_LANE : Row := ⟨0x400, 0, 1, 8, 7, .rw, 0, .h, 0⟩ -- R86
def SRC_CTRL_STBY_LANE : Row := ⟨0x400, 0, 1, 16, 7, .rw, 0, .h, 0⟩ -- R86
def SRC_FMT_WIDTH : Row := ⟨0x404, 0, 1, 0, 14, .rw, 0, .h, 0⟩ -- R86
def SRC_FMT_HEIGHT : Row := ⟨0x404, 0, 1, 16, 14, .rw, 0, .h, 0⟩ -- R86
def SRC_FMT_INTERLACED : Row := ⟨0x404, 0, 1, 30, 1, .rw, 0, .h, 0⟩ -- R86
def SRC_RATE_RATE : Row := ⟨0x408, 0, 1, 0, 4, .rw, 0, .h, 0⟩ -- R86
def SRC_RATE_SAMPLING : Row := ⟨0x408, 0, 1, 4, 2, .rw, 0, .h, 0⟩ -- R86
def SRC_RATE_DEPTH : Row := ⟨0x408, 0, 1, 6, 2, .rw, 0, .h, 0⟩ -- R86
def SRC_RATE_COLOUR : Row := ⟨0x408, 0, 1, 8, 3, .rw, 0, .h, 0⟩ -- R86
def SRC_2110_PORT : Row := ⟨0x40c, 0, 1, 0, 7, .rw, 0, .h, 0⟩ -- R86
def SRC_2110_DUAL : Row := ⟨0x40c, 0, 1, 7, 1, .rw, 0, .h, 0⟩ -- R86
def SRC_2110_PORT2 : Row := ⟨0x40c, 0, 1, 8, 7, .rw, 0, .h, 0⟩ -- R86
def SRC_GROUP : Row := ⟨0x410, 4, 4, 0, 32, .rw, 0, .h, 3⟩ -- R86
def SRC_UDP_PORT : Row := ⟨0x420, 0, 1, 0, 16, .rw, 0, .h, 0⟩ -- R86
def SRC_UDP_PT : Row := ⟨0x420, 0, 1, 16, 7, .rw, 0, .h, 0⟩ -- R86
def SRC_UDP_PT_EN : Row := ⟨0x420, 0, 1, 23, 1, .rw, 0, .h, 0⟩ -- R86
def ENC_CH_SLICES : Row := ⟨0x640, 0, 1, 0, 7, .rw, 8, .h, 0⟩ -- R116
def ENC_CH_L_ENC : Row := ⟨0x640, 0, 1, 8, 3, .rw, 2, .h, 0⟩ -- R116
def ENC_CH_CLASS : Row := ⟨0x640, 0, 1, 12, 1, .rw, 0, .h, 0⟩ -- R116
def ENC_CH_GOP16 : Row := ⟨0x640, 0, 1, 13, 1, .rw, 0, .h, 0⟩ -- R116
def ENC_CH_NUM_REND : Row := ⟨0x640, 0, 1, 16, 4, .rw, 1, .h, 0⟩ -- R116
def ENC_CH_DET : Row := ⟨0x640, 0, 1, 20, 1, .rw, 0, .h, 0⟩ -- R116
def ENC_TC_SRC : Row := ⟨0x644, 0, 1, 0, 2, .rw, 2, .h, 0⟩ -- R116
def ENC_TC_DROP : Row := ⟨0x644, 0, 1, 2, 1, .rw, 1, .h, 0⟩ -- R116
def ENC_TC_OFS : Row := ⟨0x644, 0, 1, 14, 18, .rw, 0, .h, 0⟩ -- R116
def FEED_CTRL_EN : Row := ⟨0xe80, 0, 1, 0, 1, .rw, 0, .h, 0⟩ -- R197
def FEED_CTRL_CODEC : Row := ⟨0xe80, 0, 1, 1, 2, .rw, 1, .h, 0⟩ -- R197
def FEED_CTRL_ENCAP : Row := ⟨0xe80, 0, 1, 3, 3, .rw, 0, .h, 0⟩ -- R197
def FEED_CTRL_SHOW_TAINTED : Row := ⟨0xe80, 0, 1, 6, 1, .rw, 1, .h, 0⟩ -- R197
def FEED_CTRL_CHROMA : Row := ⟨0xe80, 0, 1, 8, 2, .rw, 1, .h, 0⟩ -- R197
def FEED_RATE_MAX_KBPS : Row := ⟨0xe84, 0, 1, 0, 24, .rw, 0x9c40, .h, 0⟩ -- R197
def FEED_BUF_DELAY : Row := ⟨0xe88, 0, 1, 0, 14, .rw, 0x14, .h, 0⟩ -- R197
def FEED_BUF_PID : Row := ⟨0xe88, 0, 1, 16, 13, .rw, 0x1fff, .h, 0⟩ -- R197

def rows_staging_0 : List Row := [SRC_CTRL_IF, SRC_CTRL_LANE, SRC_CTRL_STBY_LANE, SRC_FMT_WIDTH, SRC_FMT_HEIGHT, SRC_FMT_INTERLACED, SRC_RATE_RATE, SRC_RATE_SAMPLING, SRC_RATE_DEPTH, SRC_RATE_COLOUR, SRC_2110_PORT, SRC_2110_DUAL, SRC_2110_PORT2, SRC_GROUP, SRC_UDP_PORT, SRC_UDP_PT, SRC_UDP_PT_EN, ENC_CH_SLICES, ENC_CH_L_ENC, ENC_CH_CLASS]
def rows_staging_1 : List Row := [ENC_CH_GOP16, ENC_CH_NUM_REND, ENC_CH_DET, ENC_TC_SRC, ENC_TC_DROP, ENC_TC_OFS, FEED_CTRL_EN, FEED_CTRL_CODEC, FEED_CTRL_ENCAP, FEED_CTRL_SHOW_TAINTED, FEED_CTRL_CHROMA, FEED_RATE_MAX_KBPS, FEED_BUF_DELAY, FEED_BUF_PID]
/-- The fields of table `staging`. -/
def rows_staging : List Row := rows_staging_0 ++ rows_staging_1

def LY_CTRL_ENABLE : Row := ⟨0, 0, 1, 0, 1, .rws, 0, .e, 0⟩ -- R92
def LY_CTRL_KIND : Row := ⟨0, 0, 1, 1, 2, .rws, 0, .e, 0⟩ -- R92
def LY_CTRL_FORMAT : Row := ⟨0, 0, 1, 8, 4, .rws, 0, .e, 0⟩ -- R92
def LY_CTRL_PREMULT : Row := ⟨0, 0, 1, 12, 1, .rws, 0, .e, 0⟩ -- R92
def LY_CTRL_LATE_POLICY : Row := ⟨0, 0, 1, 13, 2, .rws, 0, .e, 0⟩ -- R92
def LY_CTRL_CHAIN_EN : Row := ⟨0, 0, 1, 15, 1, .rws, 0, .e, 0⟩ -- R92
def LY_CTRL_LUT_SET : Row := ⟨0, 0, 1, 16, 5, .rws, 0, .e, 0⟩ -- R92
def LY_SRC_SRC_CH : Row := ⟨4, 0, 1, 0, 7, .rws, 0, .e, 0⟩ -- R92
def LY_BASE_LO : Row := ⟨8, 0, 1, 0, 32, .rws, 0, .e, 1⟩ -- R92
def LY_BASE_HI : Row := ⟨0xc, 0, 1, 0, 32, .rws, 0, .e, 2⟩ -- R92
def LY_STRIDE_BYTES : Row := ⟨0x10, 0, 1, 0, 17, .rws, 0, .e, 0⟩ -- R92
def LY_SRC_SIZE_WIDTH : Row := ⟨0x14, 0, 1, 0, 14, .rws, 0, .e, 0⟩ -- R92
def LY_SRC_SIZE_HEIGHT : Row := ⟨0x14, 0, 1, 16, 14, .rws, 0, .e, 0⟩ -- R92
def LY_DST_POS_X : Row := ⟨0x18, 0, 1, 0, 14, .rws, 0, .e, 0⟩ -- R92
def LY_DST_POS_Y : Row := ⟨0x18, 0, 1, 16, 14, .rws, 0, .e, 0⟩ -- R92
def LY_DST_SIZE_WIDTH : Row := ⟨0x1c, 0, 1, 0, 14, .rws, 0, .e, 0⟩ -- R92
def LY_DST_SIZE_HEIGHT : Row := ⟨0x1c, 0, 1, 16, 14, .rws, 0, .e, 0⟩ -- R92
def LY_POST_SLOT : Row := ⟨0x20, 0, 1, 0, 2, .wo, 0, .e, 0⟩ -- R92
def LY_POST_POST : Row := ⟨0x20, 0, 1, 31, 1, .wo, 0, .e, 0⟩ -- R92
def LY_STAT_QUEUE : Row := ⟨0x24, 0, 1, 0, 3, .ro, 0, .i, 0⟩ -- R92
def LY_STAT_LATE : Row := ⟨0x24, 0, 1, 16, 16, .ro, 0, .i, 0⟩ -- R92

def rows_layer_0 : List Row := [LY_CTRL_ENABLE, LY_CTRL_KIND, LY_CTRL_FORMAT, LY_CTRL_PREMULT, LY_CTRL_LATE_POLICY, LY_CTRL_CHAIN_EN, LY_CTRL_LUT_SET, LY_SRC_SRC_CH, LY_BASE_LO, LY_BASE_HI, LY_STRIDE_BYTES, LY_SRC_SIZE_WIDTH, LY_SRC_SIZE_HEIGHT, LY_DST_POS_X, LY_DST_POS_Y, LY_DST_SIZE_WIDTH, LY_DST_SIZE_HEIGHT, LY_POST_SLOT, LY_POST_POST, LY_STAT_QUEUE]
def rows_layer_1 : List Row := [LY_STAT_LATE]
/-- The fields of table `layer`. -/
def rows_layer : List Row := rows_layer_0 ++ rows_layer_1

def CMP_COMMIT_COMMIT : Row := ⟨0x200, 0, 1, 0, 1, .wo, 0, .e, 0⟩ -- R95
def CMP_COMMIT_ID : Row := ⟨0x200, 0, 1, 8, 8, .wo, 0, .e, 0⟩ -- R95
def CMP_RESULT_CODE : Row := ⟨0x204, 0, 1, 0, 8, .ro, 0, .i, 0⟩ -- R95
def CMP_RESULT_LAYER : Row := ⟨0x204, 0, 1, 8, 3, .ro, 0, .i, 0⟩ -- R95
def CMP_RESULT_LAYER_VALID : Row := ⟨0x204, 0, 1, 11, 1, .ro, 0, .i, 0⟩ -- R95
def CMP_RESULT_PENDING : Row := ⟨0x204, 0, 1, 16, 1, .ro, 0, .i, 0⟩ -- R95
def CMP_RESULT_APPLIED_ID : Row := ⟨0x204, 0, 1, 24, 8, .ro, 0, .i, 0⟩ -- R95
def CMP_BG_Y : Row := ⟨0x208, 0, 1, 0, 10, .rws, 0x40, .e, 0⟩ -- R95
def CMP_BG_CB : Row := ⟨0x208, 0, 1, 10, 10, .rws, 0x200, .e, 0⟩ -- R95
def CMP_BG_CR : Row := ⟨0x208, 0, 1, 20, 10, .rws, 0x200, .e, 0⟩ -- R95
def CMP_SRC_CNT_REPEAT : Row := ⟨0x20c, 0, 1, 0, 16, .ro, 0, .i, 0⟩ -- R95
def CMP_SRC_CNT_SKIP : Row := ⟨0x20c, 0, 1, 16, 16, .ro, 0, .i, 0⟩ -- R95
def CMP_QUAD_DEGRADED : Row := ⟨0x210, 0, 1, 0, 16, .ro, 0, .i, 0⟩ -- R95
def CMP_QUAD_LOST : Row := ⟨0x210, 0, 1, 16, 4, .ro, 0, .i, 0⟩ -- R95
def CMP_PHASE_PHI : Row := ⟨0x214, 0, 1, 0, 32, .ro, 0, .i, 0⟩ -- R95

/-- The fields of table `cmp`. -/
def rows_cmp : List Row := [CMP_COMMIT_COMMIT, CMP_COMMIT_ID, CMP_RESULT_CODE, CMP_RESULT_LAYER, CMP_RESULT_LAYER_VALID, CMP_RESULT_PENDING, CMP_RESULT_APPLIED_ID, CMP_BG_Y, CMP_BG_CB, CMP_BG_CR, CMP_SRC_CNT_REPEAT, CMP_SRC_CNT_SKIP, CMP_QUAD_DEGRADED, CMP_QUAD_LOST, CMP_PHASE_PHI]

def IN_LUT_R : Row := ⟨0, 4, 2048, 0, 32, .rw, 0, .e, 0⟩ -- R105
def IN_LUT_G : Row := ⟨0x2000, 4, 2048, 0, 32, .rw, 0, .e, 0⟩ -- R105
def IN_LUT_B : Row := ⟨0x4000, 4, 2048, 0, 32, .rw, 0, .e, 0⟩ -- R105
def LS_CTRL_CONV_IN : Row := ⟨0x6000, 0, 1, 0, 2, .rw, 0, .e, 0⟩ -- R105
def LS_CTRL_CONV_OUT : Row := ⟨0x6000, 0, 1, 2, 2, .rw, 0, .e, 0⟩ -- R105
def LS_CTRL_TONE_DOMAIN : Row := ⟨0x6000, 0, 1, 4, 2, .rw, 0, .e, 0⟩ -- R105
def LS_CTRL_IN_EN : Row := ⟨0x6000, 0, 1, 6, 1, .rw, 0, .e, 0⟩ -- R105
def LS_CTRL_MTX_EN : Row := ⟨0x6000, 0, 1, 7, 1, .rw, 0, .e, 0⟩ -- R105
def LS_CTRL_LUT3D_EN : Row := ⟨0x6000, 0, 1, 8, 1, .rw, 0, .e, 0⟩ -- R105
def LS_CTRL_OUT_EN : Row := ⟨0x6000, 0, 1, 9, 1, .rw, 0, .e, 0⟩ -- R105
def LS_MTX : Row := ⟨0x6004, 4, 4, 0, 32, .rw, 0, .e, 0⟩ -- R105
def LS_MTX_BB : Row := ⟨0x6014, 0, 1, 0, 16, .rw, 0, .e, 0⟩ -- R105
def LS_OFS_R : Row := ⟨0x6018, 0, 1, 0, 18, .rw, 0, .e, 0⟩ -- R105
def LS_OFS_G : Row := ⟨0x601c, 0, 1, 0, 18, .rw, 0, .e, 0⟩ -- R105
def LS_OFS_B : Row := ⟨0x6020, 0, 1, 0, 18, .rw, 0, .e, 0⟩ -- R105
def LS_LWT : Row := ⟨0x6024, 0, 1, 0, 32, .rw, 0, .e, 0⟩ -- R105
def LS_LWT_B : Row := ⟨0x6028, 0, 1, 0, 16, .rw, 0, .e, 0⟩ -- R105
def TONE_LUT : Row := ⟨0x7000, 4, 2048, 0, 32, .rw, 0, .e, 0⟩ -- R105
def OUT_LUT_R : Row := ⟨0xa000, 4, 2048, 0, 32, .rw, 0, .e, 0⟩ -- R105
def OUT_LUT_G : Row := ⟨0xc000, 4, 2048, 0, 32, .rw, 0, .e, 0⟩ -- R105
def OUT_LUT_B : Row := ⟨0xe000, 4, 2048, 0, 32, .rw, 0, .e, 0⟩ -- R105
def LUT3D_RG : Row := ⟨0x10000, 8, 35937, 0, 32, .rw, 0, .e, 0⟩ -- R105
def LUT3D_B : Row := ⟨0x10004, 8, 35937, 0, 16, .rw, 0, .e, 0⟩ -- R105

/-- The fields of table `chain`. -/
def rows_chain : List Row := [IN_LUT_R, IN_LUT_G, IN_LUT_B, LS_CTRL_CONV_IN, LS_CTRL_CONV_OUT, LS_CTRL_TONE_DOMAIN, LS_CTRL_IN_EN, LS_CTRL_MTX_EN, LS_CTRL_LUT3D_EN, LS_CTRL_OUT_EN, LS_MTX, LS_MTX_BB, LS_OFS_R, LS_OFS_G, LS_OFS_B, LS_LWT, LS_LWT_B, TONE_LUT, OUT_LUT_R, OUT_LUT_G, OUT_LUT_B, LUT3D_RG,
  LUT3D_B]

def RN_CTRL_CODEC : Row := ⟨0, 0, 1, 0, 2, .rw, 1, .h, 0⟩ -- R117
def RN_CTRL_PROFILE : Row := ⟨0, 0, 1, 2, 4, .rw, 2, .h, 0⟩ -- R117
def RN_CTRL_EFFORT : Row := ⟨0, 0, 1, 6, 2, .rw, 1, .h, 0⟩ -- R117
def RN_CTRL_CHROMA : Row := ⟨0, 0, 1, 8, 2, .rw, 1, .h, 0⟩ -- R117
def RN_CTRL_DEPTH : Row := ⟨0, 0, 1, 10, 2, .rw, 1, .h, 0⟩ -- R117
def RN_CTRL_CONF_DEC : Row := ⟨0, 0, 1, 12, 1, .rw, 1, .h, 0⟩ -- R117
def RN_CTRL_CHAIN_EN : Row := ⟨0, 0, 1, 13, 1, .rw, 0, .h, 0⟩ -- R117
def RN_CTRL_LUT_SET : Row := ⟨0, 0, 1, 14, 5, .rw, 0, .h, 0⟩ -- R117
def RN_CTRL_COLOUR : Row := ⟨0, 0, 1, 19, 3, .rw, 0, .h, 0⟩ -- R117
def RN_CTRL_REPLACE : Row := ⟨0, 0, 1, 22, 1, .rw, 0, .h, 0⟩ -- R117
def RN_SIZE_WIDTH : Row := ⟨4, 0, 1, 0, 14, .rw, 0, .h, 0⟩ -- R117
def RN_SIZE_HEIGHT : Row := ⟨4, 0, 1, 16, 14, .rw, 0, .h, 0⟩ -- R117
def RN_LEVEL_LEVEL : Row := ⟨8, 0, 1, 0, 8, .rw, 0, .h, 0⟩ -- R117
def RN_LEVEL_TIER_HIGH : Row := ⟨8, 0, 1, 8, 1, .rw, 0, .h, 0⟩ -- R117
def RN_GOP_MODE : Row := ⟨0xc, 0, 1, 0, 3, .rw, 2, .h, 0⟩ -- R117
def RN_GOP_IRAP_CRA : Row := ⟨0xc, 0, 1, 3, 1, .rw, 0, .h, 0⟩ -- R117
def RN_GOP_SC_IRAP : Row := ⟨0xc, 0, 1, 4, 1, .rw, 0, .h, 0⟩ -- R117
def RN_GOP_DIR : Row := ⟨0xc, 0, 1, 5, 1, .rw, 0, .h, 0⟩ -- R117
def RN_GOP_INTRA_PERIOD : Row := ⟨0xc, 0, 1, 8, 16, .rw, 0, .h, 0⟩ -- R117
def RN_GOP_REFRESH_PERIOD : Row := ⟨0xc, 0, 1, 24, 8, .rw, 0x20, .h, 0⟩ -- R117
def RN_SEI_TC_EN : Row := ⟨0x10, 0, 1, 0, 1, .rw, 1, .h, 0⟩ -- R117
def RN_SEI_CC_EN : Row := ⟨0x10, 0, 1, 1, 1, .rw, 1, .h, 0⟩ -- R117
def RN_SEI_HDR_EN : Row := ⟨0x10, 0, 1, 2, 1, .rw, 0, .h, 0⟩ -- R117
def RN_SEI_PS_EVERY_AU : Row := ⟨0x10, 0, 1, 3, 1, .rw, 0, .h, 0⟩ -- R117
def RN_MDCV0_G_X : Row := ⟨0x14, 0, 1, 0, 16, .rw, 0, .h, 0⟩ -- R117
def RN_MDCV0_G_Y : Row := ⟨0x14, 0, 1, 16, 16, .rw, 0, .h, 0⟩ -- R117
def RN_MDCV1_B_X : Row := ⟨0x18, 0, 1, 0, 16, .rw, 0, .h, 0⟩ -- R117
def RN_MDCV1_B_Y : Row := ⟨0x18, 0, 1, 16, 16, .rw, 0, .h, 0⟩ -- R117
def RN_MDCV2_R_X : Row := ⟨0x1c, 0, 1, 0, 16, .rw, 0, .h, 0⟩ -- R117
def RN_MDCV2_R_Y : Row := ⟨0x1c, 0, 1, 16, 16, .rw, 0, .h, 0⟩ -- R117
def RN_MDCV3_WP_X : Row := ⟨0x20, 0, 1, 0, 16, .rw, 0, .h, 0⟩ -- R117
def RN_MDCV3_WP_Y : Row := ⟨0x20, 0, 1, 16, 16, .rw, 0, .h, 0⟩ -- R117
def RN_MDCV4_MAX_LUM : Row := ⟨0x24, 0, 1, 0, 32, .rw, 0, .h, 0⟩ -- R117
def RN_MDCV5_MIN_LUM : Row := ⟨0x28, 0, 1, 0, 32, .rw, 0, .h, 0⟩ -- R117
def RN_CLL_MAX_CLL : Row := ⟨0x2c, 0, 1, 0, 16, .rw, 0, .h, 0⟩ -- R117
def RN_CLL_MAX_FALL : Row := ⟨0x2c, 0, 1, 16, 16, .rw, 0, .h, 0⟩ -- R117
def RC_CTRL_MODE : Row := ⟨0x80, 0, 1, 0, 2, .rw, 0, .h, 0⟩ -- R190
def RC_CTRL_AU_HRD : Row := ⟨0x80, 0, 1, 2, 1, .rw, 0, .h, 0⟩ -- R190
def RC_CTRL_CPB_SP : Row := ⟨0x80, 0, 1, 8, 8, .rw, 0, .h, 0⟩ -- R190
def RC_CTRL_PEAK : Row := ⟨0x80, 0, 1, 16, 7, .rw, 0x20, .h, 0⟩ -- R190
def RC_CTRL_ADAPT : Row := ⟨0x80, 0, 1, 24, 4, .rw, 4, .h, 0⟩ -- R190
def RC_CTRL_MARGIN : Row := ⟨0x80, 0, 1, 28, 4, .rw, 8, .h, 0⟩ -- R190
def RC_RATE_MAX_KBPS : Row := ⟨0x84, 0, 1, 0, 24, .rw, 0x9c40, .h, 0⟩ -- R190
def RC_VBR_AVG_KBPS : Row := ⟨0x88, 0, 1, 0, 24, .rw, 0, .h, 0⟩ -- R190
def RC_VBR_WIN : Row := ⟨0x88, 0, 1, 24, 8, .rw, 0xa, .h, 0⟩ -- R190
def RC_QI_QI : Row := ⟨0x8c, 0, 1, 0, 6, .rw, 0x28, .h, 0⟩ -- R190
def RC_QI_QP_MIN : Row := ⟨0x8c, 0, 1, 16, 7, .rw, 0x74, .h, 0⟩ -- R190
def RC_QI_QP_MAX : Row := ⟨0x8c, 0, 1, 24, 7, .rw, 0x33, .h, 0⟩ -- R190
def RC_CPB_CPB_US : Row := ⟨0x90, 0, 1, 0, 20, .rw, 0, .h, 0⟩ -- R190
def OUT_CTRL_ENCAP : Row := ⟨0xc0, 0, 1, 0, 2, .rw, 0, .h, 0⟩ -- R242
def OUT_CTRL_PT : Row := ⟨0xc0, 0, 1, 8, 7, .rw, 0x60, .h, 0⟩ -- R242
def OUT_CTRL_PAYLOAD : Row := ⟨0xc0, 0, 1, 16, 11, .rw, 0x578, .h, 0⟩ -- R242
def OUT_CTRL_TS_PKTS : Row := ⟨0xc0, 0, 1, 27, 3, .rw, 7, .h, 0⟩ -- R242
def OUT_SSRC : Row := ⟨0xc4, 0, 1, 0, 32, .rw, 0, .h, 0⟩ -- R242
def OUT_PID_VIDEO_PID : Row := ⟨0xc8, 0, 1, 0, 13, .rw, 0x100, .h, 0⟩ -- R242
def OUT_PID_PMT_PID : Row := ⟨0xc8, 0, 1, 16, 13, .rw, 0x1000, .h, 0⟩ -- R242
def OUT_PROG_PROGRAM : Row := ⟨0xcc, 0, 1, 0, 16, .rw, 1, .h, 0⟩ -- R242
def OUT_PROG_TSID : Row := ⟨0xcc, 0, 1, 16, 16, .rw, 1, .h, 0⟩ -- R242
def OUT_PTS_OFS : Row := ⟨0xd0, 0, 1, 0, 32, .rw, 0, .h, 0⟩ -- R242

def rows_rend_0 : List Row := [RN_CTRL_CODEC, RN_CTRL_PROFILE, RN_CTRL_EFFORT, RN_CTRL_CHROMA, RN_CTRL_DEPTH, RN_CTRL_CONF_DEC, RN_CTRL_CHAIN_EN, RN_CTRL_LUT_SET, RN_CTRL_COLOUR, RN_CTRL_REPLACE, RN_SIZE_WIDTH, RN_SIZE_HEIGHT, RN_LEVEL_LEVEL, RN_LEVEL_TIER_HIGH, RN_GOP_MODE, RN_GOP_IRAP_CRA, RN_GOP_SC_IRAP, RN_GOP_DIR, RN_GOP_INTRA_PERIOD, RN_GOP_REFRESH_PERIOD]
def rows_rend_1 : List Row := [RN_SEI_TC_EN, RN_SEI_CC_EN, RN_SEI_HDR_EN, RN_SEI_PS_EVERY_AU, RN_MDCV0_G_X, RN_MDCV0_G_Y, RN_MDCV1_B_X, RN_MDCV1_B_Y, RN_MDCV2_R_X, RN_MDCV2_R_Y, RN_MDCV3_WP_X, RN_MDCV3_WP_Y, RN_MDCV4_MAX_LUM, RN_MDCV5_MIN_LUM, RN_CLL_MAX_CLL, RN_CLL_MAX_FALL, RC_CTRL_MODE, RC_CTRL_AU_HRD, RC_CTRL_CPB_SP, RC_CTRL_PEAK]
def rows_rend_2 : List Row := [RC_CTRL_ADAPT, RC_CTRL_MARGIN, RC_RATE_MAX_KBPS, RC_VBR_AVG_KBPS, RC_VBR_WIN, RC_QI_QI, RC_QI_QP_MIN, RC_QI_QP_MAX, RC_CPB_CPB_US, OUT_CTRL_ENCAP, OUT_CTRL_PT, OUT_CTRL_PAYLOAD, OUT_CTRL_TS_PKTS, OUT_SSRC, OUT_PID_VIDEO_PID, OUT_PID_PMT_PID, OUT_PROG_PROGRAM, OUT_PROG_TSID, OUT_PTS_OFS]
/-- The fields of table `rend`. -/
def rows_rend : List Row := rows_rend_0 ++ rows_rend_1 ++ rows_rend_2

def ROI_CTRL_MAP_EN : Row := ⟨0, 0, 1, 0, 1, .rws, 0, .e, 0⟩ -- R147
def ROI_MAP_LO : Row := ⟨4, 0, 1, 0, 32, .rws, 0, .e, 1⟩ -- R147
def ROI_MAP_HI : Row := ⟨8, 0, 1, 0, 32, .rws, 0, .e, 2⟩ -- R147
def ROI_COMMIT_COMMIT : Row := ⟨0xc, 0, 1, 0, 1, .wo, 0, .e, 0⟩ -- R147
def ROI_COMMIT_ID : Row := ⟨0xc, 0, 1, 8, 8, .wo, 0, .e, 0⟩ -- R147
def ROI_RESULT_CODE : Row := ⟨0x10, 0, 1, 0, 8, .ro, 0, .i, 0⟩ -- R147
def ROI_RESULT_RECT : Row := ⟨0x10, 0, 1, 8, 4, .ro, 0, .i, 0⟩ -- R147
def ROI_RESULT_RECT_VALID : Row := ⟨0x10, 0, 1, 12, 1, .ro, 0, .i, 0⟩ -- R147
def ROI_RESULT_PENDING : Row := ⟨0x10, 0, 1, 16, 1, .ro, 0, .i, 0⟩ -- R147
def ROI_RESULT_VERSION : Row := ⟨0x10, 0, 1, 24, 8, .ro, 0, .i, 0⟩ -- R147
def ROI_RETIRED_VERSION : Row := ⟨0x14, 0, 1, 0, 8, .ro, 0, .i, 0⟩ -- R147
def RECT_POS_X : Row := ⟨0x40, 0x10, 16, 0, 14, .rws, 0, .e, 0⟩ -- R147
def RECT_POS_Y : Row := ⟨0x40, 0x10, 16, 16, 14, .rws, 0, .e, 0⟩ -- R147
def RECT_SIZE_W : Row := ⟨0x44, 0x10, 16, 0, 14, .rws, 0, .e, 0⟩ -- R147
def RECT_SIZE_H : Row := ⟨0x44, 0x10, 16, 16, 14, .rws, 0, .e, 0⟩ -- R147
def RECT_CTRL_EN : Row := ⟨0x48, 0x10, 16, 0, 1, .rws, 0, .e, 0⟩ -- R147
def RECT_CTRL_QP_OFS : Row := ⟨0x48, 0x10, 16, 4, 5, .rws, 0, .e, 0⟩ -- R147
def RECT_CTRL_PRIO : Row := ⟨0x48, 0x10, 16, 12, 4, .rws, 0, .e, 0⟩ -- R147

/-- The fields of table `roi`. -/
def rows_roi : List Row := [ROI_CTRL_MAP_EN, ROI_MAP_LO, ROI_MAP_HI, ROI_COMMIT_COMMIT, ROI_COMMIT_ID, ROI_RESULT_CODE, ROI_RESULT_RECT, ROI_RESULT_RECT_VALID, ROI_RESULT_PENDING, ROI_RESULT_VERSION, ROI_RETIRED_VERSION, RECT_POS_X, RECT_POS_Y, RECT_SIZE_W, RECT_SIZE_H, RECT_CTRL_EN, RECT_CTRL_QP_OFS, RECT_CTRL_PRIO]

def RN_STATE_ACTIVE : Row := ⟨0, 0, 1, 0, 1, .ro, 0, .i, 0⟩ -- R156
def RN_STATE_CODEC : Row := ⟨0, 0, 1, 1, 2, .ro, 0, .i, 0⟩ -- R156
def RN_STATE_LEVEL : Row := ⟨0, 0, 1, 8, 8, .ro, 0, .i, 0⟩ -- R156
def RN_STATE_TIER : Row := ⟨0, 0, 1, 16, 1, .ro, 0, .i, 0⟩ -- R156
def RN_STATE_HALO_LATE : Row := ⟨0, 0, 1, 24, 4, .ro, 0, .i, 0⟩ -- R156
def RN_STATE_CC_DROP : Row := ⟨0, 0, 1, 28, 4, .ro, 0, .i, 0⟩ -- R156
def STAT_CTRL_EN : Row := ⟨4, 0, 1, 0, 1, .rw, 0, .e, 0⟩ -- R156
def STAT_CTRL_CTU_EN : Row := ⟨4, 0, 1, 1, 1, .rw, 1, .e, 0⟩ -- R156
def STAT_CTRL_MV_EN : Row := ⟨4, 0, 1, 2, 1, .rw, 1, .e, 0⟩ -- R156
def STAT_BASE_LO : Row := ⟨8, 0, 1, 0, 32, .rw, 0, .e, 1⟩ -- R156
def STAT_BASE_HI : Row := ⟨0xc, 0, 1, 0, 32, .rw, 0, .e, 2⟩ -- R156
def STAT_SIZE : Row := ⟨0x10, 0, 1, 0, 32, .rw, 0x10000, .e, 0⟩ -- R156
def STAT_WR : Row := ⟨0x14, 0, 1, 0, 32, .ro, 0, .i, 0⟩ -- R156
def STAT_RD : Row := ⟨0x18, 0, 1, 0, 32, .rw, 0, .e, 0⟩ -- R156
def STAT_LOST : Row := ⟨0x1c, 0, 1, 0, 32, .ro, 0, .i, 0⟩ -- R156
def RN_PICS : Row := ⟨0x20, 0, 1, 0, 32, .ro, 0, .i, 0⟩ -- R156

/-- The fields of table `live`. -/
def rows_live : List Row := [RN_STATE_ACTIVE, RN_STATE_CODEC, RN_STATE_LEVEL, RN_STATE_TIER, RN_STATE_HALO_LATE, RN_STATE_CC_DROP, STAT_CTRL_EN, STAT_CTRL_CTU_EN, STAT_CTRL_MV_EN, STAT_BASE_LO, STAT_BASE_HI, STAT_SIZE, STAT_WR, STAT_RD, STAT_LOST, RN_PICS]

def RCS_ROOM : Row := ⟨0, 0, 1, 0, 32, .ro, 0, .i, 0⟩ -- R191
def RCS_CPB_SIZE : Row := ⟨4, 0, 1, 0, 32, .ro, 0, .i, 0⟩ -- R191
def RCS_RATE : Row := ⟨8, 0, 1, 0, 32, .ro, 0, .i, 0⟩ -- R191
def RCS_TCPB_TICKS : Row := ⟨0xc, 0, 1, 0, 16, .ro, 0, .i, 0⟩ -- R191
def RCS_QP_QP_BASE : Row := ⟨0x10, 0, 1, 0, 7, .ro, 0, .i, 0⟩ -- R191
def RCS_QP_QI : Row := ⟨0x10, 0, 1, 8, 6, .ro, 0, .i, 0⟩ -- R191
def RCS_THETA_I : Row := ⟨0x14, 0, 1, 0, 32, .ro, 0, .i, 0⟩ -- R191
def RCS_THETA_P : Row := ⟨0x18, 0, 1, 0, 32, .ro, 0, .i, 0⟩ -- R191
def RCS_THETA_B : Row := ⟨0x1c, 0, 1, 0, 32, .ro, 0, .i, 0⟩ -- R191
def RCS_DRIFT : Row := ⟨0x20, 0, 1, 0, 32, .ro, 0, .i, 0⟩ -- R191
def RCS_FLOOR_PICS : Row := ⟨0x24, 0, 1, 0, 16, .ro, 0, .i, 0⟩ -- R191
def RCS_FLOOR_ROWS : Row := ⟨0x24, 0, 1, 16, 16, .ro, 0, .i, 0⟩ -- R191
def RCS_MIN_CTUS : Row := ⟨0x28, 0, 1, 0, 32, .ro, 0, .i, 0⟩ -- R191
def RCS_FILLER : Row := ⟨0x2c, 0, 1, 0, 32, .ro, 0, .i, 0⟩ -- R191
def RCS_CAPPED : Row := ⟨0x30, 0, 1, 0, 32, .ro, 0, .i, 0⟩ -- R191

/-- The fields of table `rcs`. -/
def rows_rcs : List Row := [RCS_ROOM, RCS_CPB_SIZE, RCS_RATE, RCS_TCPB_TICKS, RCS_QP_QP_BASE, RCS_QP_QI, RCS_THETA_I, RCS_THETA_P, RCS_THETA_B, RCS_DRIFT, RCS_FLOOR_PICS, RCS_FLOOR_ROWS, RCS_MIN_CTUS, RCS_FILLER, RCS_CAPPED]

def DE_LOAD_DLU : Row := ⟨0x100, 0, 1, 0, 16, .ro, 0, .i, 0⟩ -- R216
def DE_LOAD_STREAMS : Row := ⟨0x100, 0, 1, 16, 8, .ro, 0, .i, 0⟩ -- R216
def DE_BOUND_CYC_MULT : Row := ⟨0x104, 0, 1, 0, 4, .rw, 8, .e, 0⟩ -- R216
def DE_WD_EXPIRED : Row := ⟨0x108, 0, 1, 0, 16, .ro, 0, .i, 0⟩ -- R216
def DE_WD_BUDGET : Row := ⟨0x108, 0, 1, 16, 16, .ro, 0, .i, 0⟩ -- R216
def DE_BND_BYTE : Row := ⟨0x10c, 0, 1, 0, 16, .ro, 0, .i, 0⟩ -- R216
def DE_BND_BUF : Row := ⟨0x10c, 0, 1, 16, 16, .ro, 0, .i, 0⟩ -- R216
def DE_VIOL_ADDR_LO : Row := ⟨0x110, 0, 1, 0, 32, .ro, 0, .i, 1⟩ -- R216
def DE_VIOL_ADDR_HI : Row := ⟨0x114, 0, 1, 0, 32, .ro, 0, .i, 2⟩ -- R216
def DE_VIOL_INFO_DESC : Row := ⟨0x118, 0, 1, 0, 3, .ro, 0, .i, 0⟩ -- R216
def DE_VIOL_INFO_READ : Row := ⟨0x118, 0, 1, 3, 1, .ro, 0, .i, 0⟩ -- R216
def DE_VIOL_INFO_SLOT : Row := ⟨0x118, 0, 1, 4, 11, .ro, 0, .i, 0⟩ -- R216
def DE_VIOL_INFO_VALID : Row := ⟨0x118, 0, 1, 31, 1, .w1c, 0, .i, 0⟩ -- R216
def DE_BUF_BASE_LO : Row := ⟨0x180, 0x10, 8, 0, 32, .ro, 0, .i, 1⟩ -- R216
def DE_BUF_BASE_HI : Row := ⟨0x184, 0x10, 8, 0, 32, .ro, 0, .i, 2⟩ -- R216
def DE_BUF_LIMIT_LO : Row := ⟨0x188, 0x10, 8, 0, 32, .ro, 0, .i, 1⟩ -- R216
def DE_BUF_LIMIT_HI : Row := ⟨0x18c, 0x10, 8, 0, 32, .ro, 0, .i, 2⟩ -- R216

/-- The fields of table `de`. -/
def rows_de : List Row := [DE_LOAD_DLU, DE_LOAD_STREAMS, DE_BOUND_CYC_MULT, DE_WD_EXPIRED, DE_WD_BUDGET, DE_BND_BYTE, DE_BND_BUF, DE_VIOL_ADDR_LO, DE_VIOL_ADDR_HI, DE_VIOL_INFO_DESC, DE_VIOL_INFO_READ, DE_VIOL_INFO_SLOT, DE_VIOL_INFO_VALID, DE_BUF_BASE_LO, DE_BUF_BASE_HI, DE_BUF_LIMIT_LO, DE_BUF_LIMIT_HI]

def DS_STATE_ACTIVE : Row := ⟨0, 0, 1, 0, 1, .ro, 0, .i, 0⟩ -- R217
def DS_STATE_USE : Row := ⟨0, 0, 1, 1, 2, .ro, 0, .i, 0⟩ -- R217
def DS_STATE_TAINTED : Row := ⟨0, 0, 1, 3, 1, .ro, 0, .i, 0⟩ -- R217
def DS_STATE_ENGINE : Row := ⟨0, 0, 1, 4, 1, .ro, 0, .i, 0⟩ -- R217
def DS_STATE_LAST_ERR : Row := ⟨0, 0, 1, 16, 8, .ro, 0, .i, 0⟩ -- R217
def DS_PICS : Row := ⟨4, 0, 1, 0, 32, .ro, 0, .i, 0⟩ -- R217
def DS_ERR_SYNTAX : Row := ⟨8, 0, 1, 0, 16, .ro, 0, .i, 0⟩ -- R217
def DS_ERR_SEMANTIC : Row := ⟨8, 0, 1, 16, 16, .ro, 0, .i, 0⟩ -- R217
def DS_ERR2_TRANSPORT : Row := ⟨0xc, 0, 1, 0, 16, .ro, 0, .i, 0⟩ -- R217
def DS_ERR2_BOUND : Row := ⟨0xc, 0, 1, 16, 16, .ro, 0, .i, 0⟩ -- R217
def DS_CONCEALED : Row := ⟨0x10, 0, 1, 0, 32, .ro, 0, .i, 0⟩ -- R217
def DS_PIC_CNT_CONCEALED : Row := ⟨0x14, 0, 1, 0, 16, .ro, 0, .i, 0⟩ -- R217
def DS_PIC_CNT_TAINTED : Row := ⟨0x14, 0, 1, 16, 16, .ro, 0, .i, 0⟩ -- R217
def DS_MISMATCH : Row := ⟨0x18, 0, 1, 0, 16, .ro, 0, .i, 0⟩ -- R217
def DS_UNAVAIL : Row := ⟨0x18, 0, 1, 16, 16, .ro, 0, .i, 0⟩ -- R217
def DS_LAST_ERR_POC : Row := ⟨0x1c, 0, 1, 0, 32, .ro, 0, .i, 0⟩ -- R217
def DS_LAST_ERR_TB_LO : Row := ⟨0x20, 0, 1, 0, 32, .ro, 0, .i, 1⟩ -- R217
def DS_LAST_ERR_TB_HI : Row := ⟨0x24, 0, 1, 0, 32, .ro, 0, .i, 2⟩ -- R217
def FS_RX_PKTS : Row := ⟨0x30, 0, 1, 0, 32, .ro, 0, .i, 0⟩ -- R217
def FS_RX_LOST : Row := ⟨0x34, 0, 1, 0, 16, .ro, 0, .i, 0⟩ -- R217
def FS_RX_LATE : Row := ⟨0x34, 0, 1, 16, 16, .ro, 0, .i, 0⟩ -- R217
def FS_RX_FMT : Row := ⟨0x38, 0, 1, 0, 16, .ro, 0, .i, 0⟩ -- R217
def FS_RX_REPAIRED : Row := ⟨0x38, 0, 1, 16, 16, .ro, 0, .i, 0⟩ -- R217
def FS_RX_HOLD_MAX : Row := ⟨0x3c, 0, 1, 0, 16, .ro, 0, .i, 0⟩ -- R217

def rows_ds_0 : List Row := [DS_STATE_ACTIVE, DS_STATE_USE, DS_STATE_TAINTED, DS_STATE_ENGINE, DS_STATE_LAST_ERR, DS_PICS, DS_ERR_SYNTAX, DS_ERR_SEMANTIC, DS_ERR2_TRANSPORT, DS_ERR2_BOUND, DS_CONCEALED, DS_PIC_CNT_CONCEALED, DS_PIC_CNT_TAINTED, DS_MISMATCH, DS_UNAVAIL, DS_LAST_ERR_POC, DS_LAST_ERR_TB_LO, DS_LAST_ERR_TB_HI, FS_RX_PKTS, FS_RX_LOST]
def rows_ds_1 : List Row := [FS_RX_LATE, FS_RX_FMT, FS_RX_REPAIRED, FS_RX_HOLD_MAX]
/-- The fields of table `ds`. -/
def rows_ds : List Row := rows_ds_0 ++ rows_ds_1

def RA_MODE_MODE : Row := ⟨0x100, 0, 1, 0, 2, .rw, 0, .e, 0⟩ -- R240
def RA_MODE_REQ_TEST : Row := ⟨0x100, 0, 1, 2, 1, .w1s, 0, .e, 0⟩ -- R240
def RA_CFG_TOKEN_HOLD : Row := ⟨0x104, 0, 1, 0, 16, .rw, 0x7d0, .e, 0⟩ -- R240
def RA_CFG_FREE_LOW : Row := ⟨0x104, 0, 1, 16, 11, .rw, 0x100, .e, 0⟩ -- R240
def RA_PREEMPT_PREEMPT_NS : Row := ⟨0x108, 0, 1, 0, 16, .rw, 0x64, .e, 0⟩ -- R240
def RA_PREEMPT_GW_TIMEOUT : Row := ⟨0x108, 0, 1, 16, 16, .rw, 0x64, .e, 0⟩ -- R240
def RA_OCC_USED : Row := ⟨0x10c, 0, 1, 0, 13, .ro, 0, .i, 0⟩ -- R240
def RA_OCC_QUAR : Row := ⟨0x10c, 0, 1, 16, 13, .ro, 0, .i, 0⟩ -- R240
def RA_RDY_DEPTH : Row := ⟨0x110, 4, 8, 0, 13, .ro, 0, .i, 0⟩ -- R240
def RA_DLY_DEPTH : Row := ⟨0x130, 4, 4, 0, 11, .ro, 0, .i, 0⟩ -- R240
def RA_DLY_SPILL : Row := ⟨0x130, 4, 4, 16, 16, .ro, 0, .i, 0⟩ -- R240
def RA_CNT_BP_MEDIA : Row := ⟨0x140, 0, 1, 0, 16, .ro, 0, .i, 0⟩ -- R240
def RA_CNT_BP_FW : Row := ⟨0x140, 0, 1, 16, 16, .ro, 0, .i, 0⟩ -- R240
def RA_CNT_TAG_STALE : Row := ⟨0x144, 0, 1, 0, 16, .ro, 0, .i, 0⟩ -- R240
def RA_CNT_TAG_REUSE : Row := ⟨0x144, 0, 1, 16, 16, .ro, 0, .i, 0⟩ -- R240
def RA_CNT_TOK_ORPHAN : Row := ⟨0x148, 0, 1, 0, 11, .ro, 0, .i, 0⟩ -- R240
def RA_CNT_TOK_STALE_CH : Row := ⟨0x148, 0, 1, 11, 11, .ro, 0, .i, 0⟩ -- R240
def RA_CNT_TOK_BAD : Row := ⟨0x148, 0, 1, 22, 10, .ro, 0, .i, 0⟩ -- R240
def RA_CNT_LATE_LATE : Row := ⟨0x14c, 0, 1, 0, 16, .ro, 0, .i, 0⟩ -- R240
def RA_CNT_PRE_PREEMPT : Row := ⟨0x150, 0, 1, 0, 16, .ro, 0, .i, 0⟩ -- R240
def RA_CNT_PRE_CANCEL : Row := ⟨0x150, 0, 1, 16, 16, .ro, 0, .i, 0⟩ -- R240
def RA_BP_MAX_US : Row := ⟨0x154, 0, 1, 0, 16, .ro, 0, .i, 0⟩ -- R240
def RA_POST : Row := ⟨0x200, 4, 16, 0, 32, .rw, 0, .e, 0⟩ -- R240
def RA_POST_CMD_GO : Row := ⟨0x240, 0, 1, 0, 1, .wo, 0, .e, 0⟩ -- R240
def RA_POST_CMD_FIXED : Row := ⟨0x240, 0, 1, 1, 1, .wo, 0, .e, 0⟩ -- R240
def RA_POST_CMD_INDEX : Row := ⟨0x240, 0, 1, 4, 12, .wo, 0, .e, 0⟩ -- R240
def RA_POST_RESULT_INDEX : Row := ⟨0x244, 0, 1, 0, 12, .ro, 0, .i, 0⟩ -- R240
def RA_POST_RESULT_GEN : Row := ⟨0x244, 0, 1, 12, 8, .ro, 0, .i, 0⟩ -- R240
def RA_POST_RESULT_CODE : Row := ⟨0x244, 0, 1, 20, 8, .ro, 0, .i, 0⟩ -- R240
def RA_POST_RESULT_BUSY : Row := ⟨0x244, 0, 1, 31, 1, .ro, 0, .i, 0⟩ -- R240
def RA_TOKEN : Row := ⟨0x280, 4, 4, 0, 32, .rw, 0, .e, 0⟩ -- R240
def RA_TOKEN_CMD_GO : Row := ⟨0x290, 0, 1, 0, 1, .wo, 0, .e, 0⟩ -- R240

def rows_rachis_0 : List Row := [RA_MODE_MODE, RA_MODE_REQ_TEST, RA_CFG_TOKEN_HOLD, RA_CFG_FREE_LOW, RA_PREEMPT_PREEMPT_NS, RA_PREEMPT_GW_TIMEOUT, RA_OCC_USED, RA_OCC_QUAR, RA_RDY_DEPTH, RA_DLY_DEPTH, RA_DLY_SPILL, RA_CNT_BP_MEDIA, RA_CNT_BP_FW, RA_CNT_TAG_STALE, RA_CNT_TAG_REUSE, RA_CNT_TOK_ORPHAN, RA_CNT_TOK_STALE_CH, RA_CNT_TOK_BAD, RA_CNT_LATE_LATE, RA_CNT_PRE_PREEMPT]
def rows_rachis_1 : List Row := [RA_CNT_PRE_CANCEL, RA_BP_MAX_US, RA_POST, RA_POST_CMD_GO, RA_POST_CMD_FIXED, RA_POST_CMD_INDEX, RA_POST_RESULT_INDEX, RA_POST_RESULT_GEN, RA_POST_RESULT_CODE, RA_POST_RESULT_BUSY, RA_TOKEN, RA_TOKEN_CMD_GO]
/-- The fields of table `rachis`. -/
def rows_rachis : List Row := rows_rachis_0 ++ rows_rachis_1

def OS_SEQ_NEXT_SEQ : Row := ⟨0, 0, 1, 0, 16, .ro, 0, .i, 0⟩ -- R247
def OS_SEQ_MAX_PKTS : Row := ⟨0, 0, 1, 16, 16, .ro, 0, .i, 0⟩ -- R247
def OS_SSRC : Row := ⟨4, 0, 1, 0, 32, .ro, 0, .i, 0⟩ -- R247
def OS_PKTS : Row := ⟨8, 0, 1, 0, 32, .ro, 0, .i, 0⟩ -- R247
def OS_TS_CC : Row := ⟨0xc, 0, 1, 0, 4, .ro, 0, .i, 0⟩ -- R247

/-- The fields of table `os`. -/
def rows_os : List Row := [OS_SEQ_NEXT_SEQ, OS_SEQ_MAX_PKTS, OS_SSRC, OS_PKTS, OS_TS_CC]

def FL_CTRL_CHANNEL : Row := ⟨0, 0, 1, 0, 7, .rws, 0, .f, 0⟩ -- R248
def FL_CTRL_RENDITION : Row := ⟨0, 0, 1, 7, 3, .rws, 0, .f, 0⟩ -- R248
def FL_CTRL_IPV6 : Row := ⟨0, 0, 1, 11, 1, .rws, 0, .f, 0⟩ -- R248
def FL_CTRL_PORT : Row := ⟨0, 0, 1, 12, 4, .rws, 0, .f, 0⟩ -- R248
def FL_CTRL_SERVICE : Row := ⟨0, 0, 1, 16, 8, .rws, 0, .f, 0⟩ -- R248
def FL_CTRL_RT : Row := ⟨0, 0, 1, 24, 1, .rws, 0, .f, 0⟩ -- R248
def FL_CTRL_VLAN_EN : Row := ⟨0, 0, 1, 25, 1, .rws, 0, .f, 0⟩ -- R248
def FL_CTRL_UDP_CSUM : Row := ⟨0, 0, 1, 26, 1, .rws, 0, .f, 0⟩ -- R248
def FL_PAIR_FLOW : Row := ⟨4, 0, 1, 0, 11, .rws, 0, .f, 0⟩ -- R248
def FL_PAIR_EN : Row := ⟨4, 0, 1, 15, 1, .rws, 0, .f, 0⟩ -- R248
def FL_DMAC_LO : Row := ⟨8, 0, 1, 0, 32, .rws, 0, .f, 1⟩ -- R248
def FL_DMAC_HI : Row := ⟨0xc, 0, 1, 0, 16, .rws, 0, .f, 2⟩ -- R248
def FL_DST : Row := ⟨0x10, 4, 4, 0, 32, .rws, 0, .f, 3⟩ -- R248
def FL_UDP_SRC_PORT : Row := ⟨0x20, 0, 1, 0, 16, .rws, 0, .f, 0⟩ -- R248
def FL_UDP_DST_PORT : Row := ⟨0x20, 0, 1, 16, 16, .rws, 0, .f, 0⟩ -- R248
def FL_L3_DSCP : Row := ⟨0x24, 0, 1, 0, 6, .rws, 0, .f, 0⟩ -- R248
def FL_L3_TTL : Row := ⟨0x24, 0, 1, 8, 8, .rws, 0x40, .f, 0⟩ -- R248
def FL_L3_VID : Row := ⟨0x24, 0, 1, 16, 12, .rws, 0, .f, 0⟩ -- R248
def FL_L3_PCP : Row := ⟨0x24, 0, 1, 28, 3, .rws, 0, .f, 0⟩ -- R248
def FL_DEP_OFS_NS : Row := ⟨0x38, 0, 1, 16, 16, .ro, 0, .i, 0⟩ -- R248
def FL_STATE_STATE : Row := ⟨0x3c, 0, 1, 0, 2, .ro, 0, .i, 0⟩ -- R248
def FL_STATE_GEN : Row := ⟨0x3c, 0, 1, 8, 8, .ro, 0, .i, 0⟩ -- R248
def FL_STATE_DROP : Row := ⟨0x3c, 0, 1, 16, 16, .ro, 0, .i, 0⟩ -- R248

def rows_flow_0 : List Row := [FL_CTRL_CHANNEL, FL_CTRL_RENDITION, FL_CTRL_IPV6, FL_CTRL_PORT, FL_CTRL_SERVICE, FL_CTRL_RT, FL_CTRL_VLAN_EN, FL_CTRL_UDP_CSUM, FL_PAIR_FLOW, FL_PAIR_EN, FL_DMAC_LO, FL_DMAC_HI, FL_DST, FL_UDP_SRC_PORT, FL_UDP_DST_PORT, FL_L3_DSCP, FL_L3_TTL, FL_L3_VID, FL_L3_PCP, FL_DEP_OFS_NS]
def rows_flow_1 : List Row := [FL_STATE_STATE, FL_STATE_GEN, FL_STATE_DROP]
/-- The fields of table `flow`. -/
def rows_flow : List Row := rows_flow_0 ++ rows_flow_1

def FL_CMD_OP : Row := ⟨0x100, 0, 1, 0, 4, .wo, 0, .g, 0⟩ -- R249
def FL_CMD_FLOW : Row := ⟨0x100, 0, 1, 8, 11, .wo, 0, .g, 0⟩ -- R249
def FL_CMD_GEN : Row := ⟨0x100, 0, 1, 24, 8, .wo, 0, .g, 0⟩ -- R249
def FL_RESULT_CODE : Row := ⟨0x104, 0, 1, 0, 8, .ro, 0, .i, 0⟩ -- R249
def FL_RESULT_FLOW : Row := ⟨0x104, 0, 1, 8, 11, .ro, 0, .i, 0⟩ -- R249
def FL_RESULT_DONE : Row := ⟨0x104, 0, 1, 19, 1, .w1c, 0, .i, 0⟩ -- R249
def FL_RESULT_GEN : Row := ⟨0x104, 0, 1, 24, 8, .ro, 0, .i, 0⟩ -- R249
def EG_CNT_STALE : Row := ⟨0x108, 0, 1, 0, 16, .ro, 0, .i, 0⟩ -- R249
def EG_CNT_LATE : Row := ⟨0x108, 0, 1, 16, 16, .ro, 0, .i, 0⟩ -- R249
def OBS_CTRL_EN : Row := ⟨0x10c, 0, 1, 0, 1, .rw, 0, .g, 0⟩ -- R249
def OBS_CTRL_DEPTH_UNIT : Row := ⟨0x10c, 0, 1, 1, 2, .rw, 0, .g, 0⟩ -- R249
def OBS_CTRL_DELAY_UNIT : Row := ⟨0x10c, 0, 1, 3, 2, .rw, 0, .g, 0⟩ -- R249
def OBS_CTRL_PERIOD_US : Row := ⟨0x10c, 0, 1, 16, 16, .rw, 0x3e8, .g, 0⟩ -- R249
def OBS_EPOCH_SAMPLES : Row := ⟨0x110, 0, 1, 0, 16, .rw, 0x3e8, .g, 0⟩ -- R249
def OBS_BASE_LO : Row := ⟨0x114, 0, 1, 0, 32, .rw, 0, .g, 1⟩ -- R249
def OBS_BASE_HI : Row := ⟨0x118, 0, 1, 0, 32, .rw, 0, .g, 2⟩ -- R249

/-- The fields of table `egress`. -/
def rows_egress : List Row := [FL_CMD_OP, FL_CMD_FLOW, FL_CMD_GEN, FL_RESULT_CODE, FL_RESULT_FLOW, FL_RESULT_DONE, FL_RESULT_GEN, EG_CNT_STALE, EG_CNT_LATE, OBS_CTRL_EN, OBS_CTRL_DEPTH_UNIT, OBS_CTRL_DELAY_UNIT, OBS_CTRL_PERIOD_US, OBS_EPOCH_SAMPLES, OBS_BASE_LO, OBS_BASE_HI]

def SH_CIR : Row := ⟨0x28, 0, 1, 0, 32, .rws, 0, .f, 0⟩ -- R252
def SH_PIR : Row := ⟨0x2c, 0, 1, 0, 32, .rws, 0, .f, 0⟩ -- R252
def SH_CBS : Row := ⟨0x30, 0, 1, 0, 32, .rws, 0, .f, 0⟩ -- R252
def SH_PBS : Row := ⟨0x34, 0, 1, 0, 32, .rws, 0, .f, 0⟩ -- R252
def SH_WEIGHT : Row := ⟨0x38, 0, 1, 0, 8, .rws, 1, .f, 0⟩ -- R252

/-- The fields of table `shaper`. -/
def rows_shaper : List Row := [SH_CIR, SH_PIR, SH_CBS, SH_PBS, SH_WEIGHT]

def SV_CTRL_PORT : Row := ⟨0, 0, 1, 0, 4, .rws, 0, .f, 0⟩ -- R253
def SV_CTRL_RT : Row := ⟨0, 0, 1, 4, 1, .rws, 0, .f, 0⟩ -- R253

/-- The fields of table `service`. -/
def rows_service : List Row := [SV_CTRL_PORT, SV_CTRL_RT]

def PT_MAC_LO : Row := ⟨0, 0, 1, 0, 32, .rws, 0, .f, 1⟩ -- R253
def PT_MAC_HI : Row := ⟨4, 0, 1, 0, 16, .rws, 0, .f, 2⟩ -- R253
def PT_IPV4 : Row := ⟨8, 0, 1, 0, 32, .rws, 0, .f, 0⟩ -- R253
def PT_IPV6 : Row := ⟨0x10, 4, 4, 0, 32, .rws, 0, .f, 3⟩ -- R253
def PT_PACE_CYCLE_US : Row := ⟨0x20, 0, 1, 0, 14, .rws, 0x3e8, .f, 0⟩ -- R253

/-- The fields of table `port`. -/
def rows_port : List Row := [PT_MAC_LO, PT_MAC_HI, PT_IPV4, PT_IPV6, PT_PACE_CYCLE_US]

def PL_CIR : Row := ⟨0, 0, 1, 0, 32, .rw, 0, .e, 0⟩ -- R260
def PL_PIR : Row := ⟨4, 0, 1, 0, 32, .rw, 0, .e, 0⟩ -- R260
def PL_CBS : Row := ⟨8, 0, 1, 0, 32, .rw, 0, .e, 0⟩ -- R260
def PL_PBS : Row := ⟨0xc, 0, 1, 0, 32, .rw, 0, .e, 0⟩ -- R260
def PL_GREEN : Row := ⟨0x10, 0, 1, 0, 32, .ro, 0, .i, 0⟩ -- R260
def PL_YELLOW : Row := ⟨0x14, 0, 1, 0, 32, .ro, 0, .i, 0⟩ -- R260
def PL_RED : Row := ⟨0x18, 0, 1, 0, 32, .ro, 0, .i, 0⟩ -- R260
def PL_CTRL_YELLOW_DROP : Row := ⟨0x1c, 0, 1, 0, 1, .rw, 1, .e, 0⟩ -- R260

/-- The fields of table `policer`. -/
def rows_policer : List Row := [PL_CIR, PL_PIR, PL_CBS, PL_PBS, PL_GREEN, PL_YELLOW, PL_RED, PL_CTRL_YELLOW_DROP]

def CU_ARB_N : Row := ⟨0x100, 0x10, 8, 0, 7, .rws, 0x10, .d, 0⟩ -- R298
def CU_GRANTS : Row := ⟨0x104, 0x10, 8, 0, 32, .ro, 0, .i, 0⟩ -- R298
def CU_ARB_LW : Row := ⟨0x108, 0x10, 8, 0, 16, .ro, 0, .i, 0⟩ -- R298
def CU_ARB_CANCEL : Row := ⟨0x108, 0x10, 8, 16, 16, .ro, 0, .i, 0⟩ -- R298
def CU_WQ_WEIGHT : Row := ⟨0x200, 4, 256, 0, 8, .rws, 0, .d, 0⟩ -- R298
def CU_WQ_QUOTA : Row := ⟨0x200, 4, 256, 8, 8, .rws, 0, .d, 0⟩ -- R298
def CU_WQ_PRIV : Row := ⟨0x200, 4, 256, 16, 1, .ro, 0, .i, 0⟩ -- R298
def CU_REQ_REVOKE : Row := ⟨0x600, 4, 32, 0, 16, .ro, 0, .i, 0⟩ -- R298
def CU_REQ_SIDEBAND : Row := ⟨0x600, 4, 32, 16, 1, .ro, 0, .i, 0⟩ -- R298
def CU_REQ_FENCED : Row := ⟨0x600, 4, 32, 17, 1, .ro, 0, .i, 0⟩ -- R298

/-- The fields of table `culm`. -/
def rows_culm : List Row := [CU_ARB_N, CU_GRANTS, CU_ARB_LW, CU_ARB_CANCEL, CU_WQ_WEIGHT, CU_WQ_QUOTA, CU_WQ_PRIV, CU_REQ_REVOKE, CU_REQ_SIDEBAND, CU_REQ_FENCED]

def ST_ARB_N : Row := ⟨0x100, 0x20, 3, 0, 7, .rws, 0x10, .d, 0⟩ -- R303
def ST_ARB_CTL_QUOTA : Row := ⟨0x100, 0x20, 3, 8, 8, .rws, 0x40, .d, 0⟩ -- R303
def ST_WGT_RT : Row := ⟨0x104, 0x20, 3, 0, 8, .rws, 0x60, .d, 0⟩ -- R303
def ST_WGT_MIR : Row := ⟨0x104, 0x20, 3, 8, 8, .rws, 0x20, .d, 0⟩ -- R303
def ST_WGT_CTL : Row := ⟨0x104, 0x20, 3, 16, 8, .rws, 0x20, .d, 0⟩ -- R303
def ST_WGT_BULK : Row := ⟨0x104, 0x20, 3, 24, 8, .rws, 0x60, .d, 0⟩ -- R303
def ST_CNT_LW : Row := ⟨0x108, 0x20, 3, 0, 16, .ro, 0, .i, 0⟩ -- R303
def ST_CNT_QMASK : Row := ⟨0x108, 0x20, 3, 16, 16, .ro, 0, .i, 0⟩ -- R303
def ST_CRD : Row := ⟨0x10c, 0x20, 3, 0, 32, .ro, 0, .i, 0⟩ -- R303
def ST_RSV_SLOTS : Row := ⟨0x110, 0x20, 3, 0, 10, .ro, 0, .i, 0⟩ -- R303

/-- The fields of table `stolon`. -/
def rows_stolon : List Row := [ST_ARB_N, ST_ARB_CTL_QUOTA, ST_WGT_RT, ST_WGT_MIR, ST_WGT_CTL, ST_WGT_BULK, ST_CNT_LW, ST_CNT_QMASK, ST_CRD, ST_RSV_SLOTS]

def MP_CFG_RATE : Row := ⟨0x100, 0, 1, 0, 2, .ro, 0, .i, 0⟩ -- R323
def MP_CFG_DENSITY : Row := ⟨0x100, 0, 1, 2, 2, .ro, 0, .i, 0⟩ -- R323
def MP_CFG_RANKS : Row := ⟨0x100, 0, 1, 4, 1, .ro, 0, .i, 0⟩ -- R323
def MP_CAP_DATA_MIB : Row := ⟨0x104, 0, 1, 0, 16, .ro, 0, .i, 0⟩ -- R323
def MP_STATE_STATE : Row := ⟨0x108, 0, 1, 0, 3, .ro, 1, .i, 0⟩ -- R323
def MP_STATE_LAST_RESULT : Row := ⟨0x108, 0, 1, 8, 8, .ro, 0, .i, 0⟩ -- R323
def MP_PAGE_IDLE_CLKS : Row := ⟨0x10c, 0, 1, 0, 10, .rws, 0x40, .d, 0⟩ -- R323
def MP_WQ_HI : Row := ⟨0x110, 0, 1, 0, 7, .rws, 0x30, .d, 0⟩ -- R323
def MP_WQ_LO : Row := ⟨0x110, 0, 1, 8, 7, .rws, 0x10, .d, 0⟩ -- R323
def MP_PANIC_ON : Row := ⟨0x114, 4, 4, 0, 7, .rws, 0x4b, .d, 0⟩ -- R323
def MP_PANIC_OFF : Row := ⟨0x114, 4, 4, 8, 7, .rws, 0x32, .d, 0⟩ -- R323
def MP_REF_OWED : Row := ⟨0x124, 0, 1, 0, 4, .ro, 0, .i, 0⟩ -- R323
def MP_REF_MULT : Row := ⟨0x124, 0, 1, 4, 3, .ro, 1, .i, 0⟩ -- R323
def MP_REF_FORCED : Row := ⟨0x124, 0, 1, 16, 16, .ro, 0, .i, 0⟩ -- R323
def MP_SCRUB_PERIOD_H : Row := ⟨0x128, 0, 1, 0, 8, .rw, 0x18, .d, 0⟩ -- R323
def MP_ECC_CE : Row := ⟨0x12c, 0, 1, 0, 32, .ro, 0, .i, 0⟩ -- R323
def MP_ECC_UE_UE : Row := ⟨0x130, 0, 1, 0, 16, .ro, 0, .i, 0⟩ -- R323
def MP_ECC_UE_SCRUB_FIX : Row := ⟨0x130, 0, 1, 16, 16, .ro, 0, .i, 0⟩ -- R323
def MP_ECC_ADDR_LO : Row := ⟨0x134, 0, 1, 0, 32, .ro, 0, .i, 1⟩ -- R323
def MP_ECC_ADDR_HI : Row := ⟨0x138, 0, 1, 0, 32, .ro, 0, .i, 2⟩ -- R323
def MP_ECC_INFO_SYMBOL : Row := ⟨0x13c, 0, 1, 0, 6, .ro, 0, .i, 0⟩ -- R323
def MP_ECC_INFO_CHAN : Row := ⟨0x13c, 0, 1, 6, 2, .ro, 0, .i, 0⟩ -- R323
def MP_ECC_INFO_UE : Row := ⟨0x13c, 0, 1, 8, 1, .ro, 0, .i, 0⟩ -- R323
def MP_ECC_INFO_SCRUB : Row := ⟨0x13c, 0, 1, 9, 1, .ro, 0, .i, 0⟩ -- R323
def MP_ECC_INFO_RANK : Row := ⟨0x13c, 0, 1, 10, 1, .ro, 0, .i, 0⟩ -- R323
def MP_ECC_INFO_VALID : Row := ⟨0x13c, 0, 1, 31, 1, .w1c, 0, .i, 0⟩ -- R323
def MP_RETRAIN_CE_THR : Row := ⟨0x140, 0, 1, 0, 16, .rw, 0x100, .d, 0⟩ -- R323
def MP_TRAIN_COUNT : Row := ⟨0x144, 0, 1, 0, 16, .ro, 0, .i, 0⟩ -- R323
def MP_TRAIN_TEMP : Row := ⟨0x144, 0, 1, 16, 8, .ro, 0, .i, 0⟩ -- R323
def MP_TRAIN_MARGIN : Row := ⟨0x144, 0, 1, 24, 8, .ro, 0, .i, 0⟩ -- R323
def MP_INJ_SYMBOLS : Row := ⟨0x148, 0, 1, 0, 2, .rw, 0, .d, 0⟩ -- R481
def MP_INJ_FIRST : Row := ⟨0x148, 0, 1, 8, 6, .rw, 0, .d, 0⟩ -- R481
def MP_INJ_ARM : Row := ⟨0x148, 0, 1, 31, 1, .w1s, 0, .d, 0⟩ -- R481
def MP_INJ_ADDR_LO : Row := ⟨0x14c, 0, 1, 0, 32, .rw, 0, .d, 1⟩ -- R481
def MP_INJ_ADDR_HI : Row := ⟨0x150, 0, 1, 0, 32, .rw, 0, .d, 2⟩ -- R481

def rows_memport_0 : List Row := [MP_CFG_RATE, MP_CFG_DENSITY, MP_CFG_RANKS, MP_CAP_DATA_MIB, MP_STATE_STATE, MP_STATE_LAST_RESULT, MP_PAGE_IDLE_CLKS, MP_WQ_HI, MP_WQ_LO, MP_PANIC_ON, MP_PANIC_OFF, MP_REF_OWED, MP_REF_MULT, MP_REF_FORCED, MP_SCRUB_PERIOD_H, MP_ECC_CE, MP_ECC_UE_UE, MP_ECC_UE_SCRUB_FIX, MP_ECC_ADDR_LO, MP_ECC_ADDR_HI]
def rows_memport_1 : List Row := [MP_ECC_INFO_SYMBOL, MP_ECC_INFO_CHAN, MP_ECC_INFO_UE, MP_ECC_INFO_SCRUB, MP_ECC_INFO_RANK, MP_ECC_INFO_VALID, MP_RETRAIN_CE_THR, MP_TRAIN_COUNT, MP_TRAIN_TEMP, MP_TRAIN_MARGIN, MP_INJ_SYMBOLS, MP_INJ_FIRST, MP_INJ_ARM, MP_INJ_ADDR_LO, MP_INJ_ADDR_HI]
/-- The fields of table `memport`. -/
def rows_memport : List Row := rows_memport_0 ++ rows_memport_1

def LN_CFG_MODE : Row := ⟨0x100, 0, 1, 0, 3, .rws, 0, .c, 0⟩ -- R347
def LN_CFG_RATE : Row := ⟨0x100, 0, 1, 4, 4, .rws, 0, .c, 0⟩ -- R347
def LN_CFG_SDI_FRAC : Row := ⟨0x100, 0, 1, 8, 1, .rws, 0, .c, 0⟩ -- R347
def LN_CFG_TX_INV : Row := ⟨0x100, 0, 1, 9, 1, .rws, 0, .c, 0⟩ -- R347
def LN_CFG_RX_INV : Row := ⟨0x100, 0, 1, 10, 1, .rws, 0, .c, 0⟩ -- R347
def LN_CFG_SDI_LOOP : Row := ⟨0x100, 0, 1, 11, 1, .rws, 0, .c, 0⟩ -- R347
def LN_CFG_PSTATE_NAP : Row := ⟨0x100, 0, 1, 12, 1, .rws, 0, .c, 0⟩ -- R347
def LN_PORT_WIDTH : Row := ⟨0x104, 0, 1, 0, 2, .rws, 0, .c, 0⟩ -- R347
def LN_PORT_FEC : Row := ⟨0x104, 0, 1, 2, 1, .rws, 1, .c, 0⟩ -- R347
def LN_PORT_ADMIN_UP : Row := ⟨0x104, 0, 1, 3, 1, .rws, 0, .c, 0⟩ -- R347
def LN_PORT_PARTNER_EN : Row := ⟨0x104, 0, 1, 4, 1, .rws, 0, .c, 0⟩ -- R347
def LN_PORT_PARTNER : Row := ⟨0x104, 0, 1, 8, 4, .rws, 0, .c, 0⟩ -- R347
def LN_PORT_UP_HOLD : Row := ⟨0x104, 0, 1, 16, 8, .rws, 0xa, .c, 0⟩ -- R347
def LN_DET_LOS_MV : Row := ⟨0x108, 0, 1, 0, 8, .rws, 0x50, .c, 0⟩ -- R347
def LN_STAT_LOS : Row := ⟨0x10c, 0, 1, 0, 1, .ro, 0, .i, 0⟩ -- R347
def LN_STAT_LOL : Row := ⟨0x10c, 0, 1, 1, 1, .ro, 0, .i, 0⟩ -- R347
def LN_STAT_SYNC : Row := ⟨0x10c, 0, 1, 2, 1, .ro, 0, .i, 0⟩ -- R347
def LN_STAT_PORT_UP : Row := ⟨0x10c, 0, 1, 3, 1, .ro, 0, .i, 0⟩ -- R347
def LN_STAT_KILLED : Row := ⟨0x10c, 0, 1, 4, 1, .ro, 0, .i, 0⟩ -- R347
def LN_STAT_EQ_DEFAULT : Row := ⟨0x10c, 0, 1, 5, 1, .ro, 0, .i, 0⟩ -- R347
def LN_STAT_ADAPT_LIMIT : Row := ⟨0x10c, 0, 1, 6, 1, .ro, 0, .i, 0⟩ -- R347
def LN_STAT_PSTATE : Row := ⟨0x10c, 0, 1, 8, 2, .ro, 3, .i, 0⟩ -- R347
def LN_STAT_SDI_RATE : Row := ⟨0x10c, 0, 1, 12, 4, .ro, 0, .i, 0⟩ -- R347
def LN_STAT_SDI_FRAC : Row := ⟨0x10c, 0, 1, 16, 1, .ro, 0, .i, 0⟩ -- R347
def LN_STAT_LL_WIDTH : Row := ⟨0x10c, 0, 1, 17, 2, .ro, 3, .i, 0⟩ -- R347
def LN_STAT_PPM : Row := ⟨0x10c, 0, 1, 24, 8, .ro, 0, .i, 0⟩ -- R347
def LN_EQ : Row := ⟨0x110, 0, 1, 0, 32, .ro, 0, .i, 0⟩ -- R347
def LN_DFE : Row := ⟨0x114, 0, 1, 0, 32, .ro, 0, .i, 0⟩ -- R347
def LN_CNT0_LOS : Row := ⟨0x118, 0, 1, 0, 16, .ro, 0, .i, 0⟩ -- R347
def LN_CNT0_LOL : Row := ⟨0x118, 0, 1, 16, 16, .ro, 0, .i, 0⟩ -- R347
def LN_CNT1_SYNC_LOSS : Row := ⟨0x11c, 0, 1, 0, 16, .ro, 0, .i, 0⟩ -- R347
def LN_CNT1_CODE_ERR : Row := ⟨0x11c, 0, 1, 16, 16, .ro, 0, .i, 0⟩ -- R347
def LN_FEC_CE : Row := ⟨0x120, 0, 1, 0, 32, .ro, 0, .i, 0⟩ -- R347
def LN_MOVE_MOVED : Row := ⟨0x124, 0, 1, 0, 16, .ro, 0, .i, 0⟩ -- R347
def LN_MOVE_SUSP : Row := ⟨0x124, 0, 1, 16, 16, .ro, 0, .i, 0⟩ -- R347
def LN_SDI_PID : Row := ⟨0x128, 0, 1, 0, 32, .ro, 0, .i, 0⟩ -- R347
def LN_LL_FALLBACKS : Row := ⟨0x12c, 0, 1, 0, 16, .ro, 0, .i, 0⟩ -- R347
def LN_LL_ABORTS : Row := ⟨0x12c, 0, 1, 16, 16, .ro, 0, .i, 0⟩ -- R347
def LL_MAP_CHANNEL : Row := ⟨0x140, 4, 8, 0, 7, .rws, 0, .f, 0⟩ -- R347
def LL_MAP_RENDITION : Row := ⟨0x140, 4, 8, 7, 3, .rws, 0, .f, 0⟩ -- R347
def LL_MAP_EN : Row := ⟨0x140, 4, 8, 10, 1, .rws, 0, .f, 0⟩ -- R347
def LL_MAP_STREAM_ID : Row := ⟨0x140, 4, 8, 16, 8, .rws, 0, .f, 0⟩ -- R347
def LL_MAP_GEN : Row := ⟨0x140, 4, 8, 24, 8, .rws, 0, .f, 0⟩ -- R347
def PTL_ING : Row := ⟨0x180, 8, 3, 0, 32, .rw, 0, .c, 0⟩ -- R386
def PTL_EGR : Row := ⟨0x184, 8, 3, 0, 32, .rw, 0, .c, 0⟩ -- R386
def PTL_ASYM : Row := ⟨0x198, 0, 1, 0, 32, .rw, 0, .c, 0⟩ -- R386

def rows_lane_0 : List Row := [LN_CFG_MODE, LN_CFG_RATE, LN_CFG_SDI_FRAC, LN_CFG_TX_INV, LN_CFG_RX_INV, LN_CFG_SDI_LOOP, LN_CFG_PSTATE_NAP, LN_PORT_WIDTH, LN_PORT_FEC, LN_PORT_ADMIN_UP, LN_PORT_PARTNER_EN, LN_PORT_PARTNER, LN_PORT_UP_HOLD, LN_DET_LOS_MV, LN_STAT_LOS, LN_STAT_LOL, LN_STAT_SYNC, LN_STAT_PORT_UP, LN_STAT_KILLED, LN_STAT_EQ_DEFAULT]
def rows_lane_1 : List Row := [LN_STAT_ADAPT_LIMIT, LN_STAT_PSTATE, LN_STAT_SDI_RATE, LN_STAT_SDI_FRAC, LN_STAT_LL_WIDTH, LN_STAT_PPM, LN_EQ, LN_DFE, LN_CNT0_LOS, LN_CNT0_LOL, LN_CNT1_SYNC_LOSS, LN_CNT1_CODE_ERR, LN_FEC_CE, LN_MOVE_MOVED, LN_MOVE_SUSP, LN_SDI_PID, LN_LL_FALLBACKS, LN_LL_ABORTS, LL_MAP_CHANNEL, LL_MAP_RENDITION]
def rows_lane_2 : List Row := [LL_MAP_EN, LL_MAP_STREAM_ID, LL_MAP_GEN, PTL_ING, PTL_EGR, PTL_ASYM]
/-- The fields of table `lane`. -/
def rows_lane : List Row := rows_lane_0 ++ rows_lane_1 ++ rows_lane_2

def REFSEL_TOL_FREQ_TOL : Row := ⟨0x100, 0, 1, 0, 17, .rws, 0x7d0, .b, 0⟩ -- R365
def REFSEL_CFG_QL_MIN : Row := ⟨0x104, 0, 1, 0, 4, .rws, 0xe, .b, 0⟩ -- R365
def REFSEL_CFG_SSM_OPT : Row := ⟨0x104, 0, 1, 4, 1, .rws, 0, .b, 0⟩ -- R365
def REFSEL_CFG_NONREV : Row := ⟨0x104, 0, 1, 5, 1, .rws, 0, .b, 0⟩ -- R365
def REFSEL_STATE_SELECTED : Row := ⟨0x108, 0, 1, 0, 4, .ro, 0xf, .i, 0⟩ -- R365
def REFSEL_STATE_QL : Row := ⟨0x108, 0, 1, 4, 4, .ro, 0xf, .i, 0⟩ -- R365
def REFSEL_DISAGREE_A : Row := ⟨0x10c, 0, 1, 0, 4, .ro, 0xf, .i, 0⟩ -- R365
def REFSEL_DISAGREE_B : Row := ⟨0x10c, 0, 1, 4, 4, .ro, 0xf, .i, 0⟩ -- R365
def REFSEL_DISAGREE_THIRD : Row := ⟨0x10c, 0, 1, 8, 4, .ro, 0xf, .i, 0⟩ -- R365
def REFSEL_DISAGREE_ACTIVE : Row := ⟨0x10c, 0, 1, 12, 1, .ro, 0, .i, 0⟩ -- R365
def REFSEL_DISAGREE_MODEL : Row := ⟨0x10c, 0, 1, 13, 2, .ro, 0, .i, 0⟩ -- R365

/-- The fields of table `refsel`. -/
def rows_refsel : List Row := [REFSEL_TOL_FREQ_TOL, REFSEL_CFG_QL_MIN, REFSEL_CFG_SSM_OPT, REFSEL_CFG_NONREV, REFSEL_STATE_SELECTED, REFSEL_STATE_QL, REFSEL_DISAGREE_A, REFSEL_DISAGREE_B, REFSEL_DISAGREE_THIRD, REFSEL_DISAGREE_ACTIVE, REFSEL_DISAGREE_MODEL]

def REF_CTRL_EN : Row := ⟨0, 0, 1, 0, 1, .rws, 0, .b, 0⟩ -- R365
def REF_CTRL_TYPE : Row := ⟨0, 0, 1, 1, 3, .rws, 0, .b, 0⟩ -- R365
def REF_CTRL_SRC : Row := ⟨0, 0, 1, 4, 7, .rws, 0, .b, 0⟩ -- R365
def REF_CTRL_PIN_KIND : Row := ⟨0, 0, 1, 12, 2, .rws, 0, .b, 0⟩ -- R365
def REF_CTRL_FRAME_RATE : Row := ⟨0, 0, 1, 14, 4, .rws, 0, .b, 0⟩ -- R365
def REF_CTRL_PRIO : Row := ⟨0, 0, 1, 20, 4, .rws, 0, .b, 0⟩ -- R365
def REF_CTRL_QL_SW : Row := ⟨0, 0, 1, 24, 4, .rws, 0xf, .b, 0⟩ -- R365
def REF_STAT_STATE : Row := ⟨4, 0, 1, 0, 3, .ro, 0, .i, 0⟩ -- R365
def REF_STAT_ALARM : Row := ⟨4, 0, 1, 3, 1, .ro, 0, .i, 0⟩ -- R365
def REF_STAT_SUSPECT : Row := ⟨4, 0, 1, 4, 1, .ro, 0, .i, 0⟩ -- R365
def REF_STAT_QL : Row := ⟨4, 0, 1, 5, 4, .ro, 0xf, .i, 0⟩ -- R365
def REF_STAT_SELECTED : Row := ⟨4, 0, 1, 9, 1, .ro, 0, .i, 0⟩ -- R365
def REF_STAT_MODEL : Row := ⟨4, 0, 1, 10, 1, .ro, 0, .i, 0⟩ -- R365
def REF_STAT_QUAL_LEFT : Row := ⟨4, 0, 1, 16, 16, .ro, 0, .i, 0⟩ -- R365
def REF_Y1 : Row := ⟨8, 0, 1, 0, 32, .ro, 0, .i, 0⟩ -- R365
def REF_Y10 : Row := ⟨0xc, 0, 1, 0, 32, .ro, 0, .i, 0⟩ -- R365
def REF_Y100 : Row := ⟨0x10, 0, 1, 0, 32, .ro, 0, .i, 0⟩ -- R365
def REF_CNT_DISQ : Row := ⟨0x14, 0, 1, 0, 16, .ro, 0, .i, 0⟩ -- R365
def REF_CNT_LOST : Row := ⟨0x14, 0, 1, 16, 16, .ro, 0, .i, 0⟩ -- R365
def REF_RAW_CODE : Row := ⟨0x18, 0, 1, 0, 8, .ro, 0, .i, 0⟩ -- R365
def REF_RAW_ACC : Row := ⟨0x18, 0, 1, 8, 8, .ro, 0, .i, 0⟩ -- R365

def rows_refent_0 : List Row := [REF_CTRL_EN, REF_CTRL_TYPE, REF_CTRL_SRC, REF_CTRL_PIN_KIND, REF_CTRL_FRAME_RATE, REF_CTRL_PRIO, REF_CTRL_QL_SW, REF_STAT_STATE, REF_STAT_ALARM, REF_STAT_SUSPECT, REF_STAT_QL, REF_STAT_SELECTED, REF_STAT_MODEL, REF_STAT_QUAL_LEFT, REF_Y1, REF_Y10, REF_Y100, REF_CNT_DISQ, REF_CNT_LOST, REF_RAW_CODE]
def rows_refent_1 : List Row := [REF_RAW_ACC]
/-- The fields of table `refent`. -/
def rows_refent : List Row := rows_refent_0 ++ rows_refent_1

def DPLL_CTRL_MODE : Row := ⟨0x100, 0, 1, 0, 2, .rws, 0, .b, 0⟩ -- R366
def DPLL_CTRL_FORCE_REF : Row := ⟨0x100, 0, 1, 4, 4, .rws, 0, .b, 0⟩ -- R366
def DPLL_BW_BW : Row := ⟨0x104, 0, 1, 0, 20, .rws, 0x3e8, .b, 0⟩ -- R366
def DPLL_PULLIN_NS_PER_S : Row := ⟨0x108, 0, 1, 0, 10, .rws, 0, .b, 0⟩ -- R366
def DPLL_HOLD_AVG_S : Row := ⟨0x10c, 0, 1, 0, 16, .rws, 0x12c, .b, 0⟩ -- R366
def DPLL_HOLD_GUARD_S : Row := ⟨0x10c, 0, 1, 16, 8, .rws, 0xa, .b, 0⟩ -- R366
def DCO_FOFS : Row := ⟨0x110, 0, 1, 0, 32, .rw, 0, .b, 0⟩ -- R366
def DPLL_STATUS_STATE : Row := ⟨0x114, 0, 1, 0, 3, .ro, 0, .i, 0⟩ -- R366
def DPLL_STATUS_HOLD_VALID : Row := ⟨0x114, 0, 1, 3, 1, .ro, 0, .i, 0⟩ -- R366
def DPLL_STATUS_ETH_CLAMP : Row := ⟨0x114, 0, 1, 4, 1, .ro, 0, .i, 0⟩ -- R366
def DPLL_STATUS_REF : Row := ⟨0x114, 0, 1, 8, 4, .ro, 0xf, .i, 0⟩ -- R366
def DPLL_STATUS_HOLD_S : Row := ⟨0x114, 0, 1, 16, 16, .ro, 0, .i, 0⟩ -- R366
def DPLL_FREQ : Row := ⟨0x118, 0, 1, 0, 32, .ro, 0, .i, 0⟩ -- R366
def DPLL_HOLD_FREQ : Row := ⟨0x11c, 0, 1, 0, 32, .ro, 0, .i, 0⟩ -- R366
def DPLL_ABSORB : Row := ⟨0x120, 0, 1, 0, 32, .ro, 0, .i, 0⟩ -- R366
def DPLL_CNT_SWITCHES : Row := ⟨0x124, 0, 1, 0, 16, .ro, 0, .i, 0⟩ -- R366
def DPLL_CNT_HOLDOVERS : Row := ⟨0x124, 0, 1, 16, 16, .ro, 0, .i, 0⟩ -- R366

/-- The fields of table `dpll`. -/
def rows_dpll : List Row := [DPLL_CTRL_MODE, DPLL_CTRL_FORCE_REF, DPLL_BW_BW, DPLL_PULLIN_NS_PER_S, DPLL_HOLD_AVG_S, DPLL_HOLD_GUARD_S, DCO_FOFS, DPLL_STATUS_STATE, DPLL_STATUS_HOLD_VALID, DPLL_STATUS_ETH_CLAMP, DPLL_STATUS_REF, DPLL_STATUS_HOLD_S, DPLL_FREQ, DPLL_HOLD_FREQ, DPLL_ABSORB, DPLL_CNT_SWITCHES, DPLL_CNT_HOLDOVERS]

def TB_NOW0_FRAC : Row := ⟨0x100, 0, 1, 0, 16, .ro, 0, .i, 0⟩ -- R384
def TB_NOW0_NS_LO : Row := ⟨0x100, 0, 1, 16, 16, .ro, 0, .i, 0⟩ -- R384
def TB_NOW1_NS_HI : Row := ⟨0x104, 0, 1, 0, 16, .ro, 0, .i, 0⟩ -- R384
def TB_NOW1_SEC_LO : Row := ⟨0x104, 0, 1, 16, 16, .ro, 0, .i, 0⟩ -- R384
def TB_NOW2_SEC_HI : Row := ⟨0x108, 0, 1, 0, 32, .ro, 0, .i, 0⟩ -- R384
def TB_STATUS_VALID : Row := ⟨0x10c, 0, 1, 0, 1, .ro, 0, .i, 0⟩ -- R384
def TB_STATUS_MASTER : Row := ⟨0x10c, 0, 1, 1, 1, .ro, 0, .i, 0⟩ -- R384
def TB_STATUS_SLAVE_OK : Row := ⟨0x10c, 0, 1, 2, 1, .ro, 0, .i, 0⟩ -- R384
def TB_STATUS_SLEWING : Row := ⟨0x10c, 0, 1, 3, 1, .ro, 0, .i, 0⟩ -- R384
def TB_STATUS_REPHASED : Row := ⟨0x10c, 0, 1, 4, 1, .ro, 0, .i, 0⟩ -- R384
def TB_INC_LO : Row := ⟨0x110, 0, 1, 0, 32, .rw, 0, .b, 1⟩ -- R384
def TB_INC_HI : Row := ⟨0x114, 0, 1, 0, 2, .rw, 2, .b, 2⟩ -- R384
def TB_OFS_MASTER : Row := ⟨0x118, 0, 1, 0, 32, .ro, 0, .i, 0⟩ -- R384
def TB_LOAD : Row := ⟨0x120, 4, 3, 0, 32, .rw, 0, .b, 3⟩ -- R384
def TB_ADJ_OP : Row := ⟨0x130, 0, 1, 0, 2, .wo, 0, .b, 0⟩ -- R384
def TB_ADJ_RESULT : Row := ⟨0x130, 0, 1, 16, 8, .ro, 0, .i, 0⟩ -- R384
def TB_ADJ_PENDING : Row := ⟨0x130, 0, 1, 24, 1, .ro, 0, .i, 0⟩ -- R384
def TB_CTRL_SLEW_PPM : Row := ⟨0x134, 0, 1, 0, 7, .rw, 0xa, .b, 0⟩ -- R384

/-- The fields of table `timebase`. -/
def rows_timebase : List Row := [TB_NOW0_FRAC, TB_NOW0_NS_LO, TB_NOW1_NS_HI, TB_NOW1_SEC_LO, TB_NOW2_SEC_HI, TB_STATUS_VALID, TB_STATUS_MASTER, TB_STATUS_SLAVE_OK, TB_STATUS_SLEWING, TB_STATUS_REPHASED, TB_INC_LO, TB_INC_HI, TB_OFS_MASTER, TB_LOAD, TB_ADJ_OP, TB_ADJ_RESULT, TB_ADJ_PENDING, TB_CTRL_SLEW_PPM]

def PTP_SERVO_MODE : Row := ⟨0x100, 0, 1, 0, 1, .rw, 0, .b, 0⟩ -- R385
def PTP_SERVO_BW : Row := ⟨0x100, 0, 1, 8, 8, .rw, 0xa, .b, 0⟩ -- R385
def PTP_STEP_THR_US : Row := ⟨0x104, 0, 1, 0, 32, .rw, 0x3e8, .b, 0⟩ -- R385
def PTP_UTC_UTC_OFS_SW : Row := ⟨0x108, 0, 1, 0, 8, .rw, 0x25, .b, 0⟩ -- R385
def PTP_UTC_UTC_OFS : Row := ⟨0x108, 0, 1, 8, 8, .ro, 0x25, .i, 0⟩ -- R385
def PTP_UTC_FROM_PTP : Row := ⟨0x108, 0, 1, 16, 1, .ro, 0, .i, 0⟩ -- R385
def CH_RHO_LO : Row := ⟨0x800, 8, 128, 0, 32, .ro, 0, .b, 1⟩ -- R385
def CH_RHO_HI : Row := ⟨0x804, 8, 128, 0, 32, .ro, 0, .b, 2⟩ -- R385

/-- The fields of table `ptp`. -/
def rows_ptp : List Row := [PTP_SERVO_MODE, PTP_SERVO_BW, PTP_STEP_THR_US, PTP_UTC_UTC_OFS_SW, PTP_UTC_UTC_OFS, PTP_UTC_FROM_PTP, CH_RHO_LO, CH_RHO_HI]

def PTP_CTRL_EN : Row := ⟨0, 0, 1, 0, 1, .rw, 0, .b, 0⟩ -- R385
def PTP_CTRL_ROLE : Row := ⟨0, 0, 1, 1, 1, .rw, 0, .b, 0⟩ -- R385
def PTP_CTRL_PROFILE : Row := ⟨0, 0, 1, 2, 2, .rw, 1, .b, 0⟩ -- R385
def PTP_CTRL_TRANSPORT : Row := ⟨0, 0, 1, 4, 2, .rw, 0, .b, 0⟩ -- R385
def PTP_CTRL_ONE_STEP : Row := ⟨0, 0, 1, 6, 1, .rw, 0, .b, 0⟩ -- R385
def PTP_CTRL_DELAY_UNICAST : Row := ⟨0, 0, 1, 7, 1, .rw, 0, .b, 0⟩ -- R385
def PTP_CTRL_PORT : Row := ⟨0, 0, 1, 8, 7, .rw, 0, .b, 0⟩ -- R385
def PTP_CFG_DOMAIN : Row := ⟨4, 0, 1, 0, 8, .rw, 0x7f, .b, 0⟩ -- R385
def PTP_CFG_LOG_SYNC : Row := ⟨4, 0, 1, 8, 4, .rw, 0xd, .b, 0⟩ -- R385
def PTP_CFG_LOG_DELAY : Row := ⟨4, 0, 1, 12, 4, .rw, 0xd, .b, 0⟩ -- R385
def PTP_CFG_LOG_ANN : Row := ⟨4, 0, 1, 16, 4, .rw, 0xe, .b, 0⟩ -- R385
def PTP_CFG_ANN_TO : Row := ⟨4, 0, 1, 20, 4, .rw, 3, .b, 0⟩ -- R385
def PTP_PRIO_PRIORITY1 : Row := ⟨8, 0, 1, 0, 8, .rw, 0x80, .b, 0⟩ -- R385
def PTP_PRIO_PRIORITY2 : Row := ⟨8, 0, 1, 8, 8, .rw, 0x80, .b, 0⟩ -- R385
def PTP_STAT_STATE : Row := ⟨0xc, 0, 1, 0, 4, .ro, 3, .i, 0⟩ -- R385
def PTP_STAT_GM_CLASS : Row := ⟨0xc, 0, 1, 8, 8, .ro, 0xff, .i, 0⟩ -- R385
def PTP_STAT_GM_ACC : Row := ⟨0xc, 0, 1, 16, 8, .ro, 0xfe, .i, 0⟩ -- R385
def PTP_GMID_LO : Row := ⟨0x10, 0, 1, 0, 32, .ro, 0, .i, 1⟩ -- R385
def PTP_GMID_HI : Row := ⟨0x14, 0, 1, 0, 32, .ro, 0, .i, 2⟩ -- R385
def PTP_OFS_LO : Row := ⟨0x18, 0, 1, 0, 32, .ro, 0, .i, 1⟩ -- R385
def PTP_OFS_HI : Row := ⟨0x1c, 0, 1, 0, 32, .ro, 0, .i, 2⟩ -- R385
def PTP_MPD_LO : Row := ⟨0x20, 0, 1, 0, 32, .ro, 0, .i, 1⟩ -- R385
def PTP_MPD_HI : Row := ⟨0x24, 0, 1, 0, 32, .ro, 0, .i, 2⟩ -- R385
def PTP_SEQ : Row := ⟨0x28, 0, 1, 0, 32, .ro, 0, .i, 0⟩ -- R385
def PTP_CNT_TS_MISS : Row := ⟨0x2c, 0, 1, 0, 16, .ro, 0, .i, 0⟩ -- R385
def PTP_CNT_GM_CHANGES : Row := ⟨0x2c, 0, 1, 16, 16, .ro, 0, .i, 0⟩ -- R385

def rows_ptpinst_0 : List Row := [PTP_CTRL_EN, PTP_CTRL_ROLE, PTP_CTRL_PROFILE, PTP_CTRL_TRANSPORT, PTP_CTRL_ONE_STEP, PTP_CTRL_DELAY_UNICAST, PTP_CTRL_PORT, PTP_CFG_DOMAIN, PTP_CFG_LOG_SYNC, PTP_CFG_LOG_DELAY, PTP_CFG_LOG_ANN, PTP_CFG_ANN_TO, PTP_PRIO_PRIORITY1, PTP_PRIO_PRIORITY2, PTP_STAT_STATE, PTP_STAT_GM_CLASS, PTP_STAT_GM_ACC, PTP_GMID_LO, PTP_GMID_HI, PTP_OFS_LO]
def rows_ptpinst_1 : List Row := [PTP_OFS_HI, PTP_MPD_LO, PTP_MPD_HI, PTP_SEQ, PTP_CNT_TS_MISS, PTP_CNT_GM_CHANGES]
/-- The fields of table `ptpinst`. -/
def rows_ptpinst : List Row := rows_ptpinst_0 ++ rows_ptpinst_1

def PAGE_ID_TYPE : Row := ⟨0, 0, 1, 0, 16, .ro, 0, .i, 0⟩ -- R393
def PAGE_ID_INSTANCE : Row := ⟨0, 0, 1, 16, 8, .ro, 0, .i, 0⟩ -- R393
def PAGE_ID_REGION : Row := ⟨0, 0, 1, 24, 4, .ro, 0, .i, 0⟩ -- R393
def PAGE_VER_LAYOUT : Row := ⟨4, 0, 1, 0, 16, .ro, 0x100, .i, 0⟩ -- R393
def PAGE_VER_SILICON : Row := ⟨4, 0, 1, 16, 8, .ro, 0xa1, .i, 0⟩ -- R393
def CTRL_ENABLE : Row := ⟨8, 0, 1, 0, 1, .rw, 1, .e, 0⟩ -- R393
def CTRL_SOFT_RESET : Row := ⟨8, 0, 1, 1, 1, .w1s, 0, .i, 0⟩ -- R393
def STATUS_ENABLED : Row := ⟨0xc, 0, 1, 0, 1, .ro, 1, .i, 0⟩ -- R393
def STATUS_FENCED : Row := ⟨0xc, 0, 1, 1, 1, .ro, 0, .e, 0⟩ -- R393
def STATUS_SUSPECT : Row := ⟨0xc, 0, 1, 2, 1, .ro, 0, .i, 0⟩ -- R393
def STATUS_RESETTING : Row := ⟨0xc, 0, 1, 3, 1, .ro, 0, .i, 0⟩ -- R393
def STATUS_PENDING : Row := ⟨0xc, 0, 1, 4, 1, .ro, 0, .i, 0⟩ -- R393
def EV_RAW : Row := ⟨0x10, 0, 1, 0, 32, .w1c, 0, .l, 0⟩ -- R393
def EV_MASK : Row := ⟨0x14, 0, 1, 0, 32, .rw, 0x7fffffff, .g, 0⟩ -- R393
def EV_PEND : Row := ⟨0x18, 0, 1, 0, 32, .ro, 0, .i, 0⟩ -- R393
def EV_INJECT : Row := ⟨0x1c, 0, 1, 0, 32, .wo, 0, .i, 0⟩ -- R393
def ERR_CODE_CODE : Row := ⟨0x20, 0, 1, 0, 8, .ro, 0, .l, 0⟩ -- R393
def ERR_CODE_SEVERITY : Row := ⟨0x20, 0, 1, 8, 3, .ro, 0, .l, 0⟩ -- R393
def ERR_INFO : Row := ⟨0x24, 0, 1, 0, 32, .ro, 0, .l, 0⟩ -- R393
def ERR_COUNT : Row := ⟨0x28, 0, 1, 0, 32, .ro, 0, .i, 0⟩ -- R393
def SHADOW_CTRL_COMMIT : Row := ⟨0x30, 0, 1, 0, 1, .wo, 0, .i, 0⟩ -- R393
def SHADOW_CTRL_COMMIT_AT : Row := ⟨0x30, 0, 1, 1, 3, .wo, 0, .i, 0⟩ -- R393
def SHADOW_CTRL_CHANNEL : Row := ⟨0x30, 0, 1, 8, 7, .wo, 0, .i, 0⟩ -- R393
def SHADOW_CTRL_ID : Row := ⟨0x30, 0, 1, 24, 8, .wo, 0, .i, 0⟩ -- R393
def COMMIT_RESULT_CODE : Row := ⟨0x34, 0, 1, 0, 8, .ro, 0, .i, 0⟩ -- R393
def COMMIT_RESULT_PENDING : Row := ⟨0x34, 0, 1, 8, 1, .ro, 0, .i, 0⟩ -- R393
def COMMIT_RESULT_ID : Row := ⟨0x34, 0, 1, 16, 8, .ro, 0, .i, 0⟩ -- R393
def COMMIT_RESULT_APPLIED_ID : Row := ⟨0x34, 0, 1, 24, 8, .ro, 0, .i, 0⟩ -- R393
def LOCK_OWNER : Row := ⟨0x38, 0, 1, 0, 8, .ro, 0, .j, 0⟩ -- R393
def LOCK_ACQUIRE : Row := ⟨0x38, 0, 1, 8, 1, .w1s, 0, .j, 0⟩ -- R393
def LOCK_RELEASE : Row := ⟨0x38, 0, 1, 9, 1, .w1s, 0, .j, 0⟩ -- R393
def LOCK_RECOVER : Row := ⟨0x38, 0, 1, 10, 1, .w1s, 0, .j, 0⟩ -- R393
def LOCK_BROKEN : Row := ⟨0x38, 0, 1, 11, 1, .ro, 0, .j, 0⟩ -- R393
def LOCK_RESULT : Row := ⟨0x38, 0, 1, 12, 4, .ro, 0, .j, 0⟩ -- R393
def LOCK_LAST_OWNER : Row := ⟨0x38, 0, 1, 16, 8, .ro, 0, .j, 0⟩ -- R393
def LOCK_LEASE_LEASE_MS : Row := ⟨0x3c, 0, 1, 0, 16, .rw, 0x3e8, .j, 0⟩ -- R393
def LOCK_LEASE_REMAIN_MS : Row := ⟨0x3c, 0, 1, 16, 16, .ro, 0, .j, 0⟩ -- R393
def COMMIT_TB_LO : Row := ⟨0x40, 0, 1, 0, 32, .rws, 0, .h, 1⟩ -- R393
def COMMIT_TB_HI : Row := ⟨0x44, 0, 1, 0, 32, .rws, 0, .h, 2⟩ -- R393

def rows_common_0 : List Row := [PAGE_ID_TYPE, PAGE_ID_INSTANCE, PAGE_ID_REGION, PAGE_VER_LAYOUT, PAGE_VER_SILICON, CTRL_ENABLE, CTRL_SOFT_RESET, STATUS_ENABLED, STATUS_FENCED, STATUS_SUSPECT, STATUS_RESETTING, STATUS_PENDING, EV_RAW, EV_MASK, EV_PEND, EV_INJECT, ERR_CODE_CODE, ERR_CODE_SEVERITY, ERR_INFO, ERR_COUNT]
def rows_common_1 : List Row := [SHADOW_CTRL_COMMIT, SHADOW_CTRL_COMMIT_AT, SHADOW_CTRL_CHANNEL, SHADOW_CTRL_ID, COMMIT_RESULT_CODE, COMMIT_RESULT_PENDING, COMMIT_RESULT_ID, COMMIT_RESULT_APPLIED_ID, LOCK_OWNER, LOCK_ACQUIRE, LOCK_RELEASE, LOCK_RECOVER, LOCK_BROKEN, LOCK_RESULT, LOCK_LAST_OWNER, LOCK_LEASE_LEASE_MS, LOCK_LEASE_REMAIN_MS, COMMIT_TB_LO, COMMIT_TB_HI]
/-- The fields of table `common`. -/
def rows_common : List Row := rows_common_0 ++ rows_common_1

def EVT_PEND : Row := ⟨0x100, 4, 16, 0, 32, .ro, 0, .i, 0⟩ -- R409
def EVT_SUM : Row := ⟨0x140, 0, 1, 0, 9, .ro, 0, .i, 0⟩ -- R409
def EVT_PIN_PIN_EN : Row := ⟨0x144, 0, 1, 0, 9, .rw, 0x1ff, .g, 0⟩ -- R409
def EVT_PIN_LEVEL : Row := ⟨0x144, 0, 1, 16, 1, .ro, 0, .i, 0⟩ -- R409
def EVR_CTRL_EN : Row := ⟨0x180, 0x40, 2, 0, 1, .rw, 0, .g, 0⟩ -- R409
def EVR_BASE_LO : Row := ⟨0x184, 0x40, 2, 0, 32, .rw, 0, .g, 1⟩ -- R409
def EVR_BASE_HI : Row := ⟨0x188, 0x40, 2, 0, 32, .rw, 0, .g, 2⟩ -- R409
def EVR_SIZE : Row := ⟨0x18c, 0x40, 2, 0, 32, .rw, 0x10000, .g, 0⟩ -- R409
def EVR_WR : Row := ⟨0x190, 0x40, 2, 0, 32, .ro, 0, .i, 0⟩ -- R409
def EVR_RD : Row := ⟨0x194, 0x40, 2, 0, 32, .rw, 0, .g, 0⟩ -- R409
def EVR_LOST : Row := ⟨0x198, 0x40, 2, 0, 32, .ro, 0, .i, 0⟩ -- R409
def EVT_ARM_LO : Row := ⟨0x19c, 0x40, 2, 0, 32, .w1s, 0xffffffff, .g, 0⟩ -- R409
def EVT_ARM_HI : Row := ⟨0x1a0, 0x40, 2, 0, 32, .w1s, 0xffffffff, .g, 0⟩ -- R409
def EVT_VEC_VEC_A : Row := ⟨0x400, 4, 512, 0, 6, .rw, 0, .g, 0⟩ -- R409
def EVT_VEC_EN_A : Row := ⟨0x400, 4, 512, 6, 1, .rw, 0, .g, 0⟩ -- R409
def EVT_VEC_VEC_B : Row := ⟨0x400, 4, 512, 8, 6, .rw, 0, .g, 0⟩ -- R409
def EVT_VEC_EN_B : Row := ⟨0x400, 4, 512, 14, 1, .rw, 0, .g, 0⟩ -- R409

/-- The fields of table `evtree`. -/
def rows_evtree : List Row := [EVT_PEND, EVT_SUM, EVT_PIN_PIN_EN, EVT_PIN_LEVEL, EVR_CTRL_EN, EVR_BASE_LO, EVR_BASE_HI, EVR_SIZE, EVR_WR, EVR_RD, EVR_LOST, EVT_ARM_LO, EVT_ARM_HI, EVT_VEC_VEC_A, EVT_VEC_EN_A, EVT_VEC_VEC_B, EVT_VEC_EN_B]

def ID : Row := ⟨0, 0, 1, 0, 16, .ro, 0xc104, .i, 0⟩ -- R415
def VERSION : Row := ⟨1, 0, 1, 0, 16, .ro, 0x207, .i, 0⟩ -- R415
def STATUS_READY : Row := ⟨2, 0, 1, 0, 1, .ro, 0, .i, 0⟩ -- R415
def STATUS_BUSY : Row := ⟨2, 0, 1, 1, 1, .ro, 0, .i, 0⟩ -- R415
def STATUS_REF_LOCK : Row := ⟨2, 0, 1, 2, 1, .ro, 0, .i, 0⟩ -- R415
def STATUS_LL_UP : Row := ⟨2, 0, 1, 3, 1, .ro, 0, .i, 0⟩ -- R415
def STATUS_CH_RUN : Row := ⟨2, 0, 1, 4, 4, .ro, 0, .i, 0⟩ -- R415
def ALARM_IN_LOSS : Row := ⟨3, 0, 1, 0, 4, .rc, 0, .i, 0⟩ -- R415
def ALARM_HARD : Row := ⟨3, 0, 1, 4, 4, .rc, 0, .i, 0⟩ -- R415
def ALARM_LL_DOWN : Row := ⟨3, 0, 1, 8, 1, .rc, 0, .i, 0⟩ -- R415
def ALARM_REF_LOST : Row := ⟨3, 0, 1, 9, 1, .rc, 0, .i, 0⟩ -- R415
def IRQ_EN : Row := ⟨4, 0, 1, 0, 3, .rw, 0, .i, 0⟩ -- R415
def IRQ_STAT_BOOT : Row := ⟨5, 0, 1, 0, 1, .rc, 0, .i, 0⟩ -- R415
def IRQ_STAT_CMD_DONE : Row := ⟨5, 0, 1, 1, 1, .rc, 0, .i, 0⟩ -- R415
def IRQ_STAT_ALARM : Row := ⟨5, 0, 1, 2, 1, .rc, 0, .i, 0⟩ -- R415
def CMD_OP : Row := ⟨8, 0, 1, 0, 4, .wo, 0, .i, 0⟩ -- R415
def CMD_CHANNEL : Row := ⟨8, 0, 1, 4, 2, .wo, 0, .i, 0⟩ -- R415
def CMD_RESULT_CODE : Row := ⟨9, 0, 1, 0, 8, .ro, 0, .i, 0⟩ -- R415
def SOFT_RST : Row := ⟨0xf, 0, 1, 0, 16, .wo, 0, .i, 0⟩ -- R415
def GENLOCK_SRC : Row := ⟨0x10, 0, 1, 0, 2, .rw, 0, .i, 0⟩ -- R415
def GENLOCK_RATE : Row := ⟨0x10, 0, 1, 2, 4, .rw, 6, .i, 0⟩ -- R415
def LL_CTRL_EN : Row := ⟨0x20, 0, 1, 0, 1, .rw, 0, .i, 0⟩ -- R415
def LL_ERR : Row := ⟨0x21, 0, 1, 0, 16, .rc, 0, .i, 0⟩ -- R415
def ASI_CTRL_EN : Row := ⟨0x22, 0, 1, 0, 4, .rw, 0, .i, 0⟩ -- R415

def rows_cl4_0 : List Row := [ID, VERSION, STATUS_READY, STATUS_BUSY, STATUS_REF_LOCK, STATUS_LL_UP, STATUS_CH_RUN, ALARM_IN_LOSS, ALARM_HARD, ALARM_LL_DOWN, ALARM_REF_LOST, IRQ_EN, IRQ_STAT_BOOT, IRQ_STAT_CMD_DONE, IRQ_STAT_ALARM, CMD_OP, CMD_CHANNEL, CMD_RESULT_CODE, SOFT_RST, GENLOCK_SRC]
def rows_cl4_1 : List Row := [GENLOCK_RATE, LL_CTRL_EN, LL_ERR, ASI_CTRL_EN]
/-- The fields of table `cl4`. -/
def rows_cl4 : List Row := rows_cl4_0 ++ rows_cl4_1

def CH_IN_FMT : Row := ⟨0, 0, 1, 0, 4, .rw, 7, .i, 0⟩ -- R416
def CH_CODEC_HEVC : Row := ⟨1, 0, 1, 0, 1, .rw, 1, .i, 0⟩ -- R416
def CH_CODEC_BIT10 : Row := ⟨1, 0, 1, 1, 1, .rw, 1, .i, 0⟩ -- R416
def CH_RATE_HI : Row := ⟨2, 0, 1, 0, 16, .rw, 0, .i, 0⟩ -- R416
def CH_RATE_LO : Row := ⟨3, 0, 1, 0, 16, .rw, 0x9c40, .i, 0⟩ -- R416
def CH_VBV_MS : Row := ⟨4, 0, 1, 0, 16, .rw, 0x64, .i, 0⟩ -- R416
def CH_GOP_IDR : Row := ⟨5, 0, 1, 0, 12, .rw, 0x20, .i, 0⟩ -- R416
def CH_GOP_IR : Row := ⟨5, 0, 1, 12, 1, .rw, 0, .i, 0⟩ -- R416
def CH_TS_RATE : Row := ⟨6, 0, 1, 0, 16, .rw, 0x1f4, .i, 0⟩ -- R416
def CH_VPID : Row := ⟨7, 0, 1, 0, 13, .rw, 0x100, .i, 0⟩ -- R416
def CH_PMTPID : Row := ⟨8, 0, 1, 0, 13, .rw, 0x1000, .i, 0⟩ -- R416
def CH_PROG : Row := ⟨9, 0, 1, 0, 16, .rw, 1, .i, 0⟩ -- R416
def CL4CH_CH_STATE_STATE : Row := ⟨0xa, 0, 1, 0, 3, .ro, 0, .i, 0⟩ -- R416
def CH_STATE_VBV_RAISED : Row := ⟨0xa, 0, 1, 3, 1, .ro, 0, .i, 0⟩ -- R416
def CH_CONCEAL : Row := ⟨0x10, 0, 1, 0, 16, .rc, 0, .i, 0⟩ -- R416

/-- The fields of table `cl4ch`. -/
def rows_cl4ch : List Row := [CH_IN_FMT, CH_CODEC_HEVC, CH_CODEC_BIT10, CH_RATE_HI, CH_RATE_LO, CH_VBV_MS, CH_GOP_IDR, CH_GOP_IR, CH_TS_RATE, CH_VPID, CH_PMTPID, CH_PROG, CL4CH_CH_STATE_STATE, CH_STATE_VBV_RAISED, CH_CONCEAL]

def GL_CMD_OP : Row := ⟨0x100, 0, 1, 0, 4, .wo, 0, .i, 0⟩ -- R444
def GL_CMD_TAG : Row := ⟨0x100, 0, 1, 8, 8, .wo, 0, .i, 0⟩ -- R444
def GL_RESULT_CODE : Row := ⟨0x104, 0, 1, 0, 8, .ro, 0, .i, 0⟩ -- R444
def GL_RESULT_TAG : Row := ⟨0x104, 0, 1, 8, 8, .ro, 0, .i, 0⟩ -- R444
def GL_RESULT_DONE : Row := ⟨0x104, 0, 1, 16, 1, .w1c, 0, .i, 0⟩ -- R444
def GL_STATE_FLAGS : Row := ⟨0x108, 0, 1, 0, 6, .ro, 0, .i, 0⟩ -- R444
def GL_STATE_BOOT_COUNT : Row := ⟨0x108, 0, 1, 16, 16, .ro, 0, .i, 0⟩ -- R444
def GL_SVN_FUSED : Row := ⟨0x10c, 0, 1, 0, 24, .ro, 0, .i, 0⟩ -- R444
def GL_BOOT_LEN : Row := ⟨0x110, 0, 1, 0, 32, .rw, 0, .i, 0⟩ -- R444
def GL_BOOT_ADDR_LO : Row := ⟨0x114, 0, 1, 0, 32, .rw, 0, .i, 1⟩ -- R444
def GL_BOOT_ADDR_HI : Row := ⟨0x118, 0, 1, 0, 32, .rw, 0, .i, 2⟩ -- R444
def GL_NONCE : Row := ⟨0x200, 4, 8, 0, 32, .rw, 0, .i, 3⟩ -- R444
def GL_CHAL : Row := ⟨0x220, 4, 8, 0, 32, .ro, 0, .i, 3⟩ -- R444
def GL_TOKEN : Row := ⟨0x400, 4, 128, 0, 32, .rw, 0, .i, 3⟩ -- R444
def GL_REPORT : Row := ⟨0x800, 4, 152, 0, 32, .ro, 0, .i, 3⟩ -- R444
def GL_CERT : Row := ⟨0xc00, 4, 256, 0, 32, .ro, 0, .i, 3⟩ -- R444

/-- The fields of table `glume`. -/
def rows_glume : List Row := [GL_CMD_OP, GL_CMD_TAG, GL_RESULT_CODE, GL_RESULT_TAG, GL_RESULT_DONE, GL_STATE_FLAGS, GL_STATE_BOOT_COUNT, GL_SVN_FUSED, GL_BOOT_LEN, GL_BOOT_ADDR_LO, GL_BOOT_ADDR_HI, GL_NONCE, GL_CHAL, GL_TOKEN, GL_REPORT, GL_CERT]

def RGN_PWR_REQ : Row := ⟨0x108, 0, 1, 0, 2, .rw, 0, .i, 0⟩ -- R458
def RGN_PWR_STATE : Row := ⟨0x108, 0, 1, 4, 2, .ro, 0, .i, 0⟩ -- R458
def RGN_PWR_BUSY : Row := ⟨0x108, 0, 1, 6, 1, .ro, 0, .i, 0⟩ -- R458
def RGN_PWR_RESULT : Row := ⟨0x108, 0, 1, 8, 8, .ro, 0, .i, 0⟩ -- R458
def RGN_RST_CAUSE : Row := ⟨0x10c, 0, 1, 0, 3, .ro, 0, .l, 0⟩ -- R458
def RGN_RST_COUNT : Row := ⟨0x10c, 0, 1, 8, 8, .ro, 0, .l, 0⟩ -- R458
def RGN_TEMP_TJ : Row := ⟨0x110, 0, 1, 0, 12, .ro, 0, .i, 0⟩ -- R466
def RGN_TEMP_TJ_MAX : Row := ⟨0x110, 0, 1, 16, 12, .ro, 0, .l, 0⟩ -- R466
def RGN_SRAM_INJ_SRAM : Row := ⟨0x118, 0, 1, 0, 4, .rw, 0, .d, 0⟩ -- R481
def RGN_SRAM_INJ_UE : Row := ⟨0x118, 0, 1, 8, 1, .rw, 0, .d, 0⟩ -- R481
def RGN_SRAM_INJ_ARM : Row := ⟨0x118, 0, 1, 31, 1, .w1s, 0, .d, 0⟩ -- R481
def RGN_SRAM_CE : Row := ⟨0x114, 0, 1, 0, 16, .ro, 0, .i, 0⟩ -- R481
def RGN_SRAM_UE : Row := ⟨0x114, 0, 1, 16, 16, .ro, 0, .i, 0⟩ -- R481
def EV_SUM_LO : Row := ⟨0x100, 0, 1, 0, 32, .ro, 0, .i, 0⟩ -- R404
def EV_SUM_HI : Row := ⟨0x104, 0, 1, 0, 32, .ro, 0, .i, 0⟩ -- R404

/-- The fields of table `rgn`. -/
def rows_rgn : List Row := [RGN_PWR_REQ, RGN_PWR_STATE, RGN_PWR_BUSY, RGN_PWR_RESULT, RGN_RST_CAUSE, RGN_RST_COUNT, RGN_TEMP_TJ, RGN_TEMP_TJ_MAX, RGN_SRAM_INJ_SRAM, RGN_SRAM_INJ_UE, RGN_SRAM_INJ_ARM, RGN_SRAM_CE, RGN_SRAM_UE, EV_SUM_LO, EV_SUM_HI]

def NVM_STAT_BUSY : Row := ⟨0x100, 0, 1, 0, 1, .ro, 0, .i, 0⟩ -- R485
def NVM_STAT_RECORD : Row := ⟨0x100, 0, 1, 1, 3, .ro, 0, .i, 0⟩ -- R485
def NVM_STAT_DEFER : Row := ⟨0x100, 0, 1, 8, 6, .ro, 0, .i, 0⟩ -- R485
def NVM_LOG_HEAD : Row := ⟨0x104, 0, 1, 0, 32, .ro, 0, .i, 0⟩ -- R485
def NVM_LOG_TAIL : Row := ⟨0x108, 0, 1, 0, 32, .ro, 0, .i, 0⟩ -- R485
def NVM_LOG_LOST : Row := ⟨0x10c, 0, 1, 0, 32, .ro, 0, .l, 0⟩ -- R485
def NVM_LOG_RSEQ : Row := ⟨0x110, 0, 1, 0, 32, .rw, 0, .i, 0⟩ -- R485
def NVM_CMD_OP : Row := ⟨0x114, 0, 1, 0, 4, .wo, 0, .i, 0⟩ -- R485
def NVM_CMD_TAG : Row := ⟨0x114, 0, 1, 8, 8, .wo, 0, .i, 0⟩ -- R485
def NVM_RESULT_CODE : Row := ⟨0x118, 0, 1, 0, 8, .ro, 0, .i, 0⟩ -- R485
def NVM_RESULT_TAG : Row := ⟨0x118, 0, 1, 8, 8, .ro, 0, .i, 0⟩ -- R485
def NVM_RESULT_DONE : Row := ⟨0x118, 0, 1, 16, 1, .w1c, 0, .i, 0⟩ -- R485
def NVM_LOG_ENTRY : Row := ⟨0x400, 4, 16, 0, 32, .ro, 0, .i, 3⟩ -- R485

/-- The fields of table `nvm`. -/
def rows_nvm : List Row := [NVM_STAT_BUSY, NVM_STAT_RECORD, NVM_STAT_DEFER, NVM_LOG_HEAD, NVM_LOG_TAIL, NVM_LOG_LOST, NVM_LOG_RSEQ, NVM_CMD_OP, NVM_CMD_TAG, NVM_RESULT_CODE, NVM_RESULT_TAG, NVM_RESULT_DONE, NVM_LOG_ENTRY]

def HU_SENSE_RAW : Row := ⟨0x100, 0, 1, 0, 12, .ro, 0, .i, 0⟩ -- R485
def HU_SENSE_MV : Row := ⟨0x100, 0, 1, 16, 16, .ro, 0, .i, 0⟩ -- R485
def HU_ENERGY : Row := ⟨0x104, 0, 1, 0, 32, .ro, 0, .i, 0⟩ -- R485
def HU_STAT_PFAIL : Row := ⟨0x108, 0, 1, 0, 1, .ro, 0, .i, 0⟩ -- R485
def HU_STAT_LOW : Row := ⟨0x108, 0, 1, 1, 1, .ro, 0, .i, 0⟩ -- R485
def HU_STAT_PFAIL_COUNT : Row := ⟨0x108, 0, 1, 16, 16, .ro, 0, .l, 0⟩ -- R485

/-- The fields of table `holdup`. -/
def rows_holdup : List Row := [HU_SENSE_RAW, HU_SENSE_MV, HU_ENERGY, HU_STAT_PFAIL, HU_STAT_LOW, HU_STAT_PFAIL_COUNT]

def PA_CTRL_SC_THR : Row := ⟨0x100, 0, 1, 0, 5, .rw, 0xe, .e, 0⟩ -- R112

/-- The fields of table `capture`. -/
def rows_capture : List Row := [PA_CTRL_SC_THR]

def LUT_VALID : Row := ⟨0x100, 0, 1, 0, 32, .rw, 0, .e, 0⟩ -- R106
def LUT_INUSE : Row := ⟨0x104, 0, 1, 0, 32, .ro, 0, .i, 0⟩ -- R106

/-- The fields of table `compose`. -/
def rows_compose : List Row := [LUT_VALID, LUT_INUSE]

def EV_CTRL_FLOOR_ROWS : Row := ⟨0x100, 0, 1, 0, 16, .rw, 1, .e, 0⟩ -- R192

/-- The fields of table `rcu`. -/
def rows_rcu : List Row := [EV_CTRL_FLOOR_ROWS]

def MR_CNT : Row := ⟨0x100, 0, 1, 0, 32, .ro, 0, .i, 0⟩ -- R287
def MR_ERR_LATE : Row := ⟨0x104, 0, 1, 0, 16, .ro, 0, .i, 0⟩ -- R287
def MR_ERR_INVALID : Row := ⟨0x104, 0, 1, 16, 16, .ro, 0, .i, 0⟩ -- R287
def MR_TAKE_RESENT : Row := ⟨0x108, 0, 1, 0, 16, .ro, 0, .i, 0⟩ -- R287
def MR_TAKE_RECODED : Row := ⟨0x108, 0, 1, 16, 16, .ro, 0, .i, 0⟩ -- R287

/-- The fields of table `mirror`. -/
def rows_mirror : List Row := [MR_CNT, MR_ERR_LATE, MR_ERR_INVALID, MR_TAKE_RESENT, MR_TAKE_RECODED]

def PACER_SLOT : Row := ⟨0, 2, 1024, 0, 9, .rws, 0, .f, 0⟩ -- R258

/-- The fields of table `slots`. -/
def rows_slots : List Row := [PACER_SLOT]

def STOLON_SLOT : Row := ⟨0, 1, 1024, 0, 2, .rws, 0, .d, 0⟩ -- R301

/-- The fields of table `stslots`. -/
def rows_stslots : List Row := [STOLON_SLOT]

end Sys2Proof.Machine.Reg
end

