-- ==== Sys2Proof/Machine/Addr.lean ====
section
/-! DEFINITION. The BAR0 address map (R25, R391): page bases, table windows, event sources, and the search for
the fields that lie at an address. The windows whose entries are live only in a channel's lead region are kept
under one base of their own, so that an entry does not move with its lead region. -/

namespace Sys2Proof.Machine

/-- Chip page `j`. -/
def chipPage (j : Nat) : Nat := j * 0x1000

/-- Region `r` (R391). -/
def regBase (r : Nat) : Nat := 0x04000000 * (r + 1)

/-- Block page `ix` of region `r` (R25). -/
def blk (r ix : Nat) : Nat := regBase r + ix * 0x1000

def pSHM : Nat := 0
def pGLUME : Nat := 0x1000
def pDPLL : Nat := 0x2000
def pREFSEL : Nat := 0x3000
def pPTP : Nat := 0x4000
def pNVM : Nat := 0x5000
def pHOLDUP : Nat := 0x6000
def pCL4 : Nat := 0x7000
def pFUSE : Nat := 0x8000
def pEVTREE : Nat := 0x9000

def ixRGN : Nat := 0
def ixRACHIS : Nat := 1
def ixCULM : Nat := 2
def ixMEMPORT : Nat := 3
def ixCE : Nat := 8
def ixDE : Nat := 0x10
def ixCAPTURE : Nat := 0x12
def ixCOMPOSE : Nat := 0x13
def ixSCALER : Nat := 0x14
def ixRCU : Nat := 0x16
def ixEGRESS : Nat := 0x17
def ixPOLICER : Nat := 0x18
def ixSTOLON : Nat := 0x19
def ixAWN : Nat := 0x1A
def ixTIMEBASE : Nat := 0x1B
def ixMIRROR : Nat := 0x1C
def ixLANE : Nat := 0x20
def ixCTL : Nat := 0x30

/-- The base under which the channel windows are kept, whatever region leads the channel. -/
def winBase : Nat := regBase 15

/-- HOST_B's own copy of the per-port registers of SHM (R389). -/
def hostBPage : Nat := regBase 16

/-! The windows of R391: channel `c`, its layer `l` and its rendition `rd`; decoder slot, flow, service, port, policer, pacer table,
Stolon table and colour-chain set of region `r`. An index wraps at the number of its entries, so no window reaches another one. -/
def wCHSTAT (c : Nat) : Nat := winBase + 0x01000000 + c % 128 * 0x40
def wCMP (c : Nat) : Nat := winBase + 0x01004000 + c % 128 * 0x400
def wLY (c l : Nat) : Nat := winBase + 0x01004000 + c % 128 * 0x400 + l % 8 * 0x40
def wLIVE (c rd : Nat) : Nat := winBase + 0x01030000 + (c % 128 * 8 + rd % 8) * 0x40
def wROI (c : Nat) : Nat := winBase + 0x01040000 + c % 128 * 0x200
def wRCS (c rd : Nat) : Nat := winBase + 0x01050000 + (c % 128 * 8 + rd % 8) * 0x40
def wDS (r slot : Nat) : Nat := regBase r + 0x01060000 + slot % 2048 * 0x40
def wFLOW (r f : Nat) : Nat := regBase r + 0x01080000 + f % 2048 * 0x40
def wSV (r s : Nat) : Nat := regBase r + 0x010A0000 + s % 256 * 0x40
def wPT (r p : Nat) : Nat := regBase r + 0x010A4000 + p % 16 * 0x40
def wPL (r e : Nat) : Nat := regBase r + 0x010A8000 + e % 256 * 0x20
def wOS (c rd : Nat) : Nat := winBase + 0x010B0000 + (c % 128 * 8 + rd % 8) * 0x10
def wPACE (r p : Nat) : Nat := regBase r + 0x010C0000 + p % 16 * 0x800
def wSTS (r p : Nat) : Nat := regBase r + 0x010D0000 + p % 4 * 0x400
def wCHAIN (r s : Nat) : Nat := regBase r + 0x01100000 + s % 32 * 0x80000
/-- Layer `l` of the staging window (R86). -/
def stLY (l : Nat) : Nat := 0x440 + l * 0x40
/-- Rendition `rd` of the staging window (R117). -/
def stRN (rd : Nat) : Nat := 0x680 + rd * 0x100
/-- REFSEL entry `e` (R365) and PTP instance `n` (R385). -/
def pREF (e : Nat) : Nat := pREFSEL + 0x200 + e * 0x20
def pPTPI (n : Nat) : Nat := pPTP + 0x200 + n * 0x40

/-- The page of global lane or port `g`. -/
def lanePage (g : Nat) : Nat := blk (g / 16) (ixLANE + g % 16)

/-- What a BAR0 address lies in. -/
inductive Place where
  /-- Chip page `j`. -/
  | chip (j : Nat)
  /-- Block page `ix` of region `r`. -/
  | block (r ix : Nat)
  /-- A window of region `r`: its rows, the base of the entry, and the page that guards it (R391). -/
  | win (r : Nat) (rows : List Row) (base guard : Nat)
  | nowhere
  deriving DecidableEq, Repr

/-- The tables of chip page `j` beyond the common layout, each with its base. -/
def chipRows (j : Nat) (o : Nat) : List (List Row × Nat) :=
  let b := chipPage j
  if j = 0 then
    [(Reg.rows_shm, b), (Reg.rows_staging, b)]
      ++ (if 0x440 ≤ o ∧ o < 0x640 then [(Reg.rows_layer, b + 0x440 + (o - 0x440) / 0x40 * 0x40)] else [])
      ++ (if 0x680 ≤ o ∧ o < 0xE80 then [(Reg.rows_rend, b + 0x680 + (o - 0x680) / 0x100 * 0x100)] else [])
  else if j = 1 then [(Reg.rows_glume, b)]
  else if j = 2 then [(Reg.rows_dpll, b)]
  else if j = 3 then
    (Reg.rows_refsel, b) :: (if 0x200 ≤ o ∧ o < 0x380 then [(Reg.rows_refent, b + o / 0x20 * 0x20)] else [])
  else if j = 4 then
    (Reg.rows_ptp, b) :: (if 0x200 ≤ o ∧ o < 0x400 then [(Reg.rows_ptpinst, b + o / 0x40 * 0x40)] else [])
  else if j = 5 then [(Reg.rows_nvm, b)]
  else if j = 6 then [(Reg.rows_holdup, b)]
  else if j = 9 then [(Reg.rows_evtree, b)]
  else []

/-- The tables of block page `ix` beyond the common layout, each with its base. -/
def blockRows (r ix : Nat) : List (List Row × Nat) :=
  let b := blk r ix
  if ix = ixRGN then [(Reg.rows_rgn, b)]
  else if ix = ixRACHIS then [(Reg.rows_rachis, b)]
  else if ix = ixCULM then [(Reg.rows_culm, b)]
  else if ixMEMPORT ≤ ix ∧ ix < ixMEMPORT + 4 then [(Reg.rows_memport, b)]
  else if ix = ixDE ∨ ix = ixDE + 1 then [(Reg.rows_de, b)]
  else if ix = ixCAPTURE then [(Reg.rows_capture, b)]
  else if ix = ixCOMPOSE then [(Reg.rows_compose, b)]
  else if ix = ixRCU then [(Reg.rows_rcu, b)]
  else if ix = ixEGRESS then [(Reg.rows_egress, b)]
  else if ix = ixSTOLON then [(Reg.rows_stolon, b)]
  else if ix = ixTIMEBASE then [(Reg.rows_timebase, b)]
  else if ix = ixMIRROR then [(Reg.rows_mirror, b)]
  else if ixLANE ≤ ix ∧ ix < ixLANE + 16 then [(Reg.rows_lane, b)]
  else []

/-- Whether block index `ix` exists (R25). -/
def blockExists (ix : Nat) : Bool := ix < 0x34 && !(ix == 7) && !(0x1D ≤ ix && ix ≤ 0x1F)

/-- The windows of region `r` (R391). -/
def windowAt (r o : Nat) : Place :=
  let e (rows : List Row) (start size guard : Nat) (chan : Bool) : Place :=
    .win r rows ((if chan then winBase else regBase r) + start + (o - start) / size * size) (blk r guard)
  if o < 0x01002000 then e Reg.rows_chstat 0x01000000 0x40 ixRGN true
  else if o < 0x01004000 then .nowhere
  else if o < 0x01024000 then
    (if (o - 0x01004000) % 0x400 < 0x200 then e Reg.rows_layer 0x01004000 0x40 ixCOMPOSE true
     else e Reg.rows_cmp 0x01004000 0x400 ixCOMPOSE true)
  else if o < 0x01030000 then .nowhere
  else if o < 0x01040000 then e Reg.rows_live 0x01030000 0x40 ixRGN true
  else if o < 0x01050000 then e Reg.rows_roi 0x01040000 0x200 ixRCU true
  else if o < 0x01060000 then e Reg.rows_rcs 0x01050000 0x40 ixRCU true
  else if o < 0x01072000 then e Reg.rows_ds 0x01060000 0x40 ixDE false
  else if o < 0x01080000 then .nowhere
  else if o < 0x010A0000 then
    .win r (Reg.rows_flow ++ Reg.rows_shaper) (regBase r + 0x01080000 + (o - 0x01080000) / 0x40 * 0x40) (blk r ixEGRESS)
  else if o < 0x010A4000 then
    .win r (Reg.rows_service ++ Reg.rows_shaper) (regBase r + 0x010A0000 + (o - 0x010A0000) / 0x40 * 0x40) (blk r ixEGRESS)
  else if o < 0x010A4400 then
    .win r (Reg.rows_port ++ Reg.rows_shaper) (regBase r + 0x010A4000 + (o - 0x010A4000) / 0x40 * 0x40) (blk r ixEGRESS)
  else if o < 0x010A8000 then .nowhere
  else if o < 0x010AA000 then e Reg.rows_policer 0x010A8000 0x20 ixPOLICER false
  else if o < 0x010B0000 then .nowhere
  else if o < 0x010B4000 then e Reg.rows_os 0x010B0000 0x10 ixEGRESS true
  else if o < 0x010C0000 then .nowhere
  else if o < 0x010C8000 then e Reg.rows_slots 0x010C0000 0x800 ixEGRESS false
  else if o < 0x010D0000 then e [] 0x010C8000 0x800 ixEGRESS false
  else if o < 0x010D0C00 then e Reg.rows_stslots 0x010D0000 0x400 ixSTOLON false
  else if o < 0x010D1000 then .nowhere
  else if o < 0x010D1C00 then e [] 0x010D1000 0x400 ixSTOLON false
  else if o < 0x01100000 then .nowhere
  else if o < 0x02100000 then e Reg.rows_chain 0x01100000 0x80000 ixCOMPOSE false
  else .nowhere

/-- Where a BAR0 address lies (R391). The channel windows may also be named through `winBase`. -/
def placeOf (addr : Nat) : Place :=
  if addr < 0xA000 then .chip (addr / 0x1000)
  else if addr < 0x04000000 then .nowhere
  else
    let r := addr / 0x04000000 - 1
    let o := addr % 0x04000000
    if 16 < r ∨ (8 ≤ r ∧ r < 15) then .nowhere
    else if r = 16 then (if o < 0x1000 then .chip 0 else .nowhere)
    else if o < 0x34000 then (if blockExists (o / 0x1000) ∧ r < 8 then .block r (o / 0x1000) else .nowhere)
    else if o < 0x01000000 then .nowhere
    else windowAt r o

/-- The page that guards an address (R391, R398): itself for a page. -/
def guardOf (addr : Nat) : Option Nat :=
  match placeOf addr with
  | .chip j => some (chipPage j)
  | .block r ix => some (blk r ix)
  | .win _ _ _ g => some g
  | .nowhere => none

/-- The tables in which a field at `addr` may stand. -/
def tablesAt (addr : Nat) : List (List Row × Nat) :=
  match placeOf addr with
  | .chip j => if addr < 0xA000 then (Reg.rows_common, chipPage j) :: chipRows j (addr % 0x1000)
               else [(Reg.rows_shm, hostBPage)]
  | .block r ix => (Reg.rows_common, blk r ix) :: blockRows r ix
  | .win _ rows base _ => [(rows, base)]
  | .nowhere => []

/-- One field found in a word: the row, the base and copy it stands at, and its lowest bit within the word. -/
structure Slot where
  row : Row
  base : Nat
  ix : Nat
  shift : Nat
  deriving DecidableEq, Repr

/-- The default WEIGHT of requester `q` at every target (R289). -/
def cuWeight (q : Nat) : Nat :=
  [32, 32, 24, 8, 16, 16, 16, 16, 16, 16, 16, 16, 12, 12, 12, 12, 2, 2, 24, 24, 24, 4, 4, 4, 4, 2, 4, 8, 16].getD q 0

/-- The default QUOTA of requester `q`: only privileged ones have one (R289). -/
def cuQuota (q : Nat) : Nat := [48, 48, 40, 8].getD q 0

/-- A row with the reset value of its copy `i`: the fields of CU_WQ differ by requester (R289, R298). -/
def fixReset (row : Row) (i : Nat) : Row :=
  if row.off = 0x200 ∧ row.stride = 4 ∧ row.count = 256 then
    { row with reset := if row.lo = 0 then cuWeight (i % 32) else if row.lo = 8 then cuQuota (i % 32) else b2n (decide (i % 32 < 4)) }
  else row

/-- The copies of one row that lie in the word at `base + o`. -/
def rowSlotsAt (row : Row) (base o : Nat) : List Slot :=
  if row.stride = 0 then (if row.off = o then [⟨row, base, 0, row.lo⟩] else [])
  else if row.stride < 4 then
    (if row.off ≤ o ∧ (o - row.off) / row.stride < row.count then
       (List.range (4 / row.stride)).map
         (fun k => ⟨row, base, (o - row.off) / row.stride + k, 8 * k * row.stride + row.lo⟩)
     else [])
  else if row.off ≤ o ∧ (o - row.off) % row.stride = 0 ∧ (o - row.off) / row.stride < row.count then
    [⟨row, base, (o - row.off) / row.stride, row.lo⟩]
  else []

/-- The fields of a table's row that an offset names, with the reset values of the entry (R391). -/
def rowSlots (row : Row) (base o : Nat) : List Slot :=
  (rowSlotsAt row base o).map (fun s => { s with row := fixReset s.row s.ix })

/-- Every field that lies in the word at `addr`. A table stands at the same offset of its region whatever base keeps it. -/
def slotsAt (addr : Nat) : List Slot :=
  (tablesAt addr).flatMap (fun t => t.1.flatMap (fun row => rowSlots row t.2 (addr % 0x04000000 - t.2 % 0x04000000)))

/-- The setting class of the field kept under a key (R455). -/
def classOf (key : Nat) : Option Cls :=
  let byte := key / 32
  ((slotsAt (byte / 4 * 4)).find? (fun s => s.row.key s.base s.ix == key)).map (fun s => s.row.cls)

/-- The event source of a page (R402). -/
def sourceOf (page : Nat) : Nat :=
  if page < 0xA000 then 480 + page / 0x1000
  else (page / 0x04000000 - 1) * 60 + page % 0x04000000 / 0x1000

/-- The page of an event source (R402): none where the source is never pending. -/
def pageOfSource (s : Nat) : Option Nat :=
  if s < 480 then (if blockExists (s % 60) then some (blk (s / 60) (s % 60)) else none)
  else if s < 490 then some (chipPage (s - 480)) else none

/-- The region of a page, none for a chip page. -/
def regionOf (page : Nat) : Option Nat :=
  if page < 0x04000000 then none else some (page / 0x04000000 - 1)

/-- Whether `page` is the base of an existing page. -/
def isPage (page : Nat) : Bool :=
  match placeOf page with
  | .chip j => page == chipPage j
  | .block r ix => page == blk r ix
  | _ => false

end Sys2Proof.Machine
end

