-- ==== Sys2Proof/Machine/Types.lean ====
section
/-! DEFINITION. The records of which the state is made: what the spec gives the part beyond its register
fields (host ports, islands, regions, timebases, Glume, NVM, the fault log). -/

namespace Sys2Proof.Machine

/-- An entry of the fault log (R484). `detail` holds the 24 DETAIL bytes. -/
structure LogEntry where
  seq : Nat
  kind : Nat
  sev : Nat
  region : Nat
  flags : Nat
  tb : Nat
  boot : Nat
  src : Nat
  code : Nat
  info : Nat
  obj : Nat
  detail : List Nat
  tj : Nat
  crc : Nat
  deriving DecidableEq, Repr

/-- A record of an event ring (R406). -/
structure EvRec where
  seq : Nat
  source : Nat
  bit : Nat
  flags : Nat
  tb : Nat
  obj : Nat
  info : Nat
  err : Nat
  deriving DecidableEq, Repr

/-- The header fields of a packet (R245): destination and source MAC, the tag's TCI where there is one, IPv6, DSCP, TTL or hop
limit, source and destination addresses, UDP ports, whether the UDP checksum is computed, RTP payload type and SSRC
(no RTP header in ENCAP 0x2), the bytes of the IP packet, and the IPv4 header checksum. -/
structure Hdr where
  dmac : Nat
  smac : Nat
  tci : Option Nat
  ipv6 : Bool
  dscp : Nat
  ttl : Nat
  src : Nat
  dst : Nat
  sport : Nat
  dport : Nat
  csum : Bool
  rtp : Option (Nat × Nat)
  len : Nat
  sum : Option Nat
  deriving DecidableEq, Repr

/-- What a transport-stream packet carries beside its adaptation field (R246): the program association with transport_stream_id,
program_number and PMT PID; the program map with program_number, PCR PID, stream_type and video PID; or `bytes` bytes of the PES packet of an
access unit, at whose start stand PTS and, in the ladder class, DTS. -/
inductive TsBody where
  | pat (tsid program pmtPid : Nat)
  | pmt (program pcrPid streamType videoPid : Nat)
  | pes (head : Option (Nat × Option Nat)) (bytes : Nat)
  | none
  deriving DecidableEq, Repr

/-- A transport-stream packet (R246): PID, payload_unit_start_indicator, continuity counter, PCR, discontinuity_indicator, and bytes of
adaptation-field stuffing. -/
structure TsPkt where
  pid : Nat
  start : Bool
  cc : Nat
  pcr : Option Nat
  disc : Bool
  stuff : Nat
  body : TsBody
  deriving DecidableEq, Repr

/-- What a packet carries (R243, R246), NAL units being numbered from 0 in their tick slice: one whole, several in an aggregation packet, a
fragmentation unit (the first, the last), or transport-stream packets. -/
inductive PktBody where
  | nal (n : Nat)
  | agg (ns : List Nat)
  | frag (n : Nat) (first last : Bool)
  | ts (l : List TsPkt)
  deriving DecidableEq, Repr

/-- A packet of a tick slice: payload bytes and what they are. -/
structure Pkt where
  bytes : Nat
  body : PktBody
  deriving DecidableEq, Repr

/-! ## What the NAL units of a stream carry -/

/-- The VUI (R115, R124): colour codes, video_full_range_flag, chroma_sample_loc_type (4:2:0 only), timing, and HEVC's field_seq_flag. -/
structure Vui where
  primaries : Nat
  transfer : Nat
  matrix : Nat
  fullRange : Nat
  chromaLoc : Option Nat
  unitsInTick : Nat
  timeScale : Nat
  fieldSeq : Bool
  deriving DecidableEq, Repr

/-- The HRD parameters (R138, R161, R165): the presence flags, cpb_cnt_minus1, the two scales, bit_rate_value_minus1 and
cpb_size_value_minus1, with decoding units bit_rate_du_value_minus1, cpb_size_du_value_minus1 and tick_divisor_minus2, cbr_flag,
low_delay_hrd_flag, the fixed_pic_rate flags and the elemental duration. -/
structure Hrd where
  nal : Bool
  vcl : Bool
  cpbCntMinus1 : Nat
  bitRateScale : Nat
  cpbSizeScale : Nat
  bitRateValueMinus1 : Nat
  cpbSizeValueMinus1 : Nat
  du : Option (Nat × Nat × Nat)
  cbr : Bool
  lowDelay : Bool
  fixedPicRate : Bool
  duration : Nat
  deriving DecidableEq, Repr

/-- A sequence parameter set (R114, R115, R118, R120 to R122, R136, R141): identifier, the identifier of its VPS, profile, level, tier,
chroma format, depth, the coded size, the samples that the cropping or conformance window takes off at the right and at the bottom,
field_pic pictures (AVC), the DPB size and the reorder count, the tools enabled, VVC's subpictures as first CTU row and
height with subpic_treated_as_pic_flag and loop_filter_across_subpic_enabled_flag, VUI and HRD. -/
structure Sps where
  id : Nat
  vps : Nat
  profile : Nat
  level : Nat
  tier : Nat
  chroma : Nat
  depth : Nat
  width : Nat
  height : Nat
  cropRight : Nat
  cropBottom : Nat
  fieldPics : Bool
  dpb : Nat
  reorder : Nat
  tools : List Tool
  subpics : List (Nat × Nat)
  treatedAsPic : Bool
  loopAcrossSubpics : Bool
  vui : Vui
  hrd : Hrd
  deriving DecidableEq, Repr

/-- A picture parameter set (R121, R122, R129, R141): identifier, tile columns, the heights of the tile rows in CTU rows,
loop_filter_across_tiles_enabled_flag, WPP, diff_cu_qp_delta_depth, transform_8x8_mode_flag. -/
structure Pps where
  id : Nat
  tileCols : Nat
  tileRows : List Nat
  loopAcrossTiles : Bool
  wpp : Bool
  qpDeltaDepth : Nat
  transform8 : Bool
  deriving DecidableEq, Repr

/-- An SEI message with the contents of R134, R138, R151 to R154, R165. -/
inductive Sei where
  /-- Initial CPB removal delay and offset in 90 kHz ticks, concatenation_flag. -/
  | bufferingPeriod (delay offset concatenation : Nat)
  /-- CPB removal delay and DPB output delay in pictures, pic_struct (HEVC), and AVC's clock timestamp with its counting_type and
  discontinuity. -/
  | picTiming (removal output : Nat) (picStruct : Option Nat) (clock : Option (Timecode × Nat × Bool))
  | recoveryPoint (count : Int) (exactMatch brokenLink : Bool)
  /-- Registered user data: the bytes from itu_t_t35_country_code on. -/
  | registered (bytes : List Nat)
  /-- Unregistered user data: the UUID and what follows. -/
  | unregistered (bytes : List Nat)
  /-- The decoding unit and its CPB removal delay increment. -/
  | duInfo (unit increment : Nat)
  | timeCode (t : Timecode) (countingType : Nat) (discontinuity : Bool)
  | mastering (bytes : List Nat)
  | contentLight (bytes : List Nat)
  deriving DecidableEq, Repr

/-- A slice NAL unit's header (R115, R125, R129, R130, R136, R141): picture kind, slice type (0 I, 1 P, 2 B), first coding row and number of
rows, the field (0 a frame, 1 top, 2 bottom), the reference pictures of the two lists by number, slice QP,
disable_deblocking_filter_idc (AVC), the entry-point offsets in bytes, and the ALF parameter sets referred to. -/
structure SliceHdr where
  kind : PicKind
  type : Nat
  first : Nat
  rows : Nat
  field : Nat
  refs0 : List Nat
  refs1 : List Nat
  qp : Int
  deblockIdc : Nat
  entries : List Nat
  alf : List Nat
  deriving DecidableEq, Repr

/-- A NAL unit (R126). -/
inductive Nal where
  | aud
  | vps (id : Nat) (hrd : Hrd)
  | sps (s : Sps)
  | pps (p : Pps)
  /-- An adaptation parameter set: LMCS or ALF, and its identifier (R125). -/
  | aps (lmcs : Bool) (id : Nat)
  | sei (x : Sei)
  /-- VVC's picture header: whether it is a GDR picture, ph_recovery_poc_cnt, and the vertical virtual boundary in luma samples (R134). -/
  | ph (gdr : Bool) (recoveryPoc : Option Int) (boundary : Option Nat)
  | slice (h : SliceHdr)
  | filler
  /-- End of bitstream (R119). -/
  | eob
  deriving DecidableEq, Repr

/-- The commands Out tells of: everything the part emits, in order. -/
inductive Out where
  /-- A record written to the event ring of port `h`, at byte offset `at_` of the ring (R406). -/
  | ring (h at_ : Nat) (e : EvRec)
  /-- The MSI-X message of vector `v` of port `h` (R407). -/
  | msix (h v : Nat)
  /-- A heartbeat of island `i` on a path, on Stolon over SPORT_`port` (0 on Awn), with the master timebase value and TB_INC
  (R28, R374). -/
  | beat (i : Nat) (path : Path) (port tb inc : Nat)
  /-- Island `i` reports the islands that it can still reach over a partitioned ring, one bit each (R27). -/
  | awnReach (i mask : Nat)
  /-- Region `b` is reported as unreachable over Stolon from region `a` (R22). -/
  | noRoute (a b : Nat)
  /-- Egress-kill for a region (R278, R479): sending region, region, and whether over the Stolon control class instead of both directions of
  Awn. -/
  | kill (from_ r : Nat) (stolon : Bool)
  /-- The witness records a grant in the shadow before it grants it (R277): shadow, group, slot, taker. -/
  | noteGrant (shadow n slot r : Nat)
  /-- A grant of a protection token: group, slot, and the region it goes to (R277). -/
  | grant (n slot r : Nat)
  /-- A packet leaves: region, flow, generation, port, sequence number, RTP timestamp, payload bytes, marker, wire bytes, header fields, and
  what it carries of which tick slice. -/
  | packet (r f gen port seq ts bytes : Nat) (marker : Bool) (wire : Nat) (h : Hdr) (du : Nat) (body : PktBody)
  /-- A packet of a queue is discarded unsent: region, flow, sequence number (R256). -/
  | drop (r f seq : Nat)
  /-- A transport-stream packet with a PCR only: flow region, channel, rendition, PCR (R246). -/
  | pcr (c rd pcr : Nat)
  /-- A packet of an ST 2110-20 stream taken: channel, path, sequence number (R84). -/
  | source (c path seq : Nat)
  /-- An access unit handed to a decoder: stream slot and number (R199). -/
  | au (slot n : Nat)
  /-- Pixels of a job's result (R99 to R109). -/
  | samples (r ce : Nat) (vals : List Int)
  /-- A decoded or concealed picture handed on: region, slot, POC, tainted, blocks concealed (R198, R213). -/
  | picture (r slot : Nat) (poc : Int) (tainted : Bool) (concealed : Nat)
  /-- A task given to an instance (R229): region, instance, tag, descriptor word 0, CONTEXT, the slots' VALUEs and AUX, and which
  slots are matched. -/
  | work (r inst idx gen word0 ctx : Nat) (vals : List (Nat × Nat)) (mask : Nat)
  /-- GET_WORK answered empty (R229). -/
  | noWork (r inst : Nat)
  /-- The interrupt of a pre-empted control core (R239). -/
  | preempt (r inst idx : Nat)
  /-- The result of a RA_POST: region, index, generation, code (R240). -/
  | posted (r idx gen code : Nat)
  /-- A token sent by a unit: region, token key (R224). -/
  | token (r tok : Nat)
  /-- A decoder's read that fails its descriptor check answers this value in every sample (R204): region, engine, value. -/
  | failedRead (r de val : Nat)
  /-- A grant of the Culm: region, target, requester, beats (R290). -/
  | culm (r tgt q beats : Nat)
  /-- A read's answer: region, requester, address, bytes, poisoned (R307, R308). -/
  | memData (r q addr : Nat) (bytes : List Byte) (poison : Bool)
  /-- A read's answer on a host port: the bytes (R390) or a register word (R392). -/
  | hostData (w : Nat) (vals : List Nat)
  /-- A refresh issued: region, port, all-bank, forced (R315). -/
  | refresh (r p : Nat) (all forced : Bool)
  /-- A legacy-link frame, its width in lanes and its bytes (R336). -/
  | llFrame (width : Nat) (bytes : List Byte)
  /-- A legacy-link control symbol: 2 WIDTH with its D code, 3 ABORT, 4 ALIGN on the pair of the D code (R335, R338). -/
  | llSym (kind d : Nat)
  /-- A datagram delivered from the legacy link: stream, sequence, bytes (R336). -/
  | llData (bytes : List Byte)
  /-- A TS packet on an ASI output, none a null packet (R340, R423). -/
  | asi (n : Nat) (ts : Option TsPkt)
  /-- Words answered on the CL-4 control port, the interrupt level beside them (R414, R421). -/
  | spi (words : List Nat) (irqLow : Bool)
  /-- A PTP message: instance, kind (0 Sync, 1 Follow_Up, 2 Delay_Req, 3 Delay_Resp, 4 Announce), sequence, and its fields. -/
  | ptp (n kind seq : Nat) (fields : List Int)
  /-- The transmitter of global lane `g` (R333, R344, R345): 0 off, 1 electrical idle, 2 active, 3 retransmits its received bit stream. -/
  | laneTx (g state : Nat)
  /-- An IGMPv3 or MLDv2 membership report on a global port: whether IPv6, the group, and whether it is joined (R328). -/
  | report (g : Nat) (v6 : Bool) (group : Nat) (join : Bool)
  /-- An answer of firmware to ARP or neighbour solicitation: global port and MAC (R328). -/
  | macReply (g mac : Nat)
  /-- An Ethernet frame delivered (R328). -/
  | ethIn (g bytes : Nat)
  /-- A record's copy, or a sector of the fault log, is complete in the NOR (R440, R482): record, copy, NOR address, SEQ of the commit
  word, and the bytes programmed before it. -/
  | norWrite (record copy addr seq : Nat) (body : List Nat)
  /-- A tick slice handed to EGRESS: channel, rendition, frame, slice, and its NAL units in the order of R126 with their sizes in bytes as
  R162 counts them. -/
  | unit (c rd k j : Nat) (nals : List (Nal × Nat))
  /-- A region of a span sends the slice NAL units of its band to the next region on the way to the lead: channel, rendition, frame, slice,
  sending region, receiving region, bytes (R144). -/
  | bandSlice (c rd k j from_ to_ bytes : Nat)
  /-- A message of the coherent-control class of a Stolon link for a spanning rendition's ledger: channel, rendition, sending and
  receiving region, row, bits (R188). -/
  | rowBits (c rd from_ to_ row bits : Nat)
  /-- A statistics record's bytes are written: channel, rendition, ring offset, length (R158). -/
  | stat (c rd off len : Nat)
  /-- A mirror record: channel, rendition, sequence, valid (R270, R271). -/
  | mirror (c rd seq : Nat) (ok : Bool)
  /-- Bytes of a record written into its slot of the ring in one write: channel, rendition, sequence, offset, bytes (R271). -/
  | mirrorWrite (c rd seq ofs : Nat) (bytes : List Nat)
  /-- A copy of a tick slice sent to a tracking standby: channel, rendition, frame, slice, bytes (R270). -/
  | duCopy (c rd k j bytes : Nat)
  /-- A take-over resumes a rendition: channel, rendition, resume slice m, and whether a TS stream's first packet carries
  discontinuity_indicator = 1 (R280, R281). -/
  | resume (c rd m : Nat) (disc : Bool)
  /-- The 64-bit emission word written into the standby: channel, rendition, last sequence sent, channel generation (R270). -/
  | emission (c rd seq gen : Nat)
  /-- The timebase adjustment applied in every region: the change in 2^-16 ns (R371). -/
  | tbAdj (delta : Int)
  /-- Image set read from host memory: address and length (R430). -/
  | imageRead (addr len : Nat)
  /-- The composed picture of a channel's frame: each layer 0 disabled, 1 shown, 2 repeated, 3 left out (R98 to R100). -/
  | composed (c k : Nat) (layers : List Nat)
  /-- A filtered packet is dropped by POLICER, or marked: colour 0 green, 1 yellow, 2 red (R261). -/
  | police (r e colour : Nat) (dropped : Bool)
  deriving DecidableEq, Repr

/-- The host side of port `h` (R387 to R389, R406, R407): whether its link is up, the MSI-X vector masks, the
pending bits, the next record number, whether a record was lost, and the words of the MSI-X table. -/
structure HostP where
  linkUp : Bool
  vecMask : Nat
  pba : Nat
  seq : Nat
  lostBefore : Bool
  table : Tbl Nat
  deriving DecidableEq, Repr

/-- A port at reset: link up, every vector masked as PCI Express resets it (PRESUMED). -/
def HostP.init : HostP := ⟨true, 2 ^ 64 - 1, 0, 0, false, []⟩

/-- A page commit that waits for its apply point (R395, R396). `vals` are the keys and values of the pending set;
`windows` the tables that wait for their own wraps. -/
structure Pend where
  id : Nat
  kind : Nat
  chan : Nat
  tb : Nat
  posted : Nat
  vals : Tbl Nat
  waiting : List Nat
  deriving DecidableEq, Repr

/-- The power states of R451. -/
inductive Pwr where
  | active | idle | nap | park
  deriving DecidableEq, Repr

/-- A region core: without power or firmware, held in reset, in a WARM reset, or running. -/
inductive CoreSt where
  | off | reset | warm | run
  deriving DecidableEq, Repr

/-- One region's core and its island's copies (R25, R26, R345, R449 to R454): the power state and a transition's
target, the PARK snapshot, the standing copy of class C, egress-kill, the thermal hold, the instant from which the region
counts as failed (R277), whether it stops its protected flows for want of beats (R279), and whether its firmware is verified and
waits for the election of this reset (R31). -/
structure Rgn where
  core : CoreSt
  pwr : Pwr
  target : Option Pwr
  snap : Option (Tbl Nat)
  laneCopy : Tbl Nat
  killed : Bool
  held : Bool
  failedAt : Option Nat
  cutOff : Bool
  ready : Bool
  deriving DecidableEq, Repr

def Rgn.init : Rgn := ⟨.reset, .active, none, none, [], false, false, none, false, false⟩

/-- One island (R29): its supply, whether Glume verified class 0 at the last boot, an uncorrectable word in its
store (R479), and a reported fatal error (R32). -/
structure Isl where
  aon : Bool
  verified : Bool
  ue : Bool
  fatal : Bool
  deriving DecidableEq, Repr

def Isl.init : Isl := ⟨true, false, false, false⟩

/-- A region's timebase (R36, R37): the count, and what of its offset from the master as last measured the slew has still to
remove, both in units of 2^-32 ns. -/
structure TbSt where
  cnt : Nat
  ofs : Int
  deriving DecidableEq, Repr

/-- A scheduled TB_ADJ (R371): SET or STEP, the value in 2^-16 ns, the instant in ns. -/
structure TbAdj where
  isSet : Bool
  val : Int
  atNs : Nat
  deriving DecidableEq, Repr

/-- Personality, boot and security state of the chip level (R5, R6, R429 to R438, R445, R479): among them `firstElect`, the
instant of the first SHM_ELECT after a reset; `mediaOk`, whether the election of this POR, PIN or WARM reset has run (R31); `beats`,
the timebase value in 2^-16 ns of each island's last Awn beat (R374); and of the CL-4 personality, the last data word on the SPI bus (R414), the command
that awaits its answer; `bootFails`, the image slots of NOR sources that the boot ROM has rejected since the reset (source × 2 + slot); per channel the settings as of its START that APPLY must not change (R418), and of each ASI output (0 to 3) and of each
channel's way to the legacy link (4 to 7) the next TS packet to send, as the instant of its slice and its number there, and the instant
when the output is free (R422 to R424). -/
structure Sys where
  mode : Nat
  bootSel : Nat
  boardId : Nat
  strapErr : Bool
  elected : Bool
  electAt : Option Nat
  firstElect : Option Nat
  mediaOk : Bool
  hostSeen : Bool
  standalone : Bool
  admOpen : Bool
  chipFatal : Bool
  bootSource : Nat
  bootSlot : Nat
  booted : Bool
  bootFails : List Nat
  svnRun : List Nat
  unlocked : Bool
  chalLive : Bool
  adj : Option TbAdj
  linksDown : List Nat
  awnBroken : List Nat
  reachLost : List Nat
  heard : Tbl Nat
  beats : Tbl Nat
  spiLast : Nat
  cl4Cmd : Option (Nat × Nat)
  cl4Run : Tbl (List Nat)
  tsOut : Tbl (Nat × Nat × Nat)
  deriving DecidableEq, Repr

/-- One copy of a record in NOR (R440): its SEQ and body, and whether its commit word verifies. -/
structure RecCopy where
  seq : Nat
  body : List Nat
  ok : Bool
  deriving DecidableEq, Repr

/-- A requested store (R440, R441): record number, body, sectors erased and bytes programmed, whether deferred,
and the fault-log entries it stores. -/
structure StoreJob where
  record : Nat
  body : List Nat
  sectors : Nat
  bytes : Nat
  deferred : Bool
  entries : List LogEntry
  deriving DecidableEq, Repr

/-- The NOR and the stores (R439 to R442, R482, R483): the copies of record r under key 2r and 2r + 1, the fault-log sectors
oldest first, the running store, the waiting stores in order, the buffered entries and the TB instants at which each began to
wait, the board record and the equalisation table in use (R434, R490), PFAIL_N, the interval's start and the intervals not yet
recorded, the counts of corrected and contained errors per region with those of its last SUMMARY entry and that entry's hour (R483), and the
instant of the last check that failed. -/
structure Nvm where
  recs : Tbl RecCopy
  sectors : List (List LogEntry)
  running : Option StoreJob
  queue : List StoreJob
  buf : List LogEntry
  bufAt : List Nat
  nextSeq : Nat
  sectorSeq : Nat
  lostBefore : Bool
  bootCount : Nat
  board : Option (List Nat)
  eqTable : Option (List Nat)
  pfail : Bool
  pfailStart : Nat
  pfailLog : List (Nat × Nat)
  sevCnt : Tbl (Nat × Nat)
  sumSeen : Tbl (Nat × Nat)
  sumHour : Tbl Nat
  checkAt : Nat
  deriving DecidableEq, Repr

/-- Fuses (R432, R433, R438; class A): whether the customer key slot and the consent fuse are set, the customer
key's hash, the fused SVNs, the serial number, and whether their integrity holds. -/
structure Otp where
  custKey : Option (List Nat)
  consent : Bool
  svn : List Nat
  serial : List Nat
  intact : Bool
  deriving DecidableEq, Repr

/-- A REFSEL entry beyond its registers (R353 to R357): the seconds it must stay within tolerance, whether its last 10 s window was
inside, whether it has a 10 s value, when its last ESMC message came, and since when it has been measured. -/
structure RefSt where
  req : Nat
  goodWin : Bool
  hasY10 : Bool
  esmcAt : Nat
  from_ : Nat
  deriving DecidableEq, Repr

/-- Two entries' cross-offset (R359): consecutive 10 s windows outside 0.1 ppm and inside, whether they disagree, and which of the two is
SUSPECT for it. -/
structure PairSt where
  above : Nat
  under : Nat
  disagree : Bool
  mark : Option Nat
  deriving DecidableEq, Repr

/-- The reference selector and the DPLL beyond their registers (R349 to R364): entries, pairs (key a × 16 + b),
the last edge seen per island and pin (key island × 4 + pin), a switch that waits for an edge, the QL at selection,
the frequency history latest first, since when the phase error has stayed below 10 ns, and the absorbed phase that remains in ps. -/
structure RefSel where
  ents : Tbl RefSt
  pairs : Tbl PairSt
  edges : Tbl Nat
  waiting : Option Nat
  qlSel : Nat
  hist : List Int
  acqSince : Option Nat
  absorb : Int
  deriving DecidableEq, Repr

/-- A PTP instance beyond its registers (R376 to R380): the last Announce of the transmitter that it follows and its
instant, the exchange in progress (times in 2^-16 ns), the sequence numbers sent, how many exchanges in a row exceeded the step
threshold, and, while a write waits for its next message interval, its fields that differ from reset as it still applies them. -/
structure PtpSt where
  best : Option Announce
  annAt : Nat
  t1 : Option Int
  t2 : Option Int
  wait2 : Option (Int × Nat)
  t3 : Option (Int × Nat)
  seqSync : Nat
  seqAnn : Nat
  seqReq : Nat
  above : Nat
  act : Option (Tbl Nat)
  deriving DecidableEq, Repr

def PtpSt.init : PtpSt := ⟨none, 0, none, none, none, none, 0, 0, 0, 0, none⟩

/-! ## Channels (R57 to R112) -/

/-- An admission request that waits for its result (R57, R58): operation, tag, channel, generation, the writer, the
placement fields, whether the CL-4 personality asks (R411), and the descriptor as staged. -/
structure AdmReq where
  op : Nat
  tag : Nat
  chan : Nat
  gen : Nat
  mask : Nat
  span : Nat
  preempt : Nat
  protect : Nat
  prio : Nat
  cl4 : Bool
  cfg : Tbl Nat
  deriving DecidableEq, Repr

/-- A layer beyond its registers (R93, R98): the posted slots oldest first with the instant of each post in 2^-16 ns,
the slot in use, whether the layer ever had a complete frame, whether HIDE_UNTIL_COMMIT hides it, and of secondary video the source
channel with its generation, the count of its frames that the layer used last, and the newest of these. -/
structure LaySt where
  queue : List (Nat × Nat)
  inUse : Option Nat
  shown : Bool
  hidden : Bool
  src : Nat × Nat
  used : Nat
  pic : Planes
  deriving DecidableEq, Repr

def LaySt.init : LaySt := ⟨[], none, false, false, (0, 0), 0, ⟨[], [], []⟩⟩

/-- What is kept of a channel frame (R88, R98, R112, R148, R152, R158): main video repeated or replaced, late layers by
bit, degraded (R90), scene-cut flag, RTP timestamp of the source, timecode with its source (0 ancillary, 1 flywheel,
2 timebase) and whether it jumps, caption triplets, ROI version, layers 0 to 7 as composed (0 disabled,
1 shown, 2 repeated, 3 left out), whether it is the first source frame of the channel (R111), the scene-cut flags of its slices by
bit, the motion hint of each 16 × 16 block by its number in raster order (R111), the samples of its source frame, and those of the
composed picture (R101). -/
structure FrameInfo where
  rep : Bool
  late : Nat
  degraded : Bool
  scene : Bool
  rtpTs : Nat
  tc : Option Timecode
  tcSrc : Nat
  tcDisc : Bool
  caps : List Nat
  roi : Nat
  main : Nat
  layers : List Nat
  noPrev : Bool
  cuts : Nat
  hints : Tbl (Int × Int)
  pic : Planes
  comp : Planes
  deriving DecidableEq, Repr

def FrameInfo.init : FrameInfo :=
  ⟨false, 0, false, false, 0, none, 0, false, [], 0, 0, [], false, 0, [], ⟨[], [], []⟩, ⟨[], [], []⟩⟩

/-- A channel beyond its registers (R62, R78 to R98, R148, R152): the descriptor in force, an accepted MODIFY with its
apply frame, its PRIO and PREEMPTIBLE, the largest NAL unit sizes of the renditions (R489), the regions that carry it (lead first), start frame, next frame tick, next slice tick (counted in
slices from E), the first frame not captured after a stop, the end of quarantine in ns, the ingest phase and whether
it is fixed, source frames assigned but not yet used, frames without assignment in a row, whether SRC_LOSS holds,
completed main-video frames, layers, pending layer and ROI commits with the instant of posting in 2^-16 ns, the frames'
records, the ROI entries that later commits replaced by version, timecode state, the slice jobs counted in a TB second, a frame whose interval of
R88 is still open, the lost links last reported (R90), the last frame that a source frame captured in the standby belongs to (R274), the sequence
numbers of the ST 2110-20 packets already taken (R84), the earlier descriptors with the frame up to which each holds
(R62), and the frame from which a revert has another region code it (R285). -/
structure Chan where
  cfg : Tbl Nat
  next : Option (Tbl Nat)
  nextK : Nat
  nvs : List NvIn
  nextNvs : List NvIn
  nextPlace : Nat × Nat
  regions : List Nat
  startK : Nat
  k : Nat
  n : Nat
  stopK : Option Nat
  quarEnd : Nat
  phase : Option Nat
  srcs : List (Nat × SrcFrame)
  missed : Nat
  lost : Bool
  everSrc : Bool
  frames : Nat
  lays : Tbl LaySt
  lyPend : Option (Nat × Tbl Nat)
  lyAt : Nat
  lyWait : Option (Nat × Tbl Nat × Nat)
  roiPend : Option (Nat × Tbl Nat)
  roiAt : Nat
  info : Tbl FrameInfo
  rois : List (Nat × Tbl Nat)
  tc : Option Timecode
  tcGap : Nat
  jobsSec : Nat
  jobs : Nat
  undecided : Option Nat
  quadSeen : Nat
  sbyK : Option Nat
  seen : List Nat
  prev : List (Nat × Tbl Nat)
  handTo : Option (Nat × Nat)
  deriving DecidableEq, Repr

def Chan.init : Chan :=
  { cfg := [], next := none, nextK := 0, nvs := [], nextNvs := [], nextPlace := (0, 0), regions := [], startK := 0, k := 0, n := 0,
    stopK := none, quarEnd := 0, phase := none, srcs := [], missed := 0, lost := false, everSrc := false,
    frames := 0, lays := [], lyPend := none, lyAt := 0, lyWait := none, roiPend := none, roiAt := 0,
    info := [], rois := [], tc := none, tcGap := 0, jobsSec := 0, jobs := 0, undecided := none, quadSeen := 0, sbyK := none, seen := [],
    prev := [], handTo := none }

/-- A stream placed on a decode engine (R49, R193, R217): engine, load in 0.1 DLU, and use (0 confidence, 1 tracking,
2 feed). -/
structure Strm where
  eng : Nat
  dlu : Nat
  use : Nat
  deriving DecidableEq, Repr

/-! ## Renditions and rate control (R161 to R189) -/

/-- A coding row of a granted slice (R176, R179): budget, whether an engine took it, its bits when complete, and its budget as
granted. -/
structure RowB where
  row : Nat
  budget : Nat
  taken : Bool
  done : Option Nat
  first : Nat
  deriving DecidableEq, Repr

/-- What the structure fixes of a picture (R131 to R136, R170, R185): its kind, whether every CTU is of kind I, its temporal ID, whether it
is a ladder B picture, its kind mix, and the frame of its refresh sweep. -/
structure PicT where
  kind : PicKind
  irap : Bool
  tid : Nat
  isB : Bool
  mix : Nat
  sweep : Option Nat
  deriving DecidableEq, Repr

/-- A granted tick slice (R173, R176): its number since the stream's start, display frame, slice of the channel, grant,
slice QP, its non-VCL NAL units and their bits, rows, the deepest ladder level (from its starting level), the header bits of its slice
NAL units once its rows are complete, its bits once the filler is settled, the ALF parameter sets referred to. -/
structure Open where
  i : Nat
  k : Nat
  j : Nat
  grant : Nat
  qp : Int
  nv : Nat
  nonVcl : List (Nal × Nat)
  rows : List RowB
  deep : Nat
  heads : Option (List Nat)
  bits : Option Nat
  alf : List Nat
  deriving DecidableEq, Repr

/-- A completed tick slice that waits for emission (R137, R243, R270): number, display frame, slice, bits, its
NAL units in the order of R126 with their sizes in bytes as R162 counts them, departure instant d_j in ns, whether its picture
carries parameter sets (R125), its packets once it is packetised, and the stream state at its start: first sequence
number, RTP timestamp, continuity counters of the video PID and of PAT and PMT, the last PCR and PAT in ns; and whether its first packet has left. -/
structure Du where
  i : Nat
  k : Nat
  j : Nat
  bits : Nat
  nals : List (Nal × Nat)
  dep : Nat
  ps : Bool
  pkts : Option (List Pkt)
  seq0 : Nat
  ts : Nat
  cc : Nat
  psi : Nat
  pcrNs : Nat
  patNs : Nat
  left : Bool
  deriving DecidableEq, Repr

/-- What is gathered of a picture being coded (R158, R159, R182, R184, R185): display frame, whether a bottom field, its type and picture
order count, bits granted and spent, slices complete, bits, Σ C × 2^((24 − q)/6) in 2^-24 and number per θ over the CTUs that count,
first floor row, deepest level, whether a slice was capped, Σ QP and CTUs, SSE, the packed CTU entries, and the list-0 vector of each
4 × 4 block that has one (row × 4,096 + column). -/
structure PicAcc where
  k : Nat
  bottom : Bool
  type : PicT
  poc : Int
  granted : Nat
  bits : Nat
  slices : Nat
  meas : List (Nat × Nat × Nat)
  floorRow : Option Nat
  maxLevel : Nat
  capped : Bool
  qpSum : Int
  qpN : Nat
  sse : Nat
  ctus : Tbl Nat
  mvs : Tbl (Int × Int)
  deriving DecidableEq, Repr

def PicAcc.init (k : Nat) (bottom : Bool) : PicAcc :=
  { k := k, bottom := bottom, type := ⟨.trail, false, 0, false, 1, none⟩, poc := 0, granted := 0, bits := 0, slices := 0, meas := [(0, 0, 0), (0, 0, 0), (0, 0, 0)],
    floorRow := none, maxLevel := 0, capped := false, qpSum := 0, qpN := 0, sse := 0, ctus := [],
    mvs := [] }

/-- A rendition in service beyond its registers (R73, R75, R119, R132, R133, R166 to R189): the frame of tick slice 0, the
frames from which f and the sweeps count, the frames at which its sequences began, tick slices granted and analysed,
the arrival end of the last folded unit (bits × `Dev.ledgerDen`), slices and bits folded, V, C_fc, the ledger carry,
slices granted and not folded, the complexity of each analysed coding row per CTU (key picture × 128 + row, pictures
in display order from tick slice 0), the slice complexities of the last picture of each kind mix, the samples of ĉ per
level, the frame that each coding row was last reconstructed for, the deepest level of the last slice, the state at the start of each tick slice that its mirror record tells
(R271), pictures in progress by decoding position, completed slices, the slices fully emitted, the next slice to packetise, the last PCR and PAT in ns, the PSI
continuity counter, the caption triplets discarded, the rows that entered floor mode in a TB second, the first tick slice
that a standby resumed (R280), whether the stream began with its channel (R119, R131), the decoding position of the last buffering period (R165), the ALF parameter sets that each of the last 8 pictures
referred to (R125), the reference pictures in the DPB (R114, R136) and the vectors of each as its PicAcc held them. -/
structure Rend where
  firstK : Nat
  irs : List Nat
  segs : List Nat
  i : Nat
  an : Nat
  taf : Int
  doneI : Nat
  eBits : Nat
  v : Int
  cfc : Option Nat
  carry : Nat
  opens : List Open
  cplx : Tbl (List Nat)
  kinds : Tbl (List Nat)
  cyc : Tbl (List Nat)
  recon : Tbl Nat
  deep : Nat
  snaps : Tbl (List Int)
  accs : Tbl PicAcc
  dus : List Du
  sent : Nat
  pk : Nat
  pcrNs : Nat
  patNs : Option Nat
  psi : Nat
  minimalTo : Option Nat
  resumeI : Option (Nat × Option Nat)
  ended : Option Nat
  ccDrop : Nat
  floorSec : Nat × Nat
  fresh : Bool
  bpAt : Nat
  alf : List (List Nat)
  dpb : List Nat
  col : Tbl (Tbl (Int × Int))
  deriving DecidableEq, Repr

def Rend.init : Rend :=
  { firstK := 0, irs := [], segs := [], i := 0, an := 0, taf := 0, doneI := 0, eBits := 0, v := 0, cfc := none,
    carry := 0, opens := [], cplx := [], kinds := [], cyc := [], recon := [], deep := 0, snaps := [], accs := [], dus := [], sent := 0, pk := 0,
    pcrNs := 0, patNs := none, psi := 0, minimalTo := none, resumeI := none, ended := none, ccDrop := 0,
    floorSec := (0, 0), fresh := false, bpAt := 0, alf := [], dpb := [], col := [] }

/-- A coding engine's row (R72, R179 to R181): the task, channel, rendition, display frame, slice, number of the tick
slice, row, remaining and whole budget, level, whether in floor mode, whether minimal CTUs follow for the ledger, CTUs
coded, cycles and the cycles of the time budget, bits spent, complexity coded, row minimum QP, and the luma lines of the reference
pictures that its vectors may reach, from the first to one past the last (R142, R143). -/
structure CeJob where
  task : Nat
  gen : Nat
  c : Nat
  rd : Nat
  k : Nat
  j : Nat
  i : Nat
  row : Nat
  budget : Nat
  level : Nat
  floor : Bool
  minimal : Bool
  x : Nat
  cycles : Nat
  allow : Nat
  spent : Nat
  cDone : Nat
  qrow : Int
  lines : Nat × Nat
  deriving DecidableEq, Repr

/-- A decode engine's job (R193, R202): task, stream slot, the key of its unit (R223), the instant of its release and its deadline in ns,
and the code of the bound that ended it. -/
structure DeJob where
  task : Nat
  gen : Nat
  slot : Nat
  key : Nat
  release : Nat
  deadline : Nat
  ended : Option Nat
  deriving DecidableEq, Repr

/-- A picture in a decoder's DPB (R198, R207, R210 to R213): the POCs by which it is named, its field, samples, sequence parameters,
whether tainted, whether generated, and whether it waits for output. -/
structure DpbPic where
  pocs : List Int
  field : Nat
  pic : Planes
  seq : SeqIn
  tainted : Bool
  generated : Bool
  waits : Bool
  deriving DecidableEq, Repr

/-- What becomes of a picture's slices: decoded, read over as RASL or before the start, withheld under R200, or concealed for want of a
parameter set. -/
inductive PicUse where
  | decode | skip | withheld | lost
  deriving DecidableEq, Repr

/-- A picture being decoded (R207 to R213): POCs, kind, field, sequence parameters, what becomes of it, the CTU after the last one decoded,
whether the last slice broke off, whether CTUs between slices are uncovered, the blocks decoded, the number concealed, whether a reference is tainted,
pictures generated for it, the POC at which a recovery that begins with it ends, whether it is output, and its samples. -/
structure PicNow where
  pocs : List Int
  kind : PicKind
  field : Nat
  seq : SeqIn
  use : PicUse
  next : Nat
  torn : Bool
  gap : Bool
  blks : List DecBlk
  conc : List Nat
  refTaint : Bool
  unavail : Nat
  recovery : Option Int
  output : Bool
  pic : Planes
  deriving DecidableEq, Repr

/-- A stream slot of a decoder (R193 to R215): the concealment references by field (0 a frame), pictures untainted in a row since
tracking began, the DPB in decoding order, the picture in progress, the parameter sets held and those in force by kind and identifier, the
POC at which the recovery in progress ends, the POC of a recovery point SEI that waits for its picture, whether RASL pictures are
read over, the field that waits for its other, whether R200's mismatch lasts, whether decoding has started, whether a row of the picture at hand
differed from the encoder's (R214, R416), the errors found since the last picture, whether a job of the picture ended by BUF_BOUND, whether the stream
codes fields, the bytes of the last job's input (R203), and the instants at which units were released by their keys (R193). Of a feed's receive buffer (R199): the packets that
wait, the next access unit once one has been seen, per access unit the instant from which DELAY counts, the number that opens the next
access unit, and the numbers and paths of the packets that came. -/
structure DecSlot where
  good : Tbl (Int × Planes)
  clean : Nat
  dpb : List DpbPic
  cur : Option PicNow
  sets : Tbl PsIn
  active : Tbl PsIn
  recov : Option Int
  sei : Option Int
  skipRasl : Bool
  half : Option (Nat × Planes × Bool)
  mismatch : Bool
  started : Bool
  confBad : Bool
  errs : Nat
  bufFail : Bool
  fieldCoded : Bool
  input : Nat
  handed : Tbl Nat
  pkts : List FeedPkt
  auNext : Option Nat
  lastAt : Tbl Nat
  nextSeq : Option Nat
  seen : List (Nat × Nat)
  deriving DecidableEq, Repr

def DecSlot.init : DecSlot :=
  { good := [], clean := 0, dpb := [], cur := none, sets := [], active := [], recov := none, sei := none, skipRasl := false,
    half := none, mismatch := false, started := false, confBad := false, errs := 0, bufFail := false, fieldCoded := false, input := 0,
    handed := [], pkts := [], auNext := none, lastAt := [], nextSeq := none, seen := [] }

/-! ## Rachis (R219 to R240) -/

/-- A task descriptor (R220). -/
structure Desc where
  cls : Nat
  aff : Nat
  nslot : Nat
  opt : Nat
  chan : Nat
  noch : Bool
  gen : Nat
  rd : Nat
  cost : Nat
  deadline : Nat
  wake : Nat
  ctx : Nat
  keys : List Nat
  deriving DecidableEq, Repr

/-- Where a task stands. -/
inductive TaskAt where
  /-- Not armed. -/
  | waiting
  /-- Armed with a WAKE in the future, on its delay list; `full` when the list had no room. -/
  | delayed (full : Bool)
  /-- On its ready list since join number `n`. -/
  | ready (n : Nat)
  /-- Held by an instance, and the task for which it was interrupted (R239). -/
  | held (inst : Nat) (intr : Option Nat)
  deriving DecidableEq, Repr

/-- A store entry (R219): a task with VALUE and AUX matched per slot, its standing and its effective affinity; a parked
token; or quarantine until an instant. -/
inductive Entry where
  | task (d : Desc) (vals : List (Option (Nat × Nat))) (at_ : TaskAt) (eff : Nat)
  | token (key count val aux until_ ord : Nat)
  | quar (until_ : Nat)
  /-- Retired until the next REGION reset (R480). -/
  | retired
  deriving DecidableEq, Repr

/-- A stalled request (R234, R235): a post with the index it names, or a token with the deliveries left; whether it came
through the RA_POST window, its deadline, arrival number, and the instant it began to stall. -/
structure Stall where
  post : Option (Desc × Option Nat)
  tok : Option (Nat × Nat)
  fw : Bool
  deadline : Nat
  ord : Nat
  since : Nat
  deriving DecidableEq, Repr

/-- A job of COMPOSE or a scaler with the bytes of the graphics buffers it reads, by layer. -/
structure Job where
  data : JobData
  gfx : Tbl (List Byte)
  deriving DecidableEq, Repr

/-- A blocked GET_WORK (R229): class, instance, when it came, and the job the core will run. -/
structure Req where
  cls : Nat
  inst : Nat
  since : Nat
  job : Job
  deriving DecidableEq, Repr

/-- A region's dispatcher (R219 to R240): the µs of its last Rachis tick (R44), entries and generations by index, the count of arrivals and joins, stalled
requests in order of arrival, blocked requests, and the instants of each block's job failures (R17) by block index. -/
structure Rachis where
  tick : Nat
  ents : Tbl Entry
  gens : Tbl Nat
  ord : Nat
  stalls : List Stall
  reqs : List Req
  fails : Tbl (List Nat)
  deriving DecidableEq, Repr

def Rachis.init : Rachis := ⟨0, [], [], 0, [], [], []⟩

/-! ## Egress (R241 to R263) -/

/-- A queued packet (R243 to R246): the number of its tick slice, the slice's departure instant d_j in ns, sequence number,
RTP timestamp, payload bytes, marker, whether it is the slice's first packet, the instant of enqueue, the flow's
generation, the RTP payload type and SSRC, and what it carries. -/
structure QPkt where
  du : Nat
  dep : Nat
  seq : Nat
  ts : Nat
  bytes : Nat
  marker : Bool
  first : Bool
  enq : Nat
  gen : Nat
  rtp : Option (Nat × Nat)
  body : PktBody
  deriving DecidableEq, Repr

/-- The token counters of a node in 2^-16 byte, and its virtual time (R254). -/
structure Shp where
  tc : Nat
  tp : Int
  vt : Nat
  deriving DecidableEq, Repr

/-- The observation of a flow over its epoch (R262). -/
structure Obs where
  n : Nat
  dMin : Nat
  dMax : Nat
  sMin : Nat
  sMax : Nat
  dHist : List Nat
  sHist : List Nat
  deriving DecidableEq, Repr

def Obs.init : Obs := ⟨0, 0, 0, 0, 0, List.replicate 16 0, List.replicate 16 0⟩

/-- A flow beyond its registers (R251, R254, R255, R330): its own rank, its tokens, its queue, the end of quarantine, the
instant of its CREATE, the port it sends on and its rank there, the departure instant from which it sends again, the
one from which it is back on its own port, a MODIFY that waits with its instant, the instant of a DELETE, its observation,
and the addresses of its original port where it moved to a standby (R269). -/
structure Flow where
  rank : Nat
  sh : Shp
  queue : List QPkt
  quarEnd : Nat
  since : Nat
  port : Nat
  prank : Nat
  resume : Nat
  back : Option Nat
  pend : Option (Nat × Tbl Nat)
  del : Option Nat
  obs : Obs
  obsSeq : Nat
  addr : Option (Nat × Nat × Nat)
  deriving DecidableEq, Repr

def Flow.init : Flow := ⟨0, ⟨0, 0, 0⟩, [], 0, 0, 0, 0, 0, none, none, none, Obs.init, 0, none⟩

/-! ## Lanes (R325 to R345) -/

/-- A lane beyond its registers: whether the PCS of the port that starts here reports link_status FAIL (R329), since when
the port has been clear of every cause of being down, since when the lane has held lock and sync (R338), the
table entry from which its settings come (R341), and the state of its transmitter, as `Out.laneTx` gives it (R333, R344). -/
structure LaneSt where
  fail : Bool
  clear : Option Nat
  okAt : Option Nat
  entry : Nat
  tx : Nat
  deriving DecidableEq, Repr

def LaneSt.init : LaneSt := ⟨false, none, none, 0, 0⟩

/-- The legacy link (R334 to R339): whether the device's WIDTH and the peer's are out, the pair they name, the instant of
the failure, whether XOFF is in force, the frames that wait (departure instant, channel, bytes), the frame sent last with the
instant at which it ends, and the instant from which frames may go. -/
structure LegSt where
  sent : Option Nat
  rcvd : Option Nat
  failAt : Nat
  xoff : Bool
  queue : List (Nat × Nat × List Byte)
  last : Option ((Nat × Nat × List Byte) × Nat)
  openAt : Nat
  deriving DecidableEq, Repr

def LegSt.init : LegSt := ⟨none, none, 0, false, [], none, 0⟩

/-! ## Memory ports (R304 to R324) -/

/-- A read that waits at its port while a drain is in progress (R312, R313): its requester, the descriptor of a decode engine's, its
address and length, and the errors of its codewords. -/
structure WaitRead where
  q : Nat
  desc : Nat
  addr : Nat
  len : Nat
  errs : List Nat
  deriving DecidableEq, Repr

/-- A memory port beyond its registers (R311 to R321): queued writes as codeword address and requester, oldest first; the codewords
among them that were poisoned when a part write read them; the reads that wait for the end of a drain, oldest first; the bank and
row of the drain's last write; the watermark at which a drain in progress ends; the refresh debt in eighths of an all-bank refresh; requesters in panic and
the need level last seen of each; the open row per bank; corrupted codewords (first symbol and count, R481);
corrected codewords counted in a TB second; the start of a retraining sequence; the instants of the last forced refresh
and the last retraining step; and when a port that MEM_PORT_LOST told of tries again. -/
structure MpSt where
  queue : List (Nat × Nat)
  dirty : List Nat
  reads : List WaitRead
  lastRow : Option (Nat × Nat)
  drain : Option Nat
  owed : Nat
  panic : List Nat
  need : Tbl Nat
  rows : Tbl Nat
  bad : Tbl (Nat × Nat)
  ceSec : Nat × Nat
  since : Option Nat
  forcedAt : Option Nat
  stepAt : Option Nat
  next : Option Nat
  deriving DecidableEq, Repr

def MpSt.init : MpSt :=
  { queue := [], dirty := [], reads := [], lastRow := none, drain := none, owed := 0, panic := [], need := [], rows := [], bad := [], ceSec := (0, 0), since := none,
    forcedAt := none, stepAt := none, next := none }

/-- A Culm target (R288 to R297), or the arbiter of a Stolon link direction (R300): grants since the last longest-waiting
grant, the credit counters by requester, the grants each used in the window, pending requests (requester, beats, cycle
asserted), the owner with its beats and the cycle of its grant, the flits of credit per class that a link holds beside
the 256 of its training, the requests withdrawn by a mask (requester, beats), the revoked grants in a row of each requester's
operation, and the last cycle the target has seen. -/
structure Arb where
  c : Nat
  credit : Tbl Int
  used : Tbl Nat
  reqs : List (Nat × Nat × Nat)
  owner : Option (Nat × Nat × Nat)
  flits : Tbl Nat
  back : List (Nat × Nat)
  fails : Tbl Nat
  seen : Nat
  deriving DecidableEq, Repr

def Arb.init : Arb := ⟨0, [], [], [], none, [], [], [], 0⟩

/-! ## Protection (R264 to R287) -/

/-- A mirror record as the standby holds it (R270, R271): its fields in the order of R271's table, and its validity. -/
structure MirRec where
  seq : Nat
  gen : Nat
  kind : Nat
  fields : List Int
  ok : Bool
  deriving DecidableEq, Repr

/-- What the standby holds of a protected rendition (R270, R280): the two records, the emission word (EMIT_SEQ,
CH_GEN), the DU copies, and the slices of those that have arrived whole. -/
structure Mirror where
  rec0 : Option MirRec
  rec1 : Option MirRec
  emit : Option (Nat × Nat)
  dus : List Du
  got : List Nat
  deriving DecidableEq, Repr

def Mirror.init : Mirror := ⟨none, none, none, [], []⟩

/-- A slot of a protection group (R273 to R286), key group × 2 + slot: the declaration that waits for its grant, with cause
and instant; since when the returning region is READY; the instant at which a revert was scheduled, and the channels whose
handover record is written; whether it is a SWITCH; the instant of a declaration whose first resumed packet has not left;
and when the take-over was complete. -/
structure PgSlot where
  declared : Option (Nat × Nat)
  readySince : Option Nat
  revert : Option Nat
  handed : List Nat
  swit : Bool
  takeAt : Option Nat
  doneAt : Option Nat
  deriving DecidableEq, Repr

def PgSlot.init : PgSlot := ⟨none, none, none, [], false, none, none⟩

end Sys2Proof.Machine
end

