-- ==== Sys2Proof/Machine/State.lean ====
section
/-! DEFINITION. The state of the block: the waiting commands, region memory, the fuses, and everything else of
the device. Plain data. -/

namespace Sys2Proof.Machine

/-- No step of this block stops with a fault. -/
inductive Fault where
  deriving DecidableEq, Repr

/-- The reasons a command is refused. -/
inductive Refusal where
  /-- Raised by `exec` for a command without a meaning in the model (safe). -/
  | notModelled (mnemonic : String)
  deriving DecidableEq, Repr

/-- The device beyond region memory, the fuses and the queue. -/
structure Dev where
  /-- Register fields of BAR0 that differ from their reset values, by key. -/
  regs : Tbl Nat
  /-- Shadows of RWS fields written since they were last discarded (R395). -/
  shadow : Tbl Nat
  /-- Page commits waiting for their apply points (R395), by page. -/
  pend : Tbl Pend
  /-- LOCK.RESULT per page and writer (R389, R399): key page × 256 + owner ID. -/
  lockRes : Tbl Nat
  /-- The TB instant at which a held lock's lease ends (R399), by page; none listed: no expiry. -/
  lease : Tbl Nat
  /-- The snapshot of R392 per reader and word: key owner ID × 2^32 + address. -/
  snaps : Tbl Nat
  /-- Lower words of multi-word fields as last written per writer (R392): the same key. -/
  lowWords : Tbl Nat
  /-- Chain sets written since the COMPOSE lock was acquired (R401), by region × 32 + set. -/
  setsWritten : List Nat
  /-- The two host ports. -/
  hosts : Tbl HostP
  /-- Once-per-TB-second limits: the second in which a limited event was last raised. -/
  lastSec : Tbl Nat
  sys : Sys
  rgn : Tbl Rgn
  isl : Tbl Isl
  tbs : Tbl TbSt
  nvm : Nvm
  ref : RefSel
  ptp : Tbl PtpSt
  /-- The end of the phase correction in progress (R380). -/
  phaseEnd : Option Nat
  /-- The admission request that awaits its result (R58), and the TB ns at which it was written. -/
  adm : Option (AdmReq × Nat)
  /-- The TB ns at which each tag was last answered (R60). -/
  tags : Tbl Nat
  /-- Channels that are not FREE (R78), by ID. -/
  chans : Tbl Chan
  /-- Renditions in service, by channel × 8 + index. -/
  rends : Tbl Rend
  /-- Renditions that a MODIFY replaced and that still emit (R119), by the same key, with their status registers. -/
  olds : Tbl (Rend × Tbl Nat)
  /-- Statistics rings by channel × 8 + index (R157, R160): whether records are written, and whether one was lost. -/
  stats : Tbl (Bool × Bool)
  /-- Streams placed on decode engines, by region × 2048 + stream slot. -/
  strms : Tbl Strm
  /-- Decoder slots, by the same key. -/
  slots : Tbl DecSlot
  /-- Row jobs of coding engines, by region × 8 + engine. -/
  ces : Tbl CeJob
  /-- Jobs of decode engines, by region × 2 + engine. -/
  des : Tbl DeJob
  /-- Dispatchers, by region. -/
  ras : Tbl Rachis
  /-- Flows, by region × 2048 + flow ID. -/
  flows : Tbl Flow
  /-- Services (region × 256 + s) and ports (0x1000 + region × 16 + p) as scheduler nodes. -/
  nodes : Tbl Shp
  /-- Ports that send: by region × 16 + p, until when in ns, and the flow. -/
  busy : Tbl (Nat × Nat)
  /-- Lanes, by global number. -/
  lanes : Tbl LaneSt
  leg : LegSt
  /-- Policer buckets in 2^-16 byte, by region × 256 + entry: committed, then peak. -/
  pols : Tbl (Nat × Nat)
  /-- Memory ports, by region × 4 + port. -/
  mps : Tbl MpSt
  /-- Culm targets, by region × 16 + target; 8 + p is the outbound link of SPORT_p. -/
  arbs : Tbl Arb
  /-- What standbys hold, by channel × 8 + rendition. -/
  mirs : Tbl Mirror
  /-- Protection slots, by group × 2 + slot. -/
  pgs : Tbl PgSlot
  /-- The model's own counter of free values. -/
  free : Nat
  /-- Everything emitted, in order. -/
  out : List Out
  deriving DecidableEq, Repr

/-- The state of the block. -/
structure State where
  /-- The commands that wait, first in first out. -/
  pending : List Instr
  /-- Region memory: key region × 2^64 + address; a byte that is not listed reads 0x00. -/
  ram : List Host.Cell
  /-- The fuses. -/
  otp : Otp
  dev : Dev
  deriving DecidableEq, Repr

/-- The device right after the release of POR with native straps. DESIGN CHOICE: every island counts as reachable before any heartbeat can
have arrived (`reachLost` is empty, log entry 151), and registers without a reset value hold 0 (log entry 13). -/
def Dev.reset : Dev where
  regs := []
  shadow := []
  pend := []
  lockRes := []
  lease := []
  snaps := []
  lowWords := []
  setsWritten := []
  hosts := []
  lastSec := []
  sys :=
    { mode := 0, bootSel := 0, boardId := 0, strapErr := false, elected := false, electAt := none, firstElect := none, mediaOk := false,
      hostSeen := false, standalone := false, admOpen := false, chipFatal := false, bootSource := 0,
      bootSlot := 0, booted := false, bootFails := [], svnRun := [0, 0, 0], unlocked := false, chalLive := false, adj := none,
      linksDown := [], awnBroken := [], reachLost := [], heard := [], beats := [], spiLast := 0, cl4Cmd := none, cl4Run := [], tsOut := [] }
  rgn := []
  isl := []
  tbs := []
  nvm :=
    { recs := [], sectors := [], running := none, queue := [], buf := [], bufAt := [], nextSeq := 0,
      sectorSeq := 0, lostBefore := false, bootCount := 0, board := none, eqTable := none, pfail := false, pfailStart := 0, pfailLog := [],
      sevCnt := [], sumSeen := [], sumHour := [], checkAt := 0 }
  ref := { ents := [], pairs := [], edges := [], waiting := none, qlSel := 15, hist := [], acqSince := none, absorb := 0 }
  ptp := []
  phaseEnd := none
  adm := none
  tags := []
  chans := []
  rends := []
  olds := []
  stats := []
  strms := []
  slots := []
  ces := []
  des := []
  ras := []
  flows := []
  nodes := []
  busy := []
  lanes := []
  leg := LegSt.init
  pols := []
  mps := []
  arbs := []
  mirs := []
  pgs := []
  free := 0
  out := []

/-- The machine right after reset. -/
def State.reset : State where
  pending := []
  ram := []
  otp := { custKey := none, consent := false, svn := [0, 0, 0], serial := List.replicate 16 0, intact := true }
  dev := Dev.reset

end Sys2Proof.Machine
end

