-- ==== Sys2Proof/Machine/Ops.lean ====
section
/-! DEFINITION. The named operations every command is written in: reading and writing register fields, time,
free values, CRC-32C, the fault log, events with their rings and vectors, errors, and the page locks. -/

namespace Sys2Proof.Machine

/-! ## Register fields -/

/-- The active value of copy `i` of a field under a base. -/
def Dev.rd (d : Dev) (row : Row) (base : Nat) (i : Nat := 0) : Nat := stGet d.regs row base i

/-- Sets the active value of a field. -/
def Dev.wr (d : Dev) (row : Row) (base v : Nat) (i : Nat := 0) : Dev :=
  { d with regs := stSet d.regs row base i v }

/-- Sets a one-bit field. -/
def Dev.wrB (d : Dev) (row : Row) (base : Nat) (b : Bool) (i : Nat := 0) : Dev := d.wr row base (b2n b) i

/-- A counter that saturates at its field's width. -/
def Dev.incBy (d : Dev) (row : Row) (base n : Nat) (i : Nat := 0) : Dev :=
  d.wr row base (min (d.rd row base i + n) (2 ^ row.width - 1)) i

/-- A saturating count of one. -/
def Dev.inc (d : Dev) (row : Row) (base : Nat) (i : Nat := 0) : Dev := d.incBy row base 1 i

/-- A counter that wraps. -/
def Dev.incWrap (d : Dev) (row : Row) (base : Nat) (i : Nat := 0) : Dev :=
  d.wr row base (d.rd row base i + 1) i

/-- A field of an RWS register as its shadow reads (R395): the shadow where one was written, else the active value. -/
def Dev.rdS (d : Dev) (row : Row) (base : Nat) (i : Nat := 0) : Nat :=
  tget d.shadow (row.key base i) (d.rd row base i)

/-- Writes the shadow of an RWS field. -/
def Dev.wrS (d : Dev) (row : Row) (base v : Nat) (i : Nat := 0) : Dev :=
  { d with shadow := tput d.shadow (row.key base i) (v % 2 ^ row.width) }

/-- A signed reading of a field. -/
def Dev.rdI (d : Dev) (row : Row) (base : Nat) (i : Nat := 0) : Int := signed row.width (d.rd row base i)

/-- Writes a signed value. -/
def Dev.wrI (d : Dev) (row : Row) (base : Nat) (v : Int) (i : Nat := 0) : Dev :=
  d.wr row base (unsignedOf row.width v) i

/-- A _LO and _HI pair of 32-bit words. -/
def Dev.rdPair (d : Dev) (lo hi : Row) (base : Nat) (i : Nat := 0) : Nat :=
  d.rd lo base i + d.rd hi base i * 2 ^ 32

/-- A 64-bit value written over two words (R392). -/
def Dev.wrPair (d : Dev) (lo hi : Row) (base v : Nat) (i : Nat := 0) : Dev :=
  (d.wr lo base v i).wr hi base (v / 2 ^ 32) i

/-- Applies `f` once for each element. -/
def Dev.each {α : Type} (d : Dev) (l : List α) (f : Dev → α → Dev) : Dev := l.foldl f d

/-- `f` when `b` holds. -/
def Dev.when (d : Dev) (b : Bool) (f : Dev → Dev) : Dev := if b then f d else d

/-- Emits. -/
def Dev.emit (d : Dev) (o : Out) : Dev := { d with out := d.out ++ [o] }

/-- A fresh value that the spec leaves open, and the device with the counter advanced. -/
def Dev.freeVal (d : Dev) : Nat := Config.freeNat d.free

/-- The next free value's place. -/
def Dev.freeNext (d : Dev) : Dev := { d with free := d.free + 1 }

/-! ## Time -/

/-- The Sheaf Manager holder (R35). -/
def Dev.holder (d : Dev) : Nat := d.rd Reg.ELECT_HOLDER pSHM

/-- A region's timebase. -/
def Dev.tb (d : Dev) (r : Nat) : TbSt := tget d.tbs r ⟨0, 0⟩

/-- A region's TB in ns. -/
def Dev.tbNs (d : Dev) (r : Nat) : Nat := (d.tb r).cnt / 2 ^ 32

/-- The master's TB in ns: the package's time. -/
def Dev.now (d : Dev) : Nat := d.tbNs d.holder

/-- The increment in force (R36, R370), in 2^-32 ns. -/
def Dev.tbInc (d : Dev) : Nat := d.rdPair Reg.TB_INC_LO Reg.TB_INC_HI (blk d.holder ixTIMEBASE)

/-- The eight regions (R1). -/
def regions : List Nat := List.range 8

/-- The part of a slave's offset that the slew removes while `delta` passes: at most 100 ns per second (R37). -/
def TbSt.slew (x : TbSt) (delta : Nat) : Int := clampInt (-((delta / 10000000 : Nat) : Int)) ((delta / 10000000 : Nat) : Int) x.ofs

/-- A timebase after `delta` units of 2^-32 ns, slewed toward an offset of 0 (R36, R37). -/
def TbSt.run (x : TbSt) (delta : Nat) : TbSt := ⟨x.cnt + ((delta : Int) - x.slew delta).toNat, x.ofs - x.slew delta⟩

/-- Advances the master's timebase by `delta` units of 2^-32 ns, and every slave's at its slewed rate (R36, R37). -/
def Dev.advance (d : Dev) (delta : Nat) : Dev :=
  { d with tbs := regions.foldl (fun m r => tmod m r ⟨0, 0⟩ (fun x =>
      if r = d.holder then { x with cnt := x.cnt + delta } else x.run delta)) d.tbs }

/-- Time passes until the master's TB reads `t` ns; never back. -/
def Dev.advanceTo (d : Dev) (t : Nat) : Dev :=
  if (d.tb d.holder).cnt < t * 2 ^ 32 then d.advance (t * 2 ^ 32 - (d.tb d.holder).cnt) else d

/-- TB_STATUS.VALID (R368), as the master holds it. -/
def Dev.tbValid (d : Dev) : Bool := d.rd Reg.TB_STATUS_VALID (blk d.holder ixTIMEBASE) == 1

/-- The TB second. -/
def Dev.second (d : Dev) : Nat := d.now / 1000000000

/-- Whether limited event `key` may be raised in this TB second. -/
def Dev.mayRaise (d : Dev) (key : Nat) : Bool := tget? d.lastSec key != some d.second

/-- The TB second in which a limited event was raised (R403). -/
def Dev.markRaised (d : Dev) (key : Nat) : Dev := { d with lastSec := tput d.lastSec key d.second }

/-! ## Regions and islands -/

/-- A region's state. -/
def Dev.region (d : Dev) (r : Nat) : Rgn := tget d.rgn r Rgn.init

/-- A change of a region's state. -/
def Dev.setRegion (d : Dev) (r : Nat) (f : Rgn → Rgn) : Dev := { d with rgn := tmod d.rgn r Rgn.init f }

/-- An island's state. -/
def Dev.island (d : Dev) (i : Nat) : Isl := tget d.isl i Isl.init

/-- A change of an island's state. -/
def Dev.setIsland (d : Dev) (i : Nat) (f : Isl → Isl) : Dev := { d with isl := tmod d.isl i Isl.init f }

/-- A region is ACTIVE while its core runs and its power state is ACTIVE and stays so (R451); a failed region is not (R277). -/
def Dev.active (d : Dev) (r : Nat) : Bool :=
  (d.region r).core == .run && (d.region r).pwr == .active && (d.region r).target.isNone && !(d.region r).held
    && (d.region r).failedAt.isNone

/-- The key of what observer `obs` hears of `src` on a path (0 Awn, 1 Stolon). -/
def reachKey (obs src p : Nat) : Nat := (obs * 8 + src) * 2 + p

/-- The number of a heartbeat path (R28). -/
def pathNum : Path → Nat
  | .awn => 0
  | .stolon => 1

/-- R28: `src` is reachable from `obs` while a heartbeat has arrived on at least one path within 300 µs. -/
def Dev.reachable (d : Dev) (obs src : Nat) : Bool :=
  obs == src || !(d.sys.reachLost.contains (reachKey obs src 0) && d.sys.reachLost.contains (reachKey obs src 1))

/-- R29, R479: an island is healthy in the holder's view. -/
def Dev.healthy (d : Dev) (obs i : Nat) : Bool :=
  let x := d.island i
  x.aon && x.verified && !x.ue && d.reachable obs i

/-- Whether region block pages other than RGN and AWN answer (R26, R392). -/
def Dev.answers (d : Dev) (r : Nat) : Bool := d.active r && d.reachable d.holder r

/-! ## CRC-32C -/

/-- One bit of the reflected Castagnoli polynomial. -/
def crc32cBit (c : Nat) : Nat := if c % 2 = 1 then Nat.xor (c / 2) 0x82F63B78 else c / 2

/-- One byte of the CRC-32C. -/
def crc32cByte (c b : Nat) : Nat := (List.range 8).foldl (fun c _ => crc32cBit c) (Nat.xor c (b % 256))

/-- CRC-32C of a byte string (R214, R440, R484). -/
def crc32c (bytes : List Nat) : Nat := Nat.xor (bytes.foldl crc32cByte 0xFFFFFFFF) 0xFFFFFFFF

/-- `n` little-endian bytes of a number. -/
def leBytes (n v : Nat) : List Nat := (List.range n).map (fun i => v / 256 ^ i % 256)

/-- The number little-endian bytes spell. -/
def fromLE (bs : List Nat) : Nat := bs.foldr (fun b acc => b % 256 + 256 * acc) 0

/-- Exactly `n` bytes: cut, or padded with 0. -/
def padTo (n : Nat) (bs : List Nat) : List Nat := bs.take n ++ List.replicate (n - bs.length) 0

/-! ## Events (R402 to R409) -/

/-- A host port's state. -/
def Dev.host (d : Dev) (h : Nat) : HostP := tget d.hosts h HostP.init

/-- A change of a host port's state. -/
def Dev.setHost (d : Dev) (h : Nat) (f : HostP → HostP) : Dev := { d with hosts := tmod d.hosts h HostP.init f }

/-- EV_PEND of a page (R393). -/
def Dev.evPend (d : Dev) (page : Nat) : Nat :=
  Nat.land (d.rd Reg.EV_RAW page) (2 ^ 32 - 1 - d.rd Reg.EV_MASK page)

/-- Whether source `s` is mapped on port `h`, and its vector (R409). -/
def Dev.mapped (d : Dev) (s h : Nat) : Bool :=
  d.rd (if h = 0 then Reg.EVT_VEC_EN_A else Reg.EVT_VEC_EN_B) pEVTREE s == 1

/-- The vector of an event source on a host port (R407). -/
def Dev.vecOf (d : Dev) (s h : Nat) : Nat :=
  d.rd (if h = 0 then Reg.EVT_VEC_VEC_A else Reg.EVT_VEC_VEC_B) pEVTREE s

/-- Whether a vector is armed (R407). -/
def Dev.armed (d : Dev) (h v : Nat) : Bool :=
  bitOf (d.rd (if v < 32 then Reg.EVT_ARM_LO else Reg.EVT_ARM_HI) pEVTREE h) (v % 32)

/-- A vector armed or disarmed (R407). -/
def Dev.setArmed (d : Dev) (h v : Nat) (b : Bool) : Dev :=
  let row := if v < 32 then Reg.EVT_ARM_LO else Reg.EVT_ARM_HI
  d.wr row pEVTREE (setBit (d.rd row pEVTREE h) (v % 32) b) h

/-- The NOR sources of BOOT_SEL in order (R429); PCIe comes last. -/
def bootOrder (sel : Nat) : List Nat := if sel = 1 then [] else if sel = 2 then [1, 0] else [0, 1]

/-- The NOR source that the boot ROM tries (R429, R430): the first of which it has not rejected both slots. -/
def Dev.bootNext (d : Dev) : Option Nat :=
  (bootOrder d.sys.bootSel).find? (fun s => !(d.sys.bootFails.contains (2 * s) && d.sys.bootFails.contains (2 * s + 1)))

/-- The boot ROM waits for PCIe boot (R430). -/
def Dev.bootWaits (d : Dev) : Bool := !d.sys.booted && d.bootNext.isNone

/-- Whether the host port's region is ACTIVE (R388). HOST_A is served by region 0 and HOST_B by region 1; in
CL-4-only mode HOST_B is down. While the boot ROM waits for PCIe boot, and until region 0 first runs after it, HOST_A
reaches the chip pages (R430); a WARM reset keeps both links (R448). -/
def Dev.portUp (d : Dev) (h : Nat) : Bool :=
  (d.host h).linkUp && !(h == 1 && d.sys.mode == 1)
    && (d.active h || (d.region h).core == .warm
      || (h == 0 && (d.bootWaits || (d.sys.booted && d.sys.bootSource == 2 && (d.region 0).core == .reset && (d.region 0).failedAt.isNone))))

/-- Signals vector `v` of port `h` (R407): nothing unless it is armed and the port is up; a masked vector is held
in the pending bit array; either way it is disarmed. -/
def Dev.signal (d : Dev) (h v : Nat) : Dev :=
  if !(d.armed h v) || !(d.portUp h) then d
  else
    let d := d.setArmed h v false
    if bitOf (d.host h).vecMask v then d.setHost h (fun p => { p with pba := setBit p.pba v true })
    else d.emit (.msix h v)

/-- Whether the ring of port `h` has room for a record (R406). -/
def Dev.ringRoom (d : Dev) (h : Nat) : Bool :=
  let size := d.rd Reg.EVR_SIZE pEVTREE h
  32 ≤ ((d.rd Reg.EVR_RD pEVTREE h : Int) - (d.rd Reg.EVR_WR pEVTREE h : Int) - 32) % (size : Int)

/-- Writes one record to the ring of port `h`, or counts it lost (R406). -/
def Dev.ringWrite (d : Dev) (h src bit obj info err : Nat) (inj : Bool) : Dev :=
  if d.rd Reg.EVR_CTRL_EN pEVTREE h == 1 && d.mapped src h then
    if d.portUp h && d.ringRoom h then
      let p := d.host h
      let w := d.rd Reg.EVR_WR pEVTREE h
      let e : EvRec := ⟨p.seq, src, bit, b2n inj + 2 * b2n p.lostBefore, d.now, obj, info, err⟩
      let d := d.emit (.ring h w e)
      let d := d.wr Reg.EVR_WR pEVTREE ((w + 32) % d.rd Reg.EVR_SIZE pEVTREE h) h
      d.setHost h (fun p => { p with seq := (p.seq + 1) % 2 ^ 32, lostBefore := false })
    else (d.inc Reg.EVR_LOST pEVTREE h).setHost h (fun p => { p with lostBefore := true })
  else d

/-- Whether the ring of port `h` would lose a record of `src`. -/
def Dev.ringLoses (d : Dev) (h src : Nat) : Bool :=
  d.rd Reg.EVR_CTRL_EN pEVTREE h == 1 && d.mapped src h && !(d.portUp h && d.ringRoom h)

/-- One occurrence of an event bit (R403, R405 to R407): the bit is set; while it is unmasked the records are
written first, and if the source thereby becomes pending its vectors are signalled after them. -/
def Dev.occur (d : Dev) (page bit obj info err : Nat) (inj : Bool) : Dev :=
  let before := d.evPend page
  let src := sourceOf page
  let d := d.wr Reg.EV_RAW page (setBit (d.rd Reg.EV_RAW page) bit true)
  if bitOf (d.rd Reg.EV_MASK page) bit then d
  else
    let d := (d.ringWrite 0 src bit obj info err inj).ringWrite 1 src bit obj info err inj
    if before = 0 then
      let d := d.when (d.mapped src 0) (fun d => d.signal 0 (d.vecOf src 0))
      d.when (d.mapped src 1) (fun d => d.signal 1 (d.vecOf src 1))
    else d

/-- EVR_OVF for port `h`, at most once per TB second (R406). -/
def Dev.evrOvf (d : Dev) (h : Nat) : Dev :=
  if d.mayRaise (0x100 + h) then
    (d.markRaised (0x100 + h)).occur pEVTREE 0 h (d.rd Reg.EVR_LOST pEVTREE h) 0 false
  else d

/-- An event of a page with its record fields (R403). -/
def Dev.event (d : Dev) (page bit obj info : Nat) (err : Nat := 0) (inj : Bool := false) : Dev :=
  let unmasked := !(bitOf (d.rd Reg.EV_MASK page) bit)
  let l0 := unmasked && d.ringLoses 0 (sourceOf page)
  let l1 := unmasked && d.ringLoses 1 (sourceOf page)
  let d := d.occur page bit obj info err inj
  (d.when l0 (fun d => d.evrOvf 0)).when l1 (fun d => d.evrOvf 1)

/-- EVT_SUM (R404): bit n while a source of region n is pending, bit 8 while a chip source is. -/
def Dev.evtSum (d : Dev) : Nat :=
  let reg (n : Nat) : Bool := (List.range 0x34).any (fun ix => blockExists ix && d.evPend (blk n ix) != 0)
  let chip := (List.range 10).any (fun j => d.evPend (chipPage j) != 0)
  regions.foldl (fun acc n => acc + b2n (reg n) * 2 ^ n) 0 + b2n chip * 256

/-- EVENT_N is driven low (R408, R479). -/
def Dev.eventLow (d : Dev) : Bool :=
  d.sys.chipFatal || Nat.land d.evtSum (d.rd Reg.EVT_PIN_PIN_EN pEVTREE) != 0

/-- The bytes of an entry before its CRC (R484). -/
def LogEntry.body (e : LogEntry) : List Nat :=
  leBytes 4 e.seq ++ [e.kind, e.sev, e.region, e.flags] ++ leBytes 8 e.tb ++ leBytes 4 e.boot ++ leBytes 2 e.src
    ++ [e.code, 0] ++ leBytes 4 e.info ++ leBytes 4 e.obj ++ padTo 24 e.detail ++ leBytes 2 e.tj ++ [0, 0]

/-- The 64 bytes of a log entry (R484). -/
def LogEntry.bytes (e : LogEntry) : List Nat := e.body ++ leBytes 4 e.crc

/-! ## Stores (R439 to R442, R482) -/

/-- A change of the NVM's state. -/
def Dev.setNvm (d : Dev) (f : Nvm → Nvm) : Dev := { d with nvm := f d.nvm }

/-- Serial-number order modulo 2^32 (R440): whether `a` is newer than `b`. -/
def newer32 (a b : Nat) : Bool := a != b && (a + 2 ^ 32 - b) % 2 ^ 32 < 2 ^ 31

/-- The newest valid copy of a record, and which copy it is (R440). -/
def Dev.newest (d : Dev) (rec_ : Nat) : Option (Nat × RecCopy) :=
  let ok (i : Nat) : Option (Nat × RecCopy) := ((tget? d.nvm.recs (2 * rec_ + i)).filter (·.ok)).map (fun x => (i, x))
  match ok 0, ok 1 with
  | some a, some b => if newer32 b.2.seq a.2.seq then some b else some a
  | some a, none => some a
  | none, b => b

/-- A little-endian field of `n` bytes of the board record in use (R490); 0 without one. -/
def Dev.boardAt (d : Dev) (off n : Nat) : Nat := fromLE (((d.nvm.board.getD []).drop off).take n)

/-- Twice the energy E of R441 in pJ, C × (V² − V_min²); a voltage below V_min gives 0. None without a board record. -/
def Dev.twiceE (d : Dev) : Option Nat :=
  let v := d.rd Reg.HU_SENSE_MV pHOLDUP
  let m := d.boardAt 0x14 4
  if d.nvm.board.isSome then some (d.boardAt 0x10 4 * (v * v - m * m)) else none

/-- E in mJ as events carry it. -/
def Dev.energyMj (d : Dev) : Nat := (d.twiceE.getD 0) / 2000000000

/-- The check of R441 for a store: E ≥ 1.5 × E_need; always passed without a board record (R490). -/
def Dev.enough (d : Dev) (sectors bytes : Nat) : Bool :=
  match d.twiceE with
  | some e => 3 * (sectors * d.boardAt 0x1C 4 * 1000000 + bytes * d.boardAt 0x20 4) ≤ e
  | none => true

/-- NVM_LOG_TAIL: the oldest entry held (R485). -/
def Dev.syncTail (d : Dev) : Dev :=
  match d.nvm.sectors.flatten ++ d.nvm.buf with
  | e :: _ => d.wr Reg.NVM_LOG_TAIL pNVM e.seq
  | [] => d

/-- An entry of the fault log with its CRC, from the next number (R484). -/
def Dev.logEntry (d : Dev) (kind sev region src code info obj flags : Nat) (detail : List Nat) : LogEntry :=
  let e : LogEntry :=
    { seq := d.nvm.nextSeq, kind := kind, sev := sev, region := region,
      flags := flags + (if d.nvm.lostBefore then 2 else 0), tb := if d.tbValid then d.now else 0,
      boot := d.nvm.bootCount, src := src, code := code, info := info, obj := obj, detail := detail,
      tj := if region < 8 then unsignedOf 16 (d.rdI Reg.RGN_TEMP_TJ (blk region ixRGN)) else 0, crc := 0 }
  { e with crc := crc32c e.body }

/-- Puts an entry into the buffer of 256 entries, or counts it lost (R483). -/
def Dev.logPut (d : Dev) (e : LogEntry) : Dev :=
  if 256 ≤ d.nvm.buf.length then
    (d.inc Reg.NVM_LOG_LOST pNVM).setNvm (fun n => { n with lostBefore := true })
  else
    let d := (d.wr Reg.NVM_LOG_HEAD pNVM e.seq).setNvm (fun n =>
      { n with buf := n.buf ++ [e], bufAt := n.bufAt ++ [d.now], nextSeq := (n.nextSeq + 1) % 2 ^ 32, lostBefore := false })
    d.syncTail

/-- The PFAIL entries that the next fault-log store records (R442): kind 4, with the interval's start and end. -/
def Dev.pfailEntries (d : Dev) : Dev :=
  d.nvm.pfailLog.foldl (fun d x => d.logPut (d.logEntry 4 0 0xF (sourceOf pHOLDUP) 0 0 0 0 (leBytes 8 x.1 ++ leBytes 8 x.2)))
    (d.setNvm (fun n => { n with pfailLog := [] }))

/-- The entries of the sector that a store of the fault log writes (R442, R482): the oldest 63 of the buffer, with the `k`
newest entries, those of the power-fail intervals, among them. -/
def sectorOf (buf : List LogEntry) (k : Nat) : List LogEntry :=
  if buf.length ≤ 63 then buf else buf.take (63 - k) ++ buf.drop (buf.length - k)

/-- A store starts (R440, R442, R482): the copy without the newest valid version is erased; the fault log's ring gives up its
oldest of 1,792 sectors. -/
def Dev.storeStart (d : Dev) (j : StoreJob) (rest : List StoreJob) : Dev :=
  let defer := setBit (d.rd Reg.NVM_STAT_DEFER pNVM) j.record false
  let d := ((d.wr Reg.NVM_STAT_BUSY pNVM 1).wr Reg.NVM_STAT_RECORD pNVM j.record).wr Reg.NVM_STAT_DEFER pNVM defer
  if j.record = 5 then
    let k := min d.nvm.pfailLog.length 63
    let d := d.pfailEntries
    let mine := sectorOf d.nvm.buf k
    let left := d.nvm.buf.filter (fun e => j.entries.contains e && !(mine.contains e))
    let next : List StoreJob := if left.isEmpty then rest else { j with entries := left, deferred := false } :: rest
    (d.setNvm (fun n =>
      { n with running := some { j with entries := mine, deferred := false }, queue := next,
               sectors := n.sectors.drop (n.sectors.length - 1791) })).syncTail
  else
    let copy := match d.newest j.record with
      | some (0, _) => 1
      | _ => 0
    d.setNvm (fun n =>
      { n with running := some { j with deferred := false }, queue := rest, recs := tdel n.recs (2 * j.record + copy) })

/-- The first waiting store starts when none runs, PFAIL_N is high and the energy suffices; else it is deferred (R440 to
R442). -/
def Dev.storeNext (d : Dev) : Dev :=
  let d := d.when (d.nvm.buf.isEmpty && d.nvm.pfailLog.isEmpty) (fun d =>
    d.setNvm (fun n => { n with queue := n.queue.filter (fun j => j.record != 5) }))
  match d.nvm.running, d.nvm.queue with
  | none, j :: rest =>
    let sectors := j.sectors
    let bytes := if j.record = 5 then 56 + 64 * min 63 (d.nvm.buf.length + d.nvm.pfailLog.length) else j.bytes
    if d.nvm.pfail = false ∧ d.enough sectors bytes = true then d.storeStart j rest
    else
      let d := d.setNvm (fun n => { n with queue := { j with deferred := true } :: rest, checkAt := d.now })
      let d := d.wr Reg.NVM_STAT_DEFER pNVM (setBit (d.rd Reg.NVM_STAT_DEFER pNVM) j.record true)
      if j.deferred || d.nvm.pfail then d else d.event pNVM 1 j.record d.energyMj
  | _, _ => d

/-- A store is requested (R441): a deferred one of the same record takes the new content and keeps its place; the fault log
waits once, with every entry that is to be stored. `first` puts it before the others (R487). -/
def Dev.storeReq (d : Dev) (j : StoreJob) (first : Bool := false) : Dev :=
  let same (x : StoreJob) : Bool := x.record == j.record && (x.deferred || j.record == 5)
  let q := d.nvm.queue
  let q :=
    if first then
      let d0 := (q.find? same).map (·.deferred)
      { j with deferred := d0.getD false } :: q.filter (fun x => !(same x))
    else if q.any same then q.map (fun x => if same x then { j with deferred := x.deferred } else x)
    else q ++ [j]
  (d.setNvm (fun n => { n with queue := q })).storeNext

/-- The store of the buffered entries (R483). -/
def Dev.logStore (d : Dev) (first : Bool := false) : Dev :=
  d.storeReq { record := 5, body := [], sectors := 1, bytes := 0, deferred := false, entries := d.nvm.buf } first

/-- Buffered entries that no running store holds. -/
def Dev.unstored (d : Dev) : List LogEntry :=
  match d.nvm.running with
  | some j => d.nvm.buf.filter (fun e => !(j.entries.contains e))
  | none => d.nvm.buf

/-! ## Fault log (R483, R484) -/

/-- A new entry of the fault log; the store that 63 entries cause (R483), or a fatal error while a store runs (R487). -/
def Dev.logAdd (d : Dev) (kind sev region src code info obj flags : Nat) (detail : List Nat) : Dev :=
  let d := d.logPut (d.logEntry kind sev region src code info obj flags detail)
  if 63 ≤ d.unstored.length then d.logStore
  else if 3 ≤ sev ∧ d.nvm.running.isSome = true then d.logStore true
  else d

/-! ## Errors (R393, R478) -/

/-- An error of R478 on a page: ERR_CODE, ERR_INFO, ERR_COUNT, the ERR event, and the fault log for degraded
class and above (R477, R483). -/
def Dev.err (d : Dev) (page code sev info : Nat) (inj : Bool := false) (detail : List Nat := []) (obj : Nat := 0) : Dev :=
  let d := d.wr Reg.ERR_CODE_CODE page code
  let d := d.wr Reg.ERR_CODE_SEVERITY page sev
  let d := d.wr Reg.ERR_INFO page info
  let d := d.inc Reg.ERR_COUNT page
  let d := d.when (decide (sev < 2)) (fun d => d.setNvm (fun n =>
    { n with sevCnt := tmod n.sevCnt ((regionOf page).getD 0xF) (0, 0) (fun x => (x.1 + (1 - sev), x.2 + sev)) }))
  let d := d.when (2 ≤ sev) (fun d =>
    d.logAdd 1 sev ((regionOf page).getD 0xF) (sourceOf page) code info obj (b2n inj) detail)
  d.event page 31 info 0 (code + sev * 256) inj

/-- An ignored write, counted with a code whose severity and detail the spec does not give: those two are free
values. -/
def Dev.ignored (d : Dev) (page code : Nat) : Dev :=
  let sev := d.freeVal % 8
  let d := d.freeNext
  let info := d.freeVal % 2 ^ 32
  let d := d.freeNext
  let d := d.wr Reg.ERR_CODE_CODE page code
  let d := d.wr Reg.ERR_CODE_SEVERITY page sev
  let d := d.wr Reg.ERR_INFO page info
  let d := d.inc Reg.ERR_COUNT page
  d.event page 31 info 0 (code + sev * 256)

/-- An ignored write that is counted, where the rule names no code. -/
def Dev.countErr (d : Dev) (page : Nat) : Dev := d.inc Reg.ERR_COUNT page

/-- NOT_OWNER (R478). -/
def cNotOwner : Nat := 0x35
/-- OP_INVALID (R478). -/
def cOpInvalid : Nat := 0x13
/-- ACCESS_INVALID (R478). -/
def cAccessInvalid : Nat := 0x49
/-- BLOCK_BUSY (R478). -/
def cBlockBusy : Nat := 0x4A
/-- SUSPECT (R478). -/
def cSuspect : Nat := 0x48

/-! ## The CL-4 personality's alarms (R415) -/

/-- The base under which the control port's registers are kept; an SPI address is an offset. -/
def cl4B : Nat := 0x80000000

/-- Whether the personality runs (R5 to R7). -/
def Dev.cl4On (d : Dev) : Bool := d.sys.mode == 1 || d.sys.mode == 2

/-- An ALARM bit is set, and with it IRQ_STAT.ALARM. -/
def Dev.cl4Alarm (d : Dev) (row : Row) (bits : Nat) : Dev :=
  if d.cl4On then (d.wr row cl4B (Nat.lor (d.rd row cl4B) bits)).wr Reg.IRQ_STAT_ALARM cl4B 1 else d

/-- The ALARM bit of CL-4 channel `c` (R415). -/
def Dev.cl4Chan (d : Dev) (row : Row) (c : Nat) : Dev := if c < 4 then d.cl4Alarm row (2 ^ c) else d

/-! ## Page locks (R398 to R401) -/

/-- Whether an owner ID is a host's (R398). -/
def isHost (w : Nat) : Bool := w == 1 || w == 2

/-- The firmware owner ID of region `r`. -/
def fwOf (r : Nat) : Nat := 0x10 + r

/-- Whether a writer holds a page's lock (R398). -/
def Dev.owns (d : Dev) (w page : Nat) : Bool := w != 0 && d.rd Reg.LOCK_OWNER page == w

/-- The lease starts again (R399): nothing expires while LEASE_MS is 0. -/
def Dev.restartLease (d : Dev) (page : Nat) : Dev :=
  let ms := d.rd Reg.LOCK_LEASE_LEASE_MS page
  if ms = 0 then { d with lease := tdel d.lease page }
  else { d with lease := tput d.lease page (d.now + ms * 1000000) }

/-- A lock breaks (R400). -/
def Dev.breakLock (d : Dev) (page : Nat) : Dev :=
  let old := d.rd Reg.LOCK_OWNER page
  if old = 0 then d
  else
    let d := d.wr Reg.LOCK_OWNER page 0
    let d := d.wr Reg.LOCK_BROKEN page 1
    let d := d.wr Reg.STATUS_SUSPECT page 1
    let d := d.wr Reg.LOCK_LAST_OWNER page old
    let d := { d with lease := tdel d.lease page }
    d.event page 29 old 0

/-- A lock whose lease has run out breaks before anything else happens to its page (R400, R410). -/
def Dev.expire (d : Dev) (page : Nat) : Dev :=
  match tget? d.lease page with
  | some e => if e ≤ d.now ∧ d.rd Reg.LOCK_OWNER page ≠ 0 then d.breakLock page else d
  | none => d

/-- A write to a page that needs no lock restarts the owner's lease too (R399); an expired lease breaks the lock first. -/
def Dev.touch (d : Dev) (w page : Nat) : Dev :=
  let d := d.expire page
  if d.owns w page then d.restartLease page else d

/-- The outcome of the lock rules for a write that needs the lock. -/
inductive Gate where
  | open_ | notOwner | suspect | dead
  deriving DecidableEq, Repr

/-- Whether the page answers the writer at all (R26, R388, R392, R430): a host's port must be up, and a region page's
region must answer; RGN and AWN answer while their island is reachable. Before the boot only the chip pages are served. -/
def Dev.pageAnswers (d : Dev) (w page : Nat) : Bool :=
  (!(isHost w) || d.portUp (w - 1)) &&
    match regionOf page with
    | none => true
    | some r =>
      if page % 0x04000000 / 0x1000 = ixRGN ∨ page % 0x04000000 / 0x1000 = ixAWN then d.sys.booted && d.reachable d.holder r
      else d.answers r

/-- R398, R400: a write that needs the lock, from writer `w`. -/
def Dev.gate (d : Dev) (w page : Nat) : Gate :=
  if !(d.pageAnswers w page) then .dead
  else if d.rd Reg.STATUS_SUSPECT page == 1 then .suspect
  else if d.owns w page then .open_
  else .notOwner

/-- A command written to a page under its lock (R398): another writer's is ignored and counted with NOT_OWNER,
a suspect page ignores it with PAGE_SUSPECT, and the owner's restarts the lease (R399). Where no page exists nothing
answers (R391, R392). -/
def Dev.locked (d : Dev) (w page : Nat) (f : Dev → Dev) : Dev :=
  if !(isPage page) then d
  else
    let d := d.expire page
    match d.gate w page with
    | .dead => d
    | .suspect => d.ignored page cSuspect
    | .notOwner => d.ignored page cNotOwner
    | .open_ => f (d.restartLease page)

/-! ## Applying commands -/

/-- A command whose effect lies in the device alone. -/
def State.onDev (s : State) (f : Dev → Dev) : Host.Outcome State Fault Refusal :=
  .next { s with dev := f s.dev }

end Sys2Proof.Machine
end

