-- ==== Sys2Proof/Machine/Clock.lean ====
section
/-! DEFINITION. The passing of one timebase clock (R36). -/

namespace Sys2Proof.Machine

/-- One 500 MHz timebase clock: TB_INC is added to every region's timebase (R36). -/
def State.clock (s : State) : State := { s with dev := s.dev.advance s.dev.tbInc }

end Sys2Proof.Machine
end

