-- ==== Sys2Proof/Machine/RegRead.lean ====
section
/-! DEFINITION. What a BAR0 read returns (R12, R26, R388, R389, R392, R404): stored fields, and the fields the
device computes at the moment of the read. -/

namespace Sys2Proof.Machine

/-- The offset of a word in its page. -/
def pageOff (addr : Nat) : Nat := addr % 0x1000

/-- PAGE_ID of a page (R393). -/
def pageId (page : Nat) : Nat :=
  match placeOf page with
  | .chip j => 0x0200 + j + 0xF * 2 ^ 24
  | .block r ix =>
    let first := if 3 ≤ ix ∧ ix ≤ 6 then 3 else if 8 ≤ ix ∧ ix ≤ 0xF then 8 else if ix = 0x11 then 0x10
      else if ix = 0x15 then 0x14 else if 0x20 ≤ ix ∧ ix ≤ 0x2F then 0x20 else if 0x30 ≤ ix then 0x30 else ix
    0x0100 + first + (ix - first) * 2 ^ 16 + r * 2 ^ 24
  | _ => 0

/-! ## Ports (R325, R327) -/

/-- A lane's mode (R325). -/
def Dev.lnMode (d : Dev) (g : Nat) : Nat := d.rd Reg.LN_CFG_MODE (lanePage g)

/-- A lane's rate (R325). -/
def Dev.lnRate (d : Dev) (g : Nat) : Nat := d.rd Reg.LN_CFG_RATE (lanePage g)

/-- The lanes of a width code. -/
def widthOf (v : Nat) : Nat := 2 ^ v

/-- For each lane of a region the first lane of its port (R327). -/
def Dev.owners (d : Dev) (r : Nat) : List Nat :=
  (List.range 16).foldl (fun acc n =>
    let f := acc.getD (n - 1) n
    let inside := n != 0 && d.lnMode (r * 16 + f) == 1 && decide (n < f + widthOf (d.rd Reg.LN_PORT_WIDTH (lanePage (r * 16 + f))))
    acc ++ [if inside then f else n]) []

/-- The port that a lane belongs to (R325). -/
def Dev.owner (d : Dev) (r n : Nat) : Nat := (d.owners r).getD n n

/-- Whether an Ethernet port starts at lane `p`. -/
def Dev.isEth (d : Dev) (r p : Nat) : Bool := p < 16 && d.lnMode (r * 16 + p) == 1 && d.owner r p == p

/-- The rate class of the Ethernet port that starts at a global lane, in Gb/s (R327). -/
def Dev.portGbE (d : Dev) (g : Nat) : Nat := widthOf (d.rd Reg.LN_PORT_WIDTH (lanePage g)) * 25 * 2 ^ d.lnRate g

/-! ## Computed fields -/

/-- The lease left on a held page lock, in ms (R393). -/
def Dev.leaseLeft (d : Dev) (page : Nat) : Nat :=
  match tget? d.lease page with
  | some e => (e - d.now) / 1000000
  | none => 0

/-- The four words of TB_NOW with TB_STATUS (R36, R369, R384): fraction, nanoseconds, seconds. -/
def Dev.tbWords (d : Dev) (r : Nat) : List Nat :=
  let u := (d.tb r).cnt / 2 ^ 16
  let ns := u / 2 ^ 16
  let sec := ns / 1000000000 % 2 ^ 48
  let nsec := ns % 1000000000
  [u % 2 ^ 16 + nsec % 2 ^ 16 * 2 ^ 16, nsec / 2 ^ 16 + sec % 2 ^ 16 * 2 ^ 16, sec / 2 ^ 16]

/-- TB_STATUS of region `r` (R384): whether any channel is rephased is read from the CH_RHO registers. -/
def Dev.tbStatus (d : Dev) (r : Nat) : Nat :=
  let master := d.holder == r
  let rephased := (List.range 128).any (fun c => d.rdPair Reg.CH_RHO_LO Reg.CH_RHO_HI pPTP c != 0)
  b2n d.tbValid + 2 * b2n master + 4 * b2n (master || (d.tb r).ofs.natAbs ≤ 2 * 2 ^ 32)
    + 8 * b2n (d.tbInc != 2 ^ 33) + 16 * b2n rephased

/-- The chain sets that a region's channels name (R106): applied and pending layer entries, admitted renditions, and those
of an accepted MODIFY. -/
def Dev.lutInUse (d : Dev) (r : Nat) : List Nat :=
  d.chans.flatMap (fun x =>
    let c := x.1
    let ch := x.2
    let st := d.rd Reg.CH_STATE_STATE (wCHSTAT c)
    if 1 ≤ st && st ≤ 3 && ch.regions.contains r then
      let lays (f : Row → Nat → Nat) : List Nat := (List.range 8).filterMap (fun l =>
        if f Reg.LY_CTRL_CHAIN_EN l = 1 then some (f Reg.LY_CTRL_LUT_SET l) else none)
      let pend (p : Option (Tbl Nat)) : List Nat := match p with
        | none => []
        | some vals => lays (fun row l => tget vals (row.key (wLY c l) 0) 0)
      let rends (g : Tbl Nat) : List Nat := (List.range (min 8 (stGet g Reg.ENC_CH_NUM_REND 0 0))).filterMap (fun rd =>
        if stGet g Reg.RN_CTRL_CHAIN_EN (stRN rd) 0 = 1 then some (stGet g Reg.RN_CTRL_LUT_SET (stRN rd) 0) else none)
      lays (fun row l => d.rd row (wLY c l)) ++ pend (ch.lyPend.map (·.2)) ++ rends ch.cfg
        ++ ((ch.next.map rends).getD []) ++ ch.prev.flatMap (fun p => rends p.2)
    else [])

/-- A word of active values. -/
def Dev.activeWord (d : Dev) (addr : Nat) : Nat :=
  (slotsAt addr).foldl (fun acc s => acc + d.rd s.row s.base s.ix * 2 ^ s.shift) 0

/-- The port of region `r` that has no Stolon link (R20, R301): its slot tables read 0. -/
def noLink (r p : Nat) : Bool :=
  (p == 0 && r % 4 == 0) || (p == 1 && r % 4 == 3)

/-- The channel whose window entry lies at offset `o` of a region (R81, R92, R95, R147, R156, R191, R247). -/
def winChan (o : Nat) : Option Nat :=
  if o < 0x01000000 then none
  else if o < 0x01002000 then some ((o - 0x01000000) / 0x40)
  else if 0x01004000 ≤ o ∧ o < 0x01024000 then some ((o - 0x01004000) / 0x400)
  else if 0x01030000 ≤ o ∧ o < 0x01060000 then some ((o % 0x10000) / 0x200)
  else if 0x010B0000 ≤ o ∧ o < 0x010B4000 then some ((o - 0x010B0000) / 0x80)
  else none

/-- Whether an address names a channel's window entry in a region that does not lead the channel: it reads 0 there (R81, R191). -/
def Dev.elsewhere (d : Dev) (addr : Nat) : Bool :=
  match (winChan (addr % 0x04000000)).bind (tget? d.chans) with
  | some ch => 0x04000000 ≤ addr && addr < winBase && ch.regions.headD 0 + 1 != addr / 0x04000000
  | none => false

/-- The words of the windows that the device computes: the active slot tables (R258, R301). -/
def Dev.derivedWin (d : Dev) (r addr : Nat) : Option Nat :=
  let o := addr % 0x04000000
  if d.elsewhere addr then some 0
  else if 0x010C8000 ≤ o ∧ o < 0x010D0000 then some (d.activeWord (addr - 0x8000))
  else if 0x010D1000 ≤ o ∧ o < 0x010D1C00 then
    some (if noLink r ((o - 0x010D1000) / 0x400) then 0 else d.activeWord (addr - 0x1000))
  else if 0x010D0000 ≤ o ∧ o < 0x010D0C00 ∧ noLink r ((o - 0x010D0000) / 0x400) = true then some 0
  else none

/-- The registers of a page that the device computes when they are read. -/
def Dev.derived (d : Dev) (w addr : Nat) : Option Nat :=
  let o := pageOff addr
  match placeOf addr with
  | .win r _ _ _ => d.derivedWin r addr
  | .nowhere => none
  | pl =>
    let page := addr - o
    let common : Option Nat :=
      if o = 0 then some (pageId page)
      else if o = 0x18 then some (d.evPend page)
      else if o = 0x38 then
        some (d.rd Reg.LOCK_OWNER page + d.rd Reg.LOCK_RECOVER page * 2 ^ 10 + d.rd Reg.LOCK_BROKEN page * 2 ^ 11
          + tget d.lockRes (page * 256 + w) 0 * 2 ^ 12 + d.rd Reg.LOCK_LAST_OWNER page * 2 ^ 16)
      else if o = 0x3C then some (d.rd Reg.LOCK_LEASE_LEASE_MS page + min (d.leaseLeft page) 0xFFFF * 2 ^ 16)
      else none
    match common, pl with
    | some v, _ => some v
    | none, .chip j =>
      if j = 9 then
        if 0x100 ≤ o ∧ o < 0x140 then
          some ((List.range 32).foldl (fun acc b =>
            match pageOfSource ((o - 0x100) / 4 * 32 + b) with
            | some p => acc + b2n (d.evPend p != 0) * 2 ^ b
            | none => acc) 0)
        else if o = 0x140 then some d.evtSum
        else if o = 0x144 then some (d.rd Reg.EVT_PIN_PIN_EN pEVTREE + b2n d.eventLow * 2 ^ 16)
        else none
      else if j = 0 ∧ o = 0x200 then
        let b := if w = 2 then hostBPage else pSHM
        some (d.rd Reg.BAR2_APER_REGION b + d.rd Reg.BAR2_APER_BASE_GIB b * 256)
      else if j = 0 ∧ o = 0x210 then
        some (d.rd Reg.RST_INFO_LAST pSHM + d.rd Reg.RST_INFO_WARM_COUNT pSHM * 256
          + regions.foldl (fun acc r => acc + b2n ((d.region r).pwr == .park) * 2 ^ (16 + r)) 0)
      else if j = 1 ∧ 0xC00 ≤ o then some (Config.deviceCert ((o - 0xC00) / 4) % 2 ^ 32)
      else none
    | none, .block r ix =>
      if ix = ixRGN ∧ o = 0x100 then
        some ((List.range 32).foldl (fun acc b => acc + b2n (blockExists b && d.evPend (blk r b) != 0) * 2 ^ b) 0)
      else if ix = ixRGN ∧ o = 0x104 then
        some ((List.range 20).foldl (fun acc b => acc + b2n (d.evPend (blk r (b + 32)) != 0) * 2 ^ b) 0)
      else if ix = ixCOMPOSE ∧ o = 0x104 then
        some (((List.range 32).filter (fun s => (d.lutInUse r).contains s)).foldl (fun a s => a + 2 ^ s) 0)
      else if ix = ixTIMEBASE ∧ 0x100 ≤ o ∧ o < 0x10C then (d.tbWords r)[(o - 0x100) / 4]?
      else if ix = ixTIMEBASE ∧ o = 0x10C then some (d.tbStatus r)
      else if ix = ixTIMEBASE ∧ o = 0x118 then
        some (if d.holder = r then 0 else unsignedOf 32 (floorDiv ((d.tb r).ofs * 1000) (2 ^ 32)))
      else if ixLANE ≤ ix ∧ ix < ixLANE + 16 ∧ 0x180 ≤ o ∧ o < 0x1A0 ∧ d.isEth r (ix - ixLANE) = false then some 0
      else none
    | none, _ => none

/-- LY_CTRL.ENABLE of layer 0, staged or in a channel's entry: it reads 1 and ignores writes (R92). -/
def Slot.mainEnable (s : Slot) : Bool := s.row == Reg.LY_CTRL_ENABLE && (s.base == 0x440 || s.base % 0x400 == 0)

/-- The fields of a word as they are stored: WO fields read 0, RWS fields read their shadows (R12, R395). Bits without a field read 0 and
keep nothing (R13). -/
def Dev.storedWord (d : Dev) (addr : Nat) : Nat :=
  (slotsAt addr).foldl (fun acc s =>
    acc + (match s.row.acc with
      | .wo => 0
      | .rws => if s.mainEnable then 1 else d.rdS s.row s.base s.ix
      | _ => d.rd s.row s.base s.ix) * 2 ^ s.shift) 0

/-- The live word at an address, before snapshots. -/
def Dev.liveWord (d : Dev) (w addr : Nat) : Nat :=
  match d.derived w addr with
  | some v => v
  | none => d.storedWord addr

/-- The words of the multi-word field that starts at `addr` (R392): its number of words, 1 for another field. -/
def multiWords (addr : Nat) : Nat :=
  match placeOf addr, pageOff addr with
  | .block _ 0x1B, 0x100 => 4
  | _, _ =>
    match (slotsAt addr).find? (fun s => s.row.multi == 1 || (s.row.multi == 3 && s.ix == 0)) with
    | some s => if s.row.multi = 1 then 2 else s.row.count
    | none => 1

/-- Whether `addr` is a higher word of a multi-word field. -/
def isHighWord (addr : Nat) : Bool :=
  match placeOf addr, pageOff addr with
  | .block _ 0x1B, 0x104 => true
  | .block _ 0x1B, 0x108 => true
  | .block _ 0x1B, 0x10C => true
  | _, _ => (slotsAt addr).any (fun s => s.row.multi == 2 || (s.row.multi == 3 && s.ix != 0))

/-- The key of the high word captured for a reader (R392). -/
def snapKey (w addr : Nat) : Nat := w * 2 ^ 32 + addr

/-- Captures a multi-word field into the reader's snapshot (R392). -/
def Dev.capture (d : Dev) (w addr : Nat) : Dev :=
  let snaps := (List.range (multiWords addr)).foldl
    (fun m i => tput m (snapKey w (addr + 4 * i)) (d.liveWord w (addr + 4 * i))) d.snaps
  { d with snaps := snaps }

/-- Whether a reader may reach an address of BAR0 at all (R26, R388, R392). -/
def Dev.readable (d : Dev) (w addr : Nat) : Bool :=
  decide (addr < 0x40000000) && match guardOf addr with
  | some g => d.pageAnswers w g
  | none => true

/-- A read of one aligned word (R392): 0 where nothing answers; a higher word answers from the reader's snapshot,
which reads 0 before any capture (R369). -/
def Dev.readWord (d : Dev) (w addr : Nat) : Nat :=
  if !(d.readable w addr) then 0
  else if 0xF00000 ≤ addr ∧ addr < 0xF00400 then
    (if addr % 16 = 12 then b2n (bitOf (d.host (w - 1)).vecMask ((addr - 0xF00000) / 16))
     else tget (d.host (w - 1)).table (addr - 0xF00000) 0)
  else if addr = 0xF01000 then (d.host (w - 1)).pba % 2 ^ 32
  else if addr = 0xF01004 then (d.host (w - 1)).pba / 2 ^ 32
  else if isHighWord addr then tget d.snaps (snapKey w addr) 0
  else d.liveWord w addr

/-- MULTIWORD_READ (R392): a read of the lowest word captures the whole field; the word read is answered. -/
def execMultiwordRead (w addr : Nat) (s : State) : Host.Outcome State Fault Refusal :=
  s.onDev (fun d =>
    if addr % 4 ≠ 0 then (d.ignored pSHM cAccessInvalid).emit (.hostData w [0])
    else
      let d := if d.readable w addr && !(isHighWord addr) then d.capture w addr else d
      d.emit (.hostData w [d.readWord w addr]))

/-- TB_NOW_READ (R369): all 128 bits on one clock; 0 where the page does not answer. -/
def execTbNowRead (w r : Nat) (s : State) : Host.Outcome State Fault Refusal :=
  s.onDev (fun d =>
    let a := blk r ixTIMEBASE + 0x100
    let d := if d.readable w a then d.capture w a else d
    d.emit (.hostData w ((List.range 4).map (fun i => d.readWord w (a + 4 * i)))))

end Sys2Proof.Machine
end

