-- ==== Sys2Proof/Machine/HostPorts.lean ====
section
/-! DEFINITION. Locks, events and the host ports (R387 to R410). -/

namespace Sys2Proof.Machine

/-- The identity that both ports' functions show in configuration space (R387), as byte offset and value: Vendor and Device ID, Revision ID
with the class code, and the Subsystem Vendor ID and Subsystem ID of the board record or its defaults (R490). -/
def Dev.pciIdentity (d : Dev) : List (Nat × Nat) :=
  [(0x00, 0x1F7B + 0xDF08 * 65536), (0x08, 0xA1 + 0x048000 * 256), (0x2C, if d.nvm.board.isSome then d.boardAt 8 2 + d.boardAt 0xA 2 * 65536 else 0x1F7B)]

/-- The result of a writer's lock request (R399). -/
def Dev.lockResult (d : Dev) (w page v : Nat) : Dev := { d with lockRes := tput d.lockRes (page * 256 + w) v }

/-- RA_MODE of a region (R239, R240): 0 BOOT, 1 NORMAL, 2 TEST, 3 RECOVERY. -/
def Dev.raMode (d : Dev) (r : Nat) : Nat := d.rd Reg.RA_MODE_MODE (blk r ixRACHIS)

/-- Whether a lock request is refused by rule (R8, R388, R399, R240): a host on region 0 in hybrid or CL-4-only
mode, and a host on a RACHIS page outside TEST. -/
def Dev.lockReserved (d : Dev) (w page : Nat) : Bool :=
  isHost w &&
    match regionOf page with
    | none => false
    | some r => (r == 0 && (d.sys.mode == 1 || d.sys.mode == 2))
        || (page == blk r ixRACHIS && d.raMode r != 2)

/-- An ACQUIRE (R398 to R400): it needs no lock; an expired lease breaks the lock first (R410). -/
def Dev.lockAcquire (d : Dev) (w page : Nat) : Dev :=
    if !(isPage page) || !(d.pageAnswers w page) then d
    else
      let d := d.expire page
      let o := d.rd Reg.LOCK_OWNER page
      if d.lockReserved w page then d.lockResult w page 4
      else if o = 0 then
        let d := d.wr Reg.LOCK_OWNER page w
        let d := d.restartLease page
        let d := { d with sys := { d.sys with hostSeen := d.sys.hostSeen || isHost w },
                          setsWritten := d.setsWritten.filter (fun k => blk (k / 32) ixCOMPOSE != page) }
        d.lockResult w page (if d.rd Reg.LOCK_BROKEN page = 1 then 2 else 1)
      else if o = w then (d.restartLease page).lockResult w page 1
      else d.lockResult w page 3

/-- LOCK_ACQUIRE (R398 to R400). -/
def execLockAcquire (w page : Nat) (s : State) : Host.Outcome State Fault Refusal := s.onDev (fun d => d.lockAcquire w page)

/-- A RELEASE (R399): RELEASED for the owner, NOT_HELD for another writer. -/
def Dev.lockRelease (d : Dev) (w page : Nat) : Dev :=
    if !(isPage page) || !(d.pageAnswers w page) then d
    else
      let d := d.expire page
      if d.owns w page then
        let d := d.wr Reg.LOCK_OWNER page 0
        { d with lease := tdel d.lease page }.lockResult w page 5
      else d.lockResult w page 6

/-- LOCK_RELEASE (R399). -/
def execLockRelease (w page : Nat) (s : State) : Host.Outcome State Fault Refusal := s.onDev (fun d => d.lockRelease w page)

/-- LOCK_LEASE_EXPIRY (R400): at the end of its lease a held lock breaks. -/
def execLockLeaseExpiry (page t : Nat) (s : State) : Host.Outcome State Fault Refusal :=
  s.onDev (fun d => (d.advanceTo t).expire page)

/-- A write of EV_RAW (R398, R405): each 1 clears its bit; no lock is needed. -/
def Dev.evRawClear (d : Dev) (w page v : Nat) : Dev :=
    if isPage page && d.pageAnswers w page then
      let d := d.touch w page
      d.wr Reg.EV_RAW page (Nat.land (d.rd Reg.EV_RAW page) (2 ^ 32 - 1 - v % 2 ^ 32))
    else d

/-- EV_RAW_CLEAR (R398, R405). -/
def execEvRawClear (page : Nat) (x : WordBy) (s : State) : Host.Outcome State Fault Refusal := s.onDev (fun d => d.evRawClear x.w page x.v)

/-- A write of EV_INJECT (R393, R405): each 1 raises its event in ascending bit order, the record flagged INJECTED. The spec
gives an injected record no OBJ and no INFO: free values. -/
def Dev.evInject (d : Dev) (w page v : Nat) : Dev :=
    if isPage page && d.pageAnswers w page then
      (d.touch w page).each ((List.range 32).filter (bitOf v)) (fun d b =>
        let obj := d.freeVal % 2 ^ 32
        let d := d.freeNext
        let info := d.freeVal % 2 ^ 32
        let d := d.freeNext
        let err := if b = 31 then d.rd Reg.ERR_CODE_CODE page + d.rd Reg.ERR_CODE_SEVERITY page * 256 else 0
        d.event page b obj info err true)
    else d

/-- EV_INJECT (R393, R405). -/
def execEvInject (page : Nat) (x : WordBy) (s : State) : Host.Outcome State Fault Refusal := s.onDev (fun d => d.evInject x.w page x.v)

/-- Whether a source mapped to vector `v` of port `h` is pending (R407). -/
def Dev.vecPending (d : Dev) (h v : Nat) : Bool :=
  (List.range 490).any (fun src =>
    d.mapped src h && d.vecOf src h == v && match pageOfSource src with
      | some p => d.evPend p != 0
      | none => false)

/-- Signals the armed vectors of a list whose mapped sources are pending (R407). -/
def Dev.signalPending (d : Dev) (h : Nat) (vs : List Nat) : Dev :=
  d.each vs (fun d v => d.when (d.vecPending h v) (fun d => d.signal h v))

/-- A write of EVT_ARM (R407): each 1 arms its vector, which is signalled at once if a mapped source is pending. -/
def Dev.evtArm (d : Dev) (h hi v : Nat) : Dev :=
    if !(d.portUp h) then d
    else
      let vs := ((List.range 32).filter (bitOf v)).map (fun b => b + (if hi = 0 then 0 else 32))
      let d := d.each vs (fun d x => d.setArmed h x true)
      d.signalPending h vs

/-- EVT_ARM_WRITE (R407). -/
def execEvtArmWrite (h hi v : Nat) (s : State) : Host.Outcome State Fault Refusal := s.onDev (fun d => d.evtArm h hi v)

/-- A write to a ring block (R398, R409): the ring block of port `h` from port `h` only, with no lock; BASE and SIZE keep
their values while EN is 1, and an invalid SIZE is counted. `off` is the offset within the block. -/
def Dev.evrConfig (d : Dev) (w h off v : Nat) : Dev :=
    let en := d.rd Reg.EVR_CTRL_EN pEVTREE h == 1
    if !(d.pageAnswers w pEVTREE) then d
    else if w ≠ h + 1 then d.ignored pEVTREE cNotOwner
    else if off = 0 then
      let d := if !en && v % 2 == 1 then d.setHost h (fun p => { p with seq := 0 }) else d
      d.wr Reg.EVR_CTRL_EN pEVTREE (v % 2) h
    else if off = 4 then
      if en then d else { d with lowWords := tput d.lowWords (snapKey w (pEVTREE + 0x184 + h * 0x40)) (v % 2 ^ 32) }
    else if off = 8 then
      if en then d
      else
        let lo := tget d.lowWords (snapKey w (pEVTREE + 0x184 + h * 0x40)) (d.rd Reg.EVR_BASE_LO pEVTREE h)
        (d.wr Reg.EVR_BASE_LO pEVTREE lo h).wr Reg.EVR_BASE_HI pEVTREE v h
    else if off = 0xC then
      if en then d
      else if v < 4096 ∨ 16777216 < v ∨ v % 4096 ≠ 0 then d.countErr pEVTREE
      else d.wr Reg.EVR_SIZE pEVTREE v h
    else if off = 0x14 then d.wr Reg.EVR_RD pEVTREE v h
    else d

/-- EVR_CONFIG_WRITE (R398, R409). -/
def execEvrConfigWrite (w h off v : Nat) (s : State) : Host.Outcome State Fault Refusal :=
  s.onDev (fun d => d.evrConfig w h off v)

/-- The unmasking of a vector (R407): a signal held back by the mask is sent if a mapped source is still pending. -/
def Dev.msixUnmask (d : Dev) (h vec : Nat) : Dev :=
    if !(d.portUp h) || 64 ≤ vec then d
    else
      let held := bitOf (d.host h).pba vec
      let d := d.setHost h (fun p => { p with vecMask := setBit p.vecMask vec false, pba := setBit p.pba vec false })
      if held && d.vecPending h vec then d.emit (.msix h vec) else d

/-- MSIX_UNMASK (R407). -/
def execMsixUnmask (h vec : Nat) (s : State) : Host.Outcome State Fault Refusal := s.onDev (fun d => d.msixUnmask h vec)

/-- Every page of the map (R25, R391). -/
def allPages : List Nat :=
  (List.range 10).map chipPage ++
    regions.flatMap (fun r => ((List.range 0x34).filter blockExists).map (blk r))

/-- Every lock that `w` holds breaks (R400). -/
def Dev.breakLocksOf (d : Dev) (w : Nat) : Dev :=
  d.each allPages (fun d p => if d.owns w p then d.breakLock p else d)

/-- HOST_LINK_DOWN (R388, R400, R406): the port's locks break, and its ring and vectors are suspended. -/
def execHostLinkDown (h : Nat) (s : State) : Host.Outcome State Fault Refusal :=
  s.onDev (fun d => (d.setHost h (fun p => { p with linkUp := false })).breakLocksOf (h + 1))

/-- HOST_LINK_UP (R406): the vectors still armed are signalled where a mapped source is pending. -/
def execHostLinkUp (h : Nat) (s : State) : Host.Outcome State Fault Refusal :=
  s.onDev (fun d => (d.setHost h (fun p => { p with linkUp := true })).signalPending h (List.range 64))

/-- HOST_PORT_RESET (R400): every lock the port holds breaks. A conventional, hot or function-level reset returns
the function's MSI-X masks, pending bits and table as PCI Express has it (PRESUMED). -/
def execHostPortReset (h : Nat) (s : State) : Host.Outcome State Fault Refusal :=
  s.onDev (fun d =>
    (d.setHost h (fun p => { p with vecMask := 2 ^ 64 - 1, pba := 0, table := [] })).breakLocksOf (h + 1))

/-- The page that holds port `h`'s own BAR2_APER (R389). -/
def aperPage (h : Nat) : Nat := if h = 0 then pSHM else hostBPage

/-- A write of BAR2_APER (R390, R398): it needs no lock; a base above 64 GiB is ignored and counted. -/
def Dev.aperWrite (d : Dev) (h v : Nat) : Dev :=
    if !(d.portUp h) then d
    else if 64 < bitsOf v 8 7 then d.countErr pSHM
    else (d.wr Reg.BAR2_APER_REGION (aperPage h) v).wr Reg.BAR2_APER_BASE_GIB (aperPage h) (bitsOf v 8 7)

/-- BAR2_APER_WRITE (R390, R398). -/
def execBar2AperWrite (h v : Nat) (s : State) : Host.Outcome State Fault Refusal := s.onDev (fun d => d.aperWrite h v)

end Sys2Proof.Machine
end

