-- ==== Sys2Proof/Machine/RefSelect.lean ====
section
/-! DEFINITION. Reference selection, holdover and the DPLL (R349 to R367). -/

namespace Sys2Proof.Machine

/-- The reference entries (R350). -/
def entries : List Nat := List.range 12

/-- The oscillator's rated accuracy in ppb (R349, R490): the board record's, or 10,000 without one. -/
def Dev.oscPpb (d : Dev) : Nat :=
  match d.nvm.board with
  | some b => fromLE ((b.drop 0x0C).take 4)
  | none => 10000

/-- A reference entry's state. -/
def Dev.refSt (d : Dev) (e : Nat) : RefSt := tget d.ref.ents e ⟨10, false, false, 0, 0⟩

/-- A change of a reference entry's state. -/
def Dev.setRefSt (d : Dev) (e : Nat) (f : RefSt → RefSt) : Dev :=
  { d with ref := { d.ref with ents := tput d.ref.ents e (f (d.refSt e)) } }

/-- REF_STAT.STATE (R355). -/
def Dev.refState (d : Dev) (e : Nat) : Nat := d.rd Reg.REF_STAT_STATE (pREF e)

/-- REF_STAT.QL (R353). -/
def Dev.refQl (d : Dev) (e : Nat) : Nat := d.rd Reg.REF_STAT_QL (pREF e)

/-- REF_CTRL.PRIO (R358). -/
def Dev.refPrio (d : Dev) (e : Nat) : Nat := d.rd Reg.REF_CTRL_PRIO (pREF e)

/-- The selected entry, 0xF for none (R365). -/
def Dev.refCur (d : Dev) : Nat := d.rd Reg.REFSEL_STATE_SELECTED pREFSEL

/-- DPLL_STATUS.STATE (R360). -/
def Dev.dpllState (d : Dev) : Nat := d.rd Reg.DPLL_STATUS_STATE pDPLL

/-- A PTP instance's state. -/
def Dev.ptpSt (d : Dev) (n : Nat) : PtpSt := tget d.ptp n PtpSt.init

/-- A change of a PTP instance's state. -/
def Dev.setPtp (d : Dev) (n : Nat) (f : PtpSt → PtpSt) : Dev := { d with ptp := tmod d.ptp n PtpSt.init f }

/-- PTP_STAT.STATE (R376). -/
def Dev.ptpState (d : Dev) (n : Nat) : Nat := d.rd Reg.PTP_STAT_STATE (pPTPI n)

/-- The states of PTP_STAT.STATE that the model uses (IEEE 1588-2019). -/
def ptpListening : Nat := 4
/-- MASTER (R376). -/
def ptpMaster : Nat := 6
/-- PASSIVE (R376). -/
def ptpPassive : Nat := 7
/-- The time receiver's state (R376). -/
def ptpReceiver : Nat := 9

/-- A configuration field of instance `n` as the instance applies it: a write applies at the instance's next message interval (R385). -/
def Dev.ptpRd (d : Dev) (n : Nat) (row : Row) : Nat :=
  match (d.ptpSt n).act with
  | some t => stGet t row (pPTPI n) 0
  | none => d.rd row (pPTPI n)

/-- An enabled instance and its role: 0 time receiver, 1 time transmitter. -/
def Dev.ptpRole (d : Dev) (n : Nat) : Option Nat :=
  if n < 8 ∧ d.ptpRd n Reg.PTP_CTRL_EN = 1 then some (d.ptpRd n Reg.PTP_CTRL_ROLE) else none

/-- The time receiver that is the candidate of a port: enabled, role 0 (R377). -/
def Dev.ptpOnPort (d : Dev) (g : Nat) : Option Nat :=
  (List.range 8).find? (fun n => d.ptpRole n == some 0 && d.ptpRd n Reg.PTP_CTRL_PORT == g)

/-- The exact frame rate of an SRC_RATE.RATE code, as numerator and denominator of the period in seconds (R86, R38). -/
def ratePeriod (code : Nat) : Nat × Nat :=
  if code = 0 then (1001, 24000) else if code = 1 then (1, 24) else if code = 2 then (1, 25)
  else if code = 3 then (1001, 30000) else if code = 4 then (1, 30) else if code = 5 then (1, 50)
  else if code = 6 then (1001, 60000) else if code = 7 then (1, 60) else if code = 8 then (1, 100)
  else if code = 9 then (1001, 120000) else (1, 120)

/-- How long a pin may show no edge (R352), in ns. -/
def Dev.pinLimit (d : Dev) (e : Nat) : Nat :=
  let k := d.rd Reg.REF_CTRL_PIN_KIND (pREF e)
  if k = 0 then 1500000000
  else if k = 1 then 1000
  else
    let p := ratePeriod (d.rd Reg.REF_CTRL_FRAME_RATE (pREF e))
    p.1 * 1500000000 / p.2

/-- Whether a lane's detectors run (R343). -/
def Dev.detects (d : Dev) (g : Nat) : Bool := g < 128 && d.rd Reg.LN_STAT_PSTATE (lanePage g) < 2

/-- A lane is failed while LOS, LOL or loss of sync holds (R343). -/
def Dev.laneFailed (d : Dev) (g : Nat) : Bool :=
  let b := lanePage g
  !(d.detects g) || d.rd Reg.LN_STAT_LOS b == 1 || d.rd Reg.LN_STAT_LOL b == 1 || d.rd Reg.LN_STAT_SYNC b == 0

/-- The last edge of a pin at an island. -/
def Dev.edgeAt (d : Dev) (i pin : Nat) : Option Nat := tget? d.ref.edges (i * 4 + pin)

/-- The island whose measurement of a pin is used (R351): the holder's own while the pin shows activity there,
otherwise the lowest-numbered island with activity that reaches the holder over Awn. -/
def Dev.pinIsland (d : Dev) (e : Nat) : Option Nat :=
  let pin := d.rd Reg.REF_CTRL_SRC (pREF e)
  let live (i : Nat) : Bool :=
    match d.edgeAt i pin with
    | some t => d.now < t + d.pinLimit e && (d.island i).aon && (i == d.holder || !(d.sys.reachLost.contains (reachKey d.holder i 0)))
    | none => false
  if live d.holder then some d.holder else regions.find? live

/-- R352: whether the candidate of an entry is lost. -/
def Dev.refLost (d : Dev) (e : Nat) : Bool :=
  let ty := d.rd Reg.REF_CTRL_TYPE (pREF e)
  let src := d.rd Reg.REF_CTRL_SRC (pREF e)
  let away := !(d.active (src / 16)) || d.sys.reachLost.contains (reachKey d.holder (src / 16) 0)
  let failed := d.laneFailed src
  if ty = 1 then (d.pinIsland e).isNone
  else if ty = 2 then
    away || d.rd Reg.LN_STAT_PORT_UP (lanePage src) == 0 ||
      (match d.ptpOnPort src with
       | some n => d.ptpState n != ptpReceiver
       | none => true)
  else if ty = 3 then away || d.rd Reg.LN_CFG_MODE (lanePage src) != 1 || failed
  else if ty = 4 then away || d.rd Reg.LN_CFG_MODE (lanePage src) != 2 || failed
  else true

/-- FREQ_TOL in ppt, widened by OSC_PPB while the holdover model is not valid (R354). -/
def Dev.tolPpt (d : Dev) : Nat :=
  (d.rd Reg.REFSEL_TOL_FREQ_TOL pREFSEL
    + (if d.rd Reg.DPLL_STATUS_HOLD_VALID pDPLL = 1 then 0 else d.oscPpb)) * 1000

/-- The pairs of reference entries (R359). -/
def refPairs : List (Nat × Nat) :=
  entries.flatMap (fun a => (entries.filter (fun b => a < b)).map (fun b => (a, b)))

/-- What is measured between two references (R359). -/
def Dev.pairSt (d : Dev) (a b : Nat) : PairSt := tget d.ref.pairs (a * 16 + b) ⟨0, 0, false, none⟩

/-- Keeps what is known of a pair: SUSPECT is 1 for the entries that a pair marks, and ACTIVE ends with the disagreement that
REFSEL_DISAGREE records (R359, R365). -/
def Dev.setPair (d : Dev) (a b : Nat) (x : PairSt) : Dev :=
  let was := d.pairSt a b
  let d := { d with ref := { d.ref with pairs := tput d.ref.pairs (a * 16 + b) x } }
  let d := d.each [a, b] (fun d e =>
    d.wrB Reg.REF_STAT_SUSPECT (pREF e) (refPairs.any (fun p => (d.pairSt p.1 p.2).mark == some e)))
  if was.disagree && !x.disagree && d.rd Reg.REFSEL_DISAGREE_A pREFSEL == a && d.rd Reg.REFSEL_DISAGREE_B pREFSEL == b then
    d.wr Reg.REFSEL_DISAGREE_ACTIVE pREFSEL 0
  else d

/-- An entry leaves QUALIFIED, or its measurement, for state `st`: its alarm ends, and its pairs start over (R356, R359). -/
def Dev.refLeave (d : Dev) (e st : Nat) : Dev :=
  let d := (d.wr Reg.REF_STAT_STATE (pREF e) st).wr Reg.REF_STAT_ALARM (pREF e) 0
  d.each (refPairs.filter (fun p => p.1 == e || p.2 == e)) (fun d p =>
    if d.pairSt p.1 p.2 = ⟨0, 0, false, none⟩ then d else d.setPair p.1 p.2 ⟨0, 0, false, none⟩)

/-- Puts an entry into QUALIFYING with a requirement (R355, R357). -/
def Dev.qualify (d : Dev) (e req : Nat) : Dev :=
  let d := (d.refLeave e 1).wr Reg.REF_STAT_QUAL_LEFT (pREF e) req
  d.setRefSt e (fun x => { x with req := req, goodWin := false })

/-- `e` ranks before `best` (R358): lower QL, lower PRIO, the current selection, lower index. -/
def Dev.ranksBefore (d : Dev) (e best : Nat) : Bool :=
  let k (x : Nat) : Nat := ((d.refQl x * 16 + d.refPrio x) * 2 + b2n (x != d.refCur)) * 16 + x
  k e < k best

/-- The QUALIFIED entries that may be chosen (R358, R359). -/
def Dev.refPool (d : Dev) : List Nat :=
  let qmin := d.rd Reg.REFSEL_CFG_QL_MIN pREFSEL
  let ok (e : Nat) : Bool := d.refState e == 2 && d.refQl e ≤ qmin
  let sus (e : Nat) : Bool := d.rd Reg.REF_STAT_SUSPECT (pREF e) == 1
  entries.filter (fun e => ok e && !(sus e && entries.any (fun x =>
    x != e && ok x && !(sus x) && d.refQl x == d.refQl e && d.refPrio x == d.refPrio e)))

/-- The choice of R358: the entry, or 0xF for none. -/
def Dev.refChoice (d : Dev) : Nat :=
  let cur := d.refCur
  let qmin := d.rd Reg.REFSEL_CFG_QL_MIN pREFSEL
  let mode := d.rd Reg.DPLL_CTRL_MODE pDPLL
  let best := d.refPool.foldl (fun b e => if b = 0xF || d.ranksBefore e b then e else b) 0xF
  let best := if d.rd Reg.REFSEL_CFG_NONREV pREFSEL = 1 && cur != 0xF && d.refState cur == 2
      && d.refQl cur ≤ qmin && d.refQl cur ≤ d.ref.qlSel then cur else best
  let best := if mode = 1 then
      (let f := d.rd Reg.DPLL_CTRL_FORCE_REF pDPLL
       if d.refState f = 2 then f else 0xF) else best
  if mode = 2 ∨ mode = 3 then 0xF else best

/-- Marks the selection in the registers. -/
def Dev.markSelected (d : Dev) (e : Nat) : Dev :=
  let d := d.each entries (fun d x => d.wrB Reg.REF_STAT_SELECTED (pREF x) (x == e))
  let ql := if e = 0xF then 0xF else d.refQl e
  let d := d.wr Reg.REFSEL_STATE_SELECTED pREFSEL e
  let d := d.wr Reg.REFSEL_STATE_QL pREFSEL ql
  { d with ref := { d.ref with qlSel := ql } }

/-- The holdover model (R362): its value in ppt, and whether it is valid. A history that the guard leaves empty gives DPLL_FREQ as it
stands. -/
def Dev.holdModel (d : Dev) : Int × Bool :=
  let avg := d.rd Reg.DPLL_HOLD_AVG_S pDPLL
  let used := d.ref.hist.drop (d.rd Reg.DPLL_HOLD_GUARD_S pDPLL)
  let valid := decide (avg ≤ d.ref.hist.length)
  if used.isEmpty || (!valid && decide (used.length < 10)) then (d.rdI Reg.DPLL_FREQ pDPLL, valid)
  else (floorDiv (used.foldl (· + ·) 0) used.length, valid)

/-- The clip of the Ethernet clocks (R363): 100 ppm of an offset in ppt. -/
def ethClamped (v : Int) : Bool := 100000000 < v.natAbs

/-- The output offset (R360, R363): the timebase clock has it whole, the Ethernet clocks clipped. -/
def Dev.setFreq (d : Dev) (v : Int) : Dev :=
  (d.wrI Reg.DPLL_FREQ pDPLL v).wrB Reg.DPLL_STATUS_ETH_CLAMP pDPLL (ethClamped v)

/-- The absorbed phase that remains (R361). One that DPLL_ABSORB cannot hold shows there as a free value. -/
def Dev.setAbsorb (d : Dev) (v : Int) : Dev :=
  let d := { d with ref := { d.ref with absorb := v } }
  if -2147483648 ≤ v ∧ v ≤ 2147483647 then d.wrI Reg.DPLL_ABSORB pDPLL v
  else (d.wr Reg.DPLL_ABSORB pDPLL (d.freeVal % 2 ^ 32)).freeNext

/-- Ends a phase correction of the servo: TB_INC returns to nominal (R380, R382, R383). -/
def Dev.endPhase (d : Dev) : Dev :=
  if d.phaseEnd.isSome then
    let d := d.wrPair Reg.TB_INC_LO Reg.TB_INC_HI (blk d.holder ixTIMEBASE) (2 ^ 33)
    { d with phaseEnd := none }
  else d

/-- The DPLL goes to a state in which it follows entry `e`, 0xF for none (R360, R366); leaving STEERED ends the servo's correction. -/
def Dev.setDpll (d : Dev) (st e : Nat) : Dev :=
  let d := if d.dpllState = 3 then d.endPhase else d
  let d := (d.wr Reg.DPLL_STATUS_STATE pDPLL st).wr Reg.DPLL_STATUS_REF pDPLL e
  d.wr Reg.DPLL_STATUS_HOLD_S pDPLL 0

/-- Holdover begins (R360, R362); a DPLL that is in holdover stays in it. -/
def Dev.enterHoldover (d : Dev) (old : Nat) : Dev :=
  if d.dpllState = 4 then d
  else
    let m := d.holdModel
    let d := (d.setDpll 4 0xF).wrB Reg.DPLL_STATUS_HOLD_VALID pDPLL m.2
    let d := ((d.wrI Reg.DPLL_HOLD_FREQ pDPLL m.1).setFreq m.1).inc Reg.DPLL_CNT_HOLDOVERS pDPLL
    d.event pDPLL 1 0xF old

/-- A switch completes on entry `e` (R361): REF_SWITCH and the count. -/
def Dev.switched (d : Dev) (st e : Nat) : Dev :=
  let old := d.rd Reg.DPLL_STATUS_REF pDPLL
  ((d.setDpll st e).inc Reg.DPLL_CNT_SWITCHES pDPLL).event pDPLL 0 e old

/-- Loads DCO_FOFS (R361, R363), within its range. -/
def Dev.loadFofs (d : Dev) (v : Int) : Dev :=
  let v := clampInt (-500000000) 500000000 v
  (d.wrI Reg.DCO_FOFS pDPLL v).setFreq v

/-- Switches to `e` (R360, R361, R364); 0xF ends in holdover or free run. The entry that the DPLL still follows, a switch away from it
being given up, is followed on. A PTP entry is entered at once; another waits for its next edge, unless the DPLL is in free run and starts
to acquire. The lane clock of a SyncE or SDI entry has its next edge at once, with a phase offset that nothing gives: a free value. -/
def Dev.switchTo (d : Dev) (e : Nat) : Dev :=
  let old := d.refCur
  let st := d.dpllState
  let d := d.markSelected e
  let d := { d with ref := { d.ref with waiting := none, acqSince := none } }
  let mode := d.rd Reg.DPLL_CTRL_MODE pDPLL
  if e = 0xF then
    if mode = 2 ∨ st = 1 then d.setDpll 0 0xF
    else if st = 2 ∨ st = 3 ∨ mode = 3 then d.enterHoldover old
    else d
  else
    let ty := d.rd Reg.REF_CTRL_TYPE (pREF e)
    if (st = 1 ∨ st = 2 ∨ st = 3) ∧ d.rd Reg.DPLL_STATUS_REF pDPLL = e then d
    else if ty = 2 then ((d.setAbsorb 0).loadFofs (d.rdI Reg.DPLL_FREQ pDPLL)).switched 3 e
    else if st = 0 then (d.setAbsorb 0).switched 1 e
    else if ty = 1 then { d with ref := { d.ref with waiting := some e } }
    else (d.freeNext.setAbsorb (signed 32 d.freeVal)).switched 2 e

/-- UTC − TAI in use (R375), and whether the grandmaster of the selected instance supplies it. -/
def Dev.utcInUse (d : Dev) : Int × Bool :=
  let sw : Int := (d.rd Reg.PTP_UTC_UTC_OFS_SW pPTP : Nat)
  let e := d.refCur
  if e < 12 ∧ d.rd Reg.REF_CTRL_TYPE (pREF e) = 2 then
    match (d.ptpOnPort (d.rd Reg.REF_CTRL_SRC (pREF e))).bind (fun n =>
        if d.ptpState n = ptpReceiver then (d.ptpSt n).best else none) with
    | some a => if a.utcValid then (a.utcOfs, true) else (sw, false)
    | none => (sw, false)
  else (sw, false)

/-- PTP_UTC.UTC_OFS and FROM_PTP follow the offset in use. -/
def Dev.syncUtc (d : Dev) : Dev :=
  let u := d.utcInUse
  (d.wrI Reg.PTP_UTC_UTC_OFS pPTP u.1).wrB Reg.PTP_UTC_FROM_PTP pPTP u.2

/-- Runs the choice of R358 and switches where it changed; a MODE of FREERUN or HOLDOVER is entered too. The UTC offset in use follows the
selection (R375). -/
def Dev.refRun (d : Dev) : Dev :=
  let best := d.refChoice
  let mode := d.rd Reg.DPLL_CTRL_MODE pDPLL
  let d := if best ≠ d.refCur then d.switchTo best
    else if mode = 2 ∧ d.dpllState ≠ 0 then d.setDpll 0 0xF
    else if mode = 3 then d.enterHoldover d.refCur
    else d
  (d.wr Reg.REFSEL_STATE_QL pREFSEL (if d.refCur = 0xF then 0xF else d.refQl d.refCur)).syncUtc

/-- Whether an entry is the CL-4's genlock source (R415, R425): entry 11 in CL-4-only mode; in hybrid mode one that the native
host configures for the input that GENLOCK.SRC names. -/
def Dev.cl4Ref (d : Dev) (e : Nat) : Bool :=
  let src := d.rd Reg.GENLOCK_SRC cl4B
  d.cl4On && (src == 1 || src == 2) && d.rd Reg.REF_CTRL_EN (pREF e) == 1 && (d.sys.mode == 2 || e == 11)
    && d.rd Reg.REF_CTRL_TYPE (pREF e) == (if src = 1 then 1 else 4) && d.rd Reg.REF_CTRL_SRC (pREF e) == 0

/-- An entry is lost (R352, R355, R356), and is in state `st`: LOST, or DISABLED where a commit took it away (R364). -/
def Dev.refLose (d : Dev) (e st : Nat) : Dev :=
  let d := (d.refLeave e st).inc Reg.REF_CNT_LOST (pREF e)
  let d := d.event pREFSEL 2 e 0
  let d := if d.cl4Ref e then d.cl4Alarm Reg.ALARM_REF_LOST 1 else d
  if d.ref.waiting = some e then { d with ref := { d.ref with waiting := none } } else d

/-- REF_LOSS (R352, R355): a candidate that is lost leaves QUALIFYING or QUALIFIED, and the choice runs. -/
def execRefLoss (e t : Nat) (s : State) : Host.Outcome State Fault Refusal :=
  s.onDev (fun d0 =>
    let d := d0.advanceTo t
    let st := d.refState e
    if e < 12 ∧ (st = 1 ∨ st = 2 ∨ st = 3) ∧ d.refLost e = true then (d.refLose e 4).refRun else d)

/-- The period of a pin entry (R350), as numerator and denominator in ps. -/
def Dev.pinPeriod (d : Dev) (e : Nat) : Nat × Nat :=
  let k := d.rd Reg.REF_CTRL_PIN_KIND (pREF e)
  let p := ratePeriod (d.rd Reg.REF_CTRL_FRAME_RATE (pREF e))
  if k = 0 then (1000000000000, 1) else if k = 1 then (100000, 1) else (p.1 * 1000000000000, p.2)

/-- A phase reduced modulo a period of `num`/`den` to half a period about 0 (R361). -/
def reducePhase (num den : Nat) (phi : Int) : Int :=
  floorDiv ((phi * den + ((num / 2 : Nat) : Int)) % (num : Int) - ((num / 2 : Nat) : Int)) den

/-- The switch that waits completes on an edge: the DPLL locks to the reference less its offset (R361). -/
def Dev.completeSwitch (d : Dev) (e : Nat) (phasePs : Int) : Dev :=
  let p := d.pinPeriod e
  let d := (d.setAbsorb (reducePhase p.1 p.2 phasePs)).switched 2 e
  { d with ref := { d.ref with waiting := none } }

/-- ACQUIRE ends in LOCKED once the phase error has stayed below 10 ns for 1 s (R360). -/
def Dev.acquireCheck (d : Dev) : Dev :=
  match d.dpllState, d.ref.acqSince with
  | 1, some since => if since + 1000000000 ≤ d.now then d.wr Reg.DPLL_STATUS_STATE pDPLL 2 else d
  | _, _ => d

/-- REF_EDGE (R351, R360, R361): island `i` sees a rising edge on REF_IN_`pin`. The island in use completes a
waiting switch to that pin, and its phase error counts toward lock. -/
def execRefEdge (i pin t : Nat) (phasePs : Int) (s : State) : Host.Outcome State Fault Refusal :=
  s.onDev (fun d0 =>
    let d := d0.advanceTo t
    if 8 ≤ i ∨ 4 ≤ pin then d
    else
      let d := { d with ref := { d.ref with edges := tput d.ref.edges (i * 4 + pin) d.now } }
      let isPin (e : Nat) : Bool := d.rd Reg.REF_CTRL_TYPE (pREF e) == 1 && d.rd Reg.REF_CTRL_SRC (pREF e) == pin
        && d.pinIsland e == some i
      match d.ref.waiting with
      | some e => if isPin e then d.completeSwitch e phasePs else d
      | none =>
        if d.dpllState = 1 ∧ d.refCur < 12 ∧ isPin d.refCur = true then
          let since := if phasePs.natAbs < 10000 then some (d.ref.acqSince.getD d.now) else none
          { d with ref := { d.ref with acqSince := since } }.acquireCheck
        else d)

/-- QL from an SSM code and an enhanced SSM code (R353). The enhanced codes are those of ITU-T G.8264 (PRESUMED):
0x20 PRTC, 0x21 ePRTC, 0x22 eEEC, 0x23 ePRC. -/
def ssmQl (opt ssm : Nat) (enh : Option Nat) : Nat :=
  match enh with
  | some x => if x = 0x21 then 0 else if x = 0x20 ∨ x = 0x23 then 1 else if x = 0x22 then 6 else 15
  | none =>
    if opt = 0 then
      if ssm = 2 then 1 else if ssm = 4 then 3 else if ssm = 8 then 4 else if ssm = 0xB then 6 else 15
    else
      if ssm = 1 then 1 else if ssm = 7 then 2 else if ssm = 4 then 3 else if ssm = 0xD then 4
      else if ssm = 0xA then 5 else if ssm = 0xC then 6 else if ssm = 0 ∨ ssm = 0xE then 10 else 15

/-- QL from a grandmaster's clockClass and clockAccuracy (R353). -/
def ptpQl (cls acc : Nat) : Nat :=
  if cls = 6 then (if acc = 0x20 ∨ acc = 0x21 then 0 else 1)
  else if cls = 13 then 1
  else if cls = 7 ∨ cls = 14 then 2
  else if cls = 52 ∨ cls = 58 then 5
  else if cls = 187 ∨ cls = 193 then 6
  else if cls = 248 then 10
  else 15

/-- ESMC_RX (R353, R358): the message sets the QL of a SyncE entry, and the choice runs. -/
def execEsmcRx (e ssm : Nat) (enh : Option Nat) (t : Nat) (s : State) : Host.Outcome State Fault Refusal :=
  s.onDev (fun d0 =>
    let d := d0.advanceTo t
    if e < 12 ∧ d.rd Reg.REF_CTRL_EN (pREF e) = 1 ∧ d.rd Reg.REF_CTRL_TYPE (pREF e) = 3 then
      let d := d.setRefSt e (fun x => { x with esmcAt := d.now })
      let d := d.wr Reg.REF_RAW_CODE (pREF e) ssm
      (d.wr Reg.REF_STAT_QL (pREF e) (ssmQl (d.rd Reg.REFSEL_CFG_SSM_OPT pREFSEL) ssm enh)).refRun
    else d)

/-- ESMC_TIMEOUT (R353): 5 s without a message give QL 15. -/
def execEsmcTimeout (e t : Nat) (s : State) : Host.Outcome State Fault Refusal :=
  s.onDev (fun d0 =>
    let d := d0.advanceTo t
    if e < 12 ∧ d.rd Reg.REF_CTRL_EN (pREF e) = 1 ∧ d.rd Reg.REF_CTRL_TYPE (pREF e) = 3
        ∧ (d.refSt e).esmcAt + 5000000000 ≤ d.now then
      (d.wr Reg.REF_STAT_QL (pREF e) 15).refRun
    else d)

/-- A disqualification (R356): the entry qualifies again at once under a 60 s requirement (R355). -/
def Dev.disqualify (d : Dev) (e : Nat) : Dev :=
  let d := d.inc Reg.REF_CNT_DISQ (pREF e)
  (d.event pREFSEL 1 e 0).qualify e 60

/-- The measured values of one entry at a window's end (R354), saturating; a window counts in which it was measured from the start. -/
def Dev.measure (d : Dev) (t : Nat) (m : RefMeas) : Dev :=
  let sat (v : Int) : Int := clampInt (-2147483648) 2147483647 v
  if 12 ≤ m.entry ∨ d.refState m.entry = 0 ∨ d.refState m.entry = 4 then d
  else
    let b := pREF m.entry
    let whole (w : Nat) : Bool := t % w == 0 && decide ((d.refSt m.entry).from_ + w ≤ t)
    let d := if whole 1000000000 then d.wrI Reg.REF_Y1 b (sat m.y1) else d
    let d := if whole 10000000000 then
        (d.wrI Reg.REF_Y10 b (sat m.y10)).setRefSt m.entry (fun x => { x with hasY10 := true }) else d
    let d := if whole 100000000000 then d.wrI Reg.REF_Y100 b (sat m.y100) else d
    d.wr Reg.REF_STAT_MODEL b (d.rd Reg.DPLL_STATUS_HOLD_VALID pDPLL)

/-- The transitions of one entry at the end of a 1 s window (R355 to R357): an enabled entry that a commit left DISABLED starts to
qualify. -/
def Dev.refEval (d : Dev) (t e : Nat) : Dev :=
  let b := pREF e
  let tol := d.tolPpt
  let y1 := (d.rdI Reg.REF_Y1 b).natAbs
  let y10 := (d.rdI Reg.REF_Y10 b).natAbs
  let y100 := (d.rdI Reg.REF_Y100 b).natAbs
  let ten := t % 10000000000 = 0
  let st := d.refState e
  if st = 0 then (if d.rd Reg.REF_CTRL_EN b = 1 then d.qualify e 10 else d)
  else if d.refLost e then (if st = 4 then d else d.refLose e 4)
  else if st = 4 then (d.qualify e 60).setRefSt e (fun x => { x with hasY10 := false, from_ := d.now })
  else if st = 1 then
    let x := d.refSt e
    let full := decide ten && x.hasY10 && decide (x.from_ + 10000000000 ≤ t)
    let good := if full then decide (2 * y10 ≤ tol) else x.goodWin
    let left := if full ∧ good = false then x.req else d.rd Reg.REF_STAT_QUAL_LEFT b - 1
    let d := (d.wr Reg.REF_STAT_QUAL_LEFT b left).setRefSt e (fun x => { x with goodWin := good })
    if left = 0 ∧ good = true then d.wr Reg.REF_STAT_STATE b 2 else d
  else if st = 2 then
    if 10 * tol < y1 then d.disqualify e
    else if ten ∧ tol < y10 ∧ tol < y100 then d.disqualify e
    else if ten then
      let alarm := d.rd Reg.REF_STAT_ALARM b
      if alarm = 0 ∧ 8 * tol ≤ 10 * y10 then
        let d := d.wr Reg.REF_STAT_ALARM b 1
        if d.mayRaise (0x200 + e) then (d.markRaised (0x200 + e)).event pREFSEL 0 e 0 else d
      else if alarm = 1 ∧ 10 * y10 < 7 * tol then d.wr Reg.REF_STAT_ALARM b 0
      else d
    else d
  else d

/-- The cross-offset of two entries over the last 10 s window, in ppt (R354). -/
def Dev.cross (d : Dev) (a b : Nat) : Nat := (d.rdI Reg.REF_Y10 (pREF a) - d.rdI Reg.REF_Y10 (pREF b)).natAbs

/-- What follows when a pair begins to disagree (R359). -/
def Dev.disagree (d : Dev) (a b : Nat) : Dev :=
  let mark (d : Dev) (e : Nat) : Dev := d.setPair a b { d.pairSt a b with mark := some e }
  let qmin := d.rd Reg.REFSEL_CFG_QL_MIN pREFSEL
  let others := entries.filter (fun e => e != a && e != b && d.refState e == 2 && d.refQl e ≤ qmin)
  let third := others.foldl (fun x e => if x = 0xF || d.ranksBefore e x then e else x) 0xF
  let agA := third != 0xF && d.cross third a ≤ 100000
  let agB := third != 0xF && d.cross third b ≤ 100000
  let modelA := d.rd Reg.DPLL_STATUS_HOLD_VALID pDPLL == 1 && (d.rdI Reg.REF_Y10 (pREF a)).natAbs ≤ 100000
  let modelB := d.rd Reg.DPLL_STATUS_HOLD_VALID pDPLL == 1 && (d.rdI Reg.REF_Y10 (pREF b)).natAbs ≤ 100000
  let d := d.wr Reg.REFSEL_DISAGREE_A pREFSEL a
  let d := d.wr Reg.REFSEL_DISAGREE_B pREFSEL b
  let d := d.wr Reg.REFSEL_DISAGREE_THIRD pREFSEL third
  let d := d.wr Reg.REFSEL_DISAGREE_ACTIVE pREFSEL 1
  let d := d.wr Reg.REFSEL_DISAGREE_MODEL pREFSEL (b2n modelA + 2 * b2n modelB)
  if agA && !agB then mark d b
  else if agB && !agA then mark d a
  else if d.refCur = a ∨ d.refCur = b then d.event pREFSEL 3 a b
  else d

/-- One pair at the end of a 10 s window (R359): the flag of a pair that disagreed goes once it has agreed for 60 s. Entries of different
rank neither agree nor disagree. -/
def Dev.pairEval (d : Dev) (p : Nat × Nat) : Dev :=
  let a := p.1
  let b := p.2
  let x := d.pairSt a b
  if d.refState a ≠ 2 ∨ d.refState b ≠ 2 then d
  else if d.refQl a ≠ d.refQl b ∨ d.refPrio a ≠ d.refPrio b then
    if x.above = 0 ∧ x.under = 0 ∧ x.disagree = false then d else d.setPair a b ⟨0, 0, false, x.mark⟩
  else if 100000 < d.cross a b then
    let y : PairSt := ⟨x.above + 1, 0, x.disagree || 2 ≤ x.above + 1, x.mark⟩
    let d := d.setPair a b y
    if y.disagree && !x.disagree then d.disagree a b else d
  else d.setPair a b ⟨0, x.under + 1, false, if 6 ≤ x.under + 1 then none else x.mark⟩

/-- The history and validity of the holdover model at the AVG_S in force (R362). -/
def Dev.holdSync (d : Dev) : Dev :=
  let d := { d with ref := { d.ref with hist := d.ref.hist.take (d.rd Reg.DPLL_HOLD_AVG_S pDPLL) } }
  let m := d.holdModel
  let d := d.wrB Reg.DPLL_STATUS_HOLD_VALID pDPLL m.2
  if d.dpllState = 2 ∨ d.dpllState = 3 then d.wrI Reg.DPLL_HOLD_FREQ pDPLL m.1 else d

/-- The DPLL's second (R360 to R362): the frequency of a loop in ACQUIRE or LOCKED is a free value; the history, the holdover seconds and
the pull-in advance. `meas` gives the largest phase error of a lane clock in the second. -/
def Dev.dpllSecond (d : Dev) (meas : List RefMeas) : Dev :=
  let st := d.dpllState
  let d := if st = 1 ∨ st = 2 then d.freeNext.setFreq (signed 32 d.freeVal) else d
  let d := if st = 2 ∨ st = 3 then
      { d with ref := { d.ref with hist := d.rdI Reg.DPLL_FREQ pDPLL :: d.ref.hist } }.holdSync
    else d
  let d := if st = 4 then d.inc Reg.DPLL_STATUS_HOLD_S pDPLL else d
  let d := if st = 1 ∧ d.refCur < 12 ∧ d.rd Reg.REF_CTRL_TYPE (pREF d.refCur) ≠ 1 then
      let close := meas.any (fun m => m.entry == d.refCur && decide (m.phasePs < 10000))
      { d with ref := { d.ref with acqSince := if close then some (d.ref.acqSince.getD (d.now - 1000000000)) else none } }
    else d
  let pull : Int := ((d.rd Reg.DPLL_PULLIN_NS_PER_S pDPLL * 1000 : Nat) : Int)
  let ab := d.ref.absorb
  let d := if st = 2 ∧ 0 < pull ∧ ab ≠ 0 then
      d.setAbsorb (if 0 < ab then max 0 (ab - pull) else min 0 (ab + pull))
    else d
  d.acquireCheck

/-- REF_WINDOW_END (R354 to R362): the end of a 1 s window, and of the 10 s and 100 s windows that end with it. -/
def execRefWindowEnd (t : Nat) (meas : List RefMeas) (s : State) : Host.Outcome State Fault Refusal :=
  s.onDev (fun d0 =>
    let d := d0.advanceTo t
    if t % 1000000000 ≠ 0 then d
    else
      let d := d.each meas (fun d m => d.measure t m)
      let d := d.each entries (fun d e => d.refEval t e)
      let d := if t % 10000000000 = 0 then d.each refPairs Dev.pairEval else d
      (d.dpllSecond meas).refRun)

/-- QL that an entry has when it is enabled or renamed (R353): a PTP entry that of the grandmaster its receiver tracks, a SyncE entry none
until a message comes. -/
def Dev.firstQl (d : Dev) (e : Nat) : Nat :=
  let ty := d.rd Reg.REF_CTRL_TYPE (pREF e)
  if ty = 2 then
    match d.ptpOnPort (d.rd Reg.REF_CTRL_SRC (pREF e)) with
    | some n =>
      (match (d.ptpSt n).best with
      | some a => if d.ptpState n = ptpReceiver then ptpQl a.cls a.acc else 15
      | none => 15)
    | none => 15
  else if ty = 3 then 15
  else d.rd Reg.REF_CTRL_QL_SW (pREF e)

/-- After a commit of the REFSEL and DPLL pages (R355, R358, R362, R364), against what they held before (`old`): an entry that is disabled
or renamed becomes DISABLED, and the selected one is lost with it; pin and SDI entries take their QL; and the choice runs. -/
def Dev.refCommitted (d : Dev) (old : Dev) : Dev :=
  let d := d.each entries (fun d e =>
    let b := pREF e
    let en := d.rd Reg.REF_CTRL_EN b == 1
    let was := old.rd Reg.REF_CTRL_EN b == 1
    let same := old.rd Reg.REF_CTRL_TYPE b == d.rd Reg.REF_CTRL_TYPE b && old.rd Reg.REF_CTRL_SRC b == d.rd Reg.REF_CTRL_SRC b
    let ty := d.rd Reg.REF_CTRL_TYPE b
    let d := if was && !(en && same) then
        (if old.refCur = e then d.refLose e 0 else d.refLeave e 0).wr Reg.REF_STAT_QUAL_LEFT b 0
      else d
    let fresh := en && !(was && same)
    let d := if fresh then d.setRefSt e (fun x => { x with hasY10 := false, esmcAt := d.now, from_ := d.now }) else d
    if fresh || (en && (ty == 1 || ty == 4)) then d.wr Reg.REF_STAT_QL b (d.firstQl e) else d)
  d.holdSync.refRun

/-- DCO_FOFS_WRITE (R363, R367, R382): from the holder of the DPLL page lock, only in STEERED and only where the
servo mode allows the writer; the value is clamped and a clamp counted. -/
def Dev.dcoFofs (d : Dev) (w v : Nat) : Dev :=
  d.locked w pDPLL (fun d =>
    let x := signed 32 v
    let fwMode := d.rd Reg.PTP_SERVO_MODE pPTP == 0
    if (fwMode && (isHost w || w == 0x30)) || d.dpllState != 3 then d.countErr pDPLL
    else
      let d := if x < -500000000 ∨ 500000000 < x then d.countErr pDPLL else d
      d.loadFofs x)

/-- DCO_FOFS_WRITE (R382). -/
def execDcoFofsWrite (w v : Nat) (s : State) : Host.Outcome State Fault Refusal := s.onDev (fun d => d.dcoFofs w v)

end Sys2Proof.Machine
end

