-- ==== Sys2Proof/Machine/Costs.lean ====
section
/-! DEFINITION. A channel's descriptor as it was staged (R86, R116, R117, R197) and what follows from it by
arithmetic: picture geometry, coding rows and slices (R39, R40, R127, R133), costs (R46 to R53), worst-case times
(R56), latency (R63, R64), buffer parameters (R164, R168), level choice (R114), scaler needs (R108 to R110) and
packet bounds (R244, R255). A descriptor is the list of staged fields that differ from their reset values. -/

namespace Sys2Proof.Machine

/-- The staging window as it stands (R86): offsets 0x400 to 0xFFF of SHM. -/
def Dev.staged (d : Dev) : Tbl Nat := tkeep (fun k _ => 0x400 * 32 ≤ k && k < 0x1000 * 32) d.regs

/-- A staged field of a descriptor (R86). -/
def cf (g : Tbl Nat) (row : Row) : Nat := stGet g row 0 0

/-- A field of rendition entry `rd`. -/
def cfR (g : Tbl Nat) (rd : Nat) (row : Row) : Nat := stGet g row (stRN rd) 0

/-- A field of layer entry `l` of the descriptor. -/
def cfL (g : Tbl Nat) (l : Nat) (row : Row) : Nat := stGet g row (stLY l) 0

/-! ## Source and slices -/

/-- The source's width (R83). -/
def srcW (g : Tbl Nat) : Nat := cf g Reg.SRC_FMT_WIDTH
/-- The source's height (R83). -/
def srcH (g : Tbl Nat) : Nat := cf g Reg.SRC_FMT_HEIGHT
/-- Whether the source is interlaced (R83). -/
def interlaced (g : Tbl Nat) : Bool := cf g Reg.SRC_FMT_INTERLACED == 1
/-- Whether the source is a feed (R197). -/
def feedOn (g : Tbl Nat) : Bool := cf g Reg.FEED_CTRL_EN == 1
/-- The number of renditions (R113). -/
def numRend (g : Tbl Nat) : Nat := min 8 (cf g Reg.ENC_CH_NUM_REND)
/-- The renditions of a descriptor (R113). -/
def rdList (g : Tbl Nat) : List Nat := List.range (numRend g)
/-- S, the slices per picture (R39). -/
def slices (g : Tbl Nat) : Nat := cf g Reg.ENC_CH_SLICES
/-- Whether the channel is of the ladder class (R130). -/
def ladder (g : Tbl Nat) : Bool := cf g Reg.ENC_CH_CLASS == 1
/-- G, the pictures of a group (R136). -/
def gop (g : Tbl Nat) : Nat := if cf g Reg.ENC_CH_GOP16 = 1 then 16 else 8

/-- The frame period P as a fraction of a second (R38). -/
def period (g : Tbl Nat) : Nat × Nat := ratePeriod (cf g Reg.SRC_RATE_RATE)

/-- Pictures per frame: two fields when interlaced (R115). -/
def fields (g : Tbl Nat) : Nat := if interlaced g then 2 else 1

/-- Slices per picture. -/
def picSlices (g : Tbl Nat) : Nat := slices g / fields g

/-- L_enc (R63, R64): slice periods, or pictures in the ladder class. -/
def lEnc (g : Tbl Nat) : Nat :=
  if ladder g then gop g + cf g Reg.ENC_CH_L_ENC else cf g Reg.ENC_CH_L_ENC

/-- One second in units of 2^-16 ns. -/
def tuSec : Nat := 1000000000 * 65536

/-- The instant of slice tick `n` from the channel's phase, n = k × S + j (R373), in 2^-16 ns. -/
def tickTu (g : Tbl Nat) (n : Nat) : Nat :=
  ceilDiv (n * (period g).1 * tuSec) ((period g).2 * slices g)

/-- The instant of frame tick `k` from the channel's phase (R373). -/
def frameTu (g : Tbl Nat) (k : Nat) : Nat := ceilDiv (k * (period g).1 * tuSec) (period g).2

/-- T_s in 2^-16 ns, rounded up. -/
def tsTu (g : Tbl Nat) : Nat := tickTu g 1

/-- P in 2^-16 ns, rounded up. -/
def pTu (g : Tbl Nat) : Nat := frameTu g 1

/-- L of R63 and R64 in 2^-16 ns, exact and rounded up; `p` is 1 for a protected channel. -/
def latTu (g : Tbl Nat) (p : Nat) : Nat :=
  if ladder g then ceilDiv (((2 + p) + lEnc g * slices g) * (period g).1 * tuSec) ((period g).2 * slices g)
  else ceilDiv ((2 + lEnc g + p) * (period g).1 * tuSec) ((period g).2 * slices g)

/-- CH_LAT_NS (R65): L rounded to the nearest ns. -/
def latNs (g : Tbl Nat) (p : Nat) : Nat :=
  let n := if ladder g then (2 + p) + lEnc g * slices g else 2 + lEnc g + p
  roundDiv (n * (period g).1 * 1000000000) ((period g).2 * slices g)

/-! ## Renditions -/

/-- A rendition's codec: 0 AVC, 1 HEVC, 2 VVC (R113). -/
def codec (g : Tbl Nat) (rd : Nat) : Nat := cfR g rd Reg.RN_CTRL_CODEC
/-- A rendition's width (R118). -/
def rdW (g : Tbl Nat) (rd : Nat) : Nat :=
  if cfR g rd Reg.RN_SIZE_WIDTH = 0 then srcW g else cfR g rd Reg.RN_SIZE_WIDTH
/-- A rendition's height (R118). -/
def rdH (g : Tbl Nat) (rd : Nat) : Nat :=
  if cfR g rd Reg.RN_SIZE_HEIGHT = 0 then srcH g else cfR g rd Reg.RN_SIZE_HEIGHT
/-- A rendition's picture structure (R130). -/
def gopMode (g : Tbl Nat) (rd : Nat) : Nat := cfR g rd Reg.RN_GOP_MODE
/-- Whether a picture structure refreshes gradually (R130, R134). -/
def refreshMode (m : Nat) : Bool := m == 2 || m == 3

/-- Lines of one picture: the frame, or one field. -/
def picH (g : Tbl Nat) (rd : Nat) : Nat := ceilDiv (rdH g rd) (fields g)

/-- Width and height of a CTU, or of a macroblock in AVC (R120, R121). -/
def ctuSize (g : Tbl Nat) (rd : Nat) : Nat := if codec g rd = 0 then 16 else if codec g rd = 1 then 64 else 128

/-- Lines of a coding row (R40, R115). -/
def rowLines (g : Tbl Nat) (rd : Nat) : Nat :=
  if codec g rd = 0 then (if interlaced g then 16 else 32) else ctuSize g rd

/-- Coding rows of a picture of the rendition (R40, R127). -/
def codingRows (g : Tbl Nat) (rd : Nat) : Nat := ceilDiv (picH g rd) (rowLines g rd)

/-- CTU or macroblock columns. -/
def ctuCols (g : Tbl Nat) (rd : Nat) : Nat := ceilDiv (rdW g rd) (ctuSize g rd)

/-- CTUs (macroblocks in AVC) of coding row `row`. -/
def rowCtus (g : Tbl Nat) (rd row : Nat) : Nat :=
  if codec g rd = 0 ∧ interlaced g = false then
    ctuCols g rd * (min (2 * (row + 1)) (ceilDiv (picH g rd) 16) - 2 * row)
  else ctuCols g rd

/-- The coding rows of slice `jj` of a picture (R40): first and one past the last. -/
def sliceRows (g : Tbl Nat) (rd jj : Nat) : Nat × Nat :=
  (jj * codingRows g rd / picSlices g, (jj + 1) * codingRows g rd / picSlices g)

/-- The rows of slice `jj` as a list. -/
def sliceRowList (g : Tbl Nat) (rd jj : Nat) : List Nat :=
  (List.range (codingRows g rd)).filter (fun r => (sliceRows g rd jj).1 ≤ r && r < (sliceRows g rd jj).2)

/-- CTUs of slice `jj` of a picture. -/
def sliceCtus (g : Tbl Nat) (rd jj : Nat) : Nat := (sliceRowList g rd jj).foldl (fun a r => a + rowCtus g rd r) 0

/-- The most CTUs of any slice. -/
def maxSliceCtus (g : Tbl Nat) (rd : Nat) : Nat :=
  (List.range (picSlices g)).foldl (fun a j => max a (sliceCtus g rd j)) 0

/-! ## Weights and costs (R46 to R52) -/

def wCodec (c : Nat) : Nat := if c = 0 then 8 else if c = 1 then 10 else 20
def wChroma (c : Nat) : Nat := if c = 0 then 100 else if c = 1 then 125 else 160
def wDepth (b : Nat) : Nat := if b = 0 then 95 else if b = 1 then 100 else 115
def wEffort (e : Nat) : Nat := if e = 0 then 6 else if e = 1 then 10 else 14
def wClass (lad : Bool) : Nat := if lad then 9 else 10

/-- A pixel rate in units of 0.1 Msample/s (R46, R48). -/
def rate01 (g : Tbl Nat) (w h : Nat) : Nat := roundDiv (w * h * (period g).2) ((period g).1 * 100000)

/-- Y of a rendition and X of the composed picture. -/
def rdY (g : Tbl Nat) (rd : Nat) : Nat := rate01 g (rdW g rd) (rdH g rd)
/-- The channel's luma rate X (R47). -/
def chX (g : Tbl Nat) : Nat := rate01 g (srcW g) (srcH g)

/-- The coding cost of a rendition in 0.1 CLU (R46 to R48). -/
def cluOf (g : Tbl Nat) (rd : Nat) : Nat :=
  roundDiv (rdY g rd * wCodec (codec g rd) * wChroma (cfR g rd Reg.RN_CTRL_CHROMA)
    * wDepth (cfR g rd Reg.RN_CTRL_DEPTH) * wEffort (cfR g rd Reg.RN_CTRL_EFFORT) * wClass (ladder g)) 10000000

/-- The coding cost of a channel (R47). -/
def chClu (g : Tbl Nat) : Nat := (rdList g).foldl (fun a rd => a + cluOf g rd) 0

/-- The decode cost of a rendition's stream in 0.1 DLU (R49). -/
def dluOf (g : Tbl Nat) (rd : Nat) : Nat :=
  roundDiv (rdY g rd * wCodec (codec g rd) * wChroma (cfR g rd Reg.RN_CTRL_CHROMA)) 1000

/-- The decode cost of the channel's feed (R197). -/
def feedDlu (g : Tbl Nat) : Nat :=
  roundDiv (chX g * wCodec (cf g Reg.FEED_CTRL_CODEC) * wChroma (cf g Reg.FEED_CTRL_CHROMA)) 1000

/-- 2B of R52 for a chroma format (0 4:2:0, 1 4:2:2, 2 4:4:4) and a depth of more than 8 bits or not. -/
def bytes2 (chroma : Nat) (deep : Bool) : Nat := (3 + chroma + (if chroma = 2 then 1 else 0)) * (if deep then 2 else 1)

/-- Twice the bytes per sample of the source (R52). -/
def srcB2 (g : Tbl Nat) : Nat := bytes2 (cf g Reg.SRC_RATE_SAMPLING + 1) true
/-- Twice the bytes per sample of a rendition (R52). -/
def rdB2 (g : Tbl Nat) (rd : Nat) : Nat := bytes2 (cfR g rd Reg.RN_CTRL_CHROMA) (cfR g rd Reg.RN_CTRL_DEPTH != 0)

/-- Enabled layers above layer 0, of a list of enables. -/
def layersOn (ens : List Nat) : Nat := ((List.range 8).filter (fun l => l != 0 && ens.contains l)).length

/-- The composition cost in 0.1 Mpixel/s with G enabled layers (R50). -/
def compCost (g : Tbl Nat) (gl : Nat) : Nat := roundDiv (chX g * (4 + gl)) 4

/-- The memory terms of R52, in 0.1 MB/s. -/
def memChan (g : Tbl Nat) (gl : Nat) : Nat := chX g * (2 * srcB2 g + 8 * gl) / 2
/-- The memory term of coding a rendition (R52). -/
def memCode (g : Tbl Nat) (rd : Nat) : Nat :=
  roundDiv (rdY g rd * rdB2 g rd * (if codec g rd = 0 then 4 else if codec g rd = 1 then 5 else 7)) 2
/-- The memory term of decoding a rendition (R52). -/
def memDec (g : Tbl Nat) (rd : Nat) : Nat := rdY g rd * rdB2 g rd
/-- The memory term of decoding a transcode feed (R52). -/
def memFeed (g : Tbl Nat) : Nat :=
  roundDiv (chX g * bytes2 (cf g Reg.FEED_CTRL_CHROMA) true * 3) 2
/-- The capture term X × 2 × B_source of R268. -/
def memCapture (g : Tbl Nat) : Nat := chX g * srcB2 g

/-! ## Scalers (R108 to R110) -/

/-- Samples averaged before the polyphase stage (R109). -/
def prefilter (nIn nOut : Nat) : Nat := if nOut * 2 < nIn then ceilDiv nIn (2 * nOut) else 1

/-- Line-buffer entries a scaled picture needs (R110); `k` is 2, 3 or 4. -/
def lineNeed (wIn hIn hOut k : Nat) : Nat := (if 1 < prefilter hIn hOut then 7 else 6) * wIn * k

/-- The bytes of a line buffer (R110). -/
def lineLimit : Nat := 147456

/-- Whether a rendition is scaled (R108). -/
def scaledRd (g : Tbl Nat) (rd : Nat) : Bool := rdW g rd != srcW g || rdH g rd != srcH g

/-- The scaler pass of a rendition: size, chain enable and set (R102). -/
def passKey (g : Tbl Nat) (rd : Nat) : Nat × Nat × Nat :=
  (rdW g rd, rdH g rd, if cfR g rd Reg.RN_CTRL_CHAIN_EN = 1 then cfR g rd Reg.RN_CTRL_LUT_SET + 1 else 0)

/-- Scaler input of the distinct scaled rendition pictures, in 0.1 Mpixel/s. -/
def scaleIn (g : Tbl Nat) : Nat :=
  let passes := ((rdList g).filter (scaledRd g)).map (passKey g)
  passes.eraseDups.length * chX g

/-! ## Slices against the source (R128) -/

/-- N_raster of a frame (R87, R198). -/
def nRaster (g : Tbl Nat) : Nat :=
  let h := srcH g
  if feedOn g then h
  else if h = 720 then 750 else if h = 1080 then 1125 else if h = 2160 then 2250 else if h = 4320 then 4500
  else ceilDiv (h * 1125) 1080

/-- e_j(r): the last source line of a picture that slice `jj` of a rendition reads (R128, R108, R109). -/
def lastLine (g : Tbl Nat) (rd jj : Nat) : Nat :=
  let hIn := ceilDiv (srcH g) (fields g)
  let hOut := picH g rd
  let y := min (hOut - 1) ((sliceRows g rd jj).2 * rowLines g rd - 1)
  if scaledRd g rd = false then y
  else
    let dd := prefilter hIn hOut
    let n := ceilDiv hIn dd
    let step := (hIn * 65536 + dd * hOut / 2) / (dd * hOut)
    let pos : Int := ((step : Int) - 65536) / 2 + (y * step : Nat)
    let c := (pos / 65536 + 3).toNat
    min (hIn - 1) (min (n - 1) c * dd + dd - 1)

/-- Whether rendition `rd` meets R128 in every slice. -/
def slicesReach (g : Tbl Nat) (rd : Nat) : Bool :=
  (List.range (picSlices g)).all (fun j =>
    lastLine g rd j ≤ lastLine g 0 j + 3 * nRaster g / (4 * slices g))

/-! ## Worst-case time (R56) -/

/-- The L5 time of the longest slice in units of 1/4800 µs: one per luma sample of its CTU area. -/
def l5Area (g : Tbl Nat) (rd : Nat) : Nat := maxSliceCtus g rd * ctuSize g rd * ctuSize g rd

/-- The coding window of R56 in periods of N/D seconds over a divisor: L_enc × T_s, or L_enc × P. -/
def winDiv (g : Tbl Nat) : Nat := if ladder g then 1 else slices g

/-- Whether the L5 time of a rendition's slice fits half of L_enc (R56). -/
def l5Fits (g : Tbl Nat) (rd : Nat) : Bool :=
  2 * l5Area g rd * (period g).2 * winDiv g ≤ lEnc g * (period g).1 * 1000000 * 4800

/-- By how much the L5 time exceeds half of the window, in 0.1 µs, halves up. -/
def l5Short (g : Tbl Nat) (rd : Nat) : Nat :=
  roundDiv (2 * l5Area g rd * (period g).2 * winDiv g - lEnc g * (period g).1 * 1000000 * 4800)
    (2 * 480 * (period g).2 * winDiv g)

/-- L5 at most T_s − 500 µs (R266). -/
def l5Protect (g : Tbl Nat) (rd : Nat) : Bool :=
  (l5Area g rd + 500 * 4800) * (period g).2 * slices g ≤ (period g).1 * 1000000 * 4800

/-! ## Buffer model (R163, R164, R168) -/

/-- R_sig: MAX_KBPS in b/s rounded up to 64 (R164). -/
def rSig (g : Tbl Nat) (rd : Nat) : Nat := roundUpTo (cfR g rd Reg.RC_RATE_MAX_KBPS * 1000) 64

/-- Whether the model units are decoding units (R163). -/
def duUnits (g : Tbl Nat) (rd : Nat) : Bool :=
  codec g rd != 0 && !(ladder g) && 2 ≤ slices g && cfR g rd Reg.RC_CTRL_AU_HRD == 0

/-- T_unit as a count of the fraction N / (D × this): S for T_s, or the fields of a frame. -/
def unitDiv (g : Tbl Nat) (rd : Nat) : Nat := if duUnits g rd then slices g else fields g

/-- N_cpb: the initial delay in 90 kHz ticks (R164). -/
def nCpb (g : Tbl Nat) (rd : Nat) : Nat :=
  let us := cfR g rd Reg.RC_CPB_CPB_US
  let sp := cfR g rd Reg.RC_CTRL_CPB_SP
  let spx := if sp ≠ 0 then sp else if duUnits g rd then 4 else if ladder g then 2 * slices g else slices g
  if us ≠ 0 then ceilDiv (us * 90) 1000
  else ceilDiv (spx * (period g).1 * 90000) ((period g).2 * slices g)

/-- B_cpb: the unit CPB size (R164). -/
def bCpb (g : Tbl Nat) (rd : Nat) : Nat := roundUpTo (ceilDiv (rSig g rd * nCpb g rd) 90000) 16

/-- B_au: the CPB size of an access unit (R164). -/
def bAu (g : Tbl Nat) (rd : Nat) : Nat :=
  if duUnits g rd then
    let q := 90000 * (period g).2 * slices g * fields g
    let t := nCpb g rd * (period g).2 * slices g * fields g
      + (slices g - fields g) * (period g).1 * 90000
    roundUpTo (ceilDiv (rSig g rd * t) q) 16
  else bCpb g rd

/-- T_cpb against R167: at least T_unit and at most 1 s. -/
def tcpbFits (g : Tbl Nat) (rd : Nat) : Bool :=
  (period g).1 * 90000 ≤ nCpb g rd * (period g).2 * unitDiv g rd && nCpb g rd ≤ 90000

/-- The most bits of a slice by PEAK (R168). -/
def sliceMax (g : Tbl Nat) (rd : Nat) : Nat :=
  rSig g rd * cfR g rd Reg.RC_CTRL_PEAK * (period g).1 / (16 * (period g).2 * slices g)

/-! ## The reserve (R177) -/

/-- MIN_CTU_BITS: intra kinds or not. -/
def minCtuBits (cod : Nat) (intra : Bool) : Nat :=
  if cod = 0 then (if intra then 4 else 1) else if cod = 1 then (if intra then 2 else 1) else (if intra then 6 else 2)

/-- The bits of a row's overhead (R177). -/
def rowOvh (cod : Nat) : Nat := if cod = 0 then 256 else if cod = 1 then 384 else 768
/-- The bits of a slice's overhead (R177). -/
def sliceOvh (cod : Nat) : Nat := if cod = 0 then 320 else if cod = 1 then 480 else 640

/-- The ROW_OVH charges of a coding row: one per macroblock row in AVC. -/
def rowOvhs (g : Tbl Nat) (rd row : Nat) : Nat :=
  if codec g rd = 0 then rowCtus g rd row / ctuCols g rd else 1

/-- Band of coding row `row` over `b` bands (R140). -/
def bandOf (g : Tbl Nat) (rd b row : Nat) : Nat :=
  ((List.range b).filter (fun x => x * codingRows g rd / b ≤ row)).length - 1

/-- Slice NAL units of slice `jj` over `b` bands (R127, R141). -/
def sliceNals (g : Tbl Nat) (rd b jj : Nat) : Nat :=
  let r := sliceRows g rd jj
  if codec g rd = 0 then r.2 - r.1
  else if bandOf g rd b r.1 = bandOf g rd b (r.2 - 1) then 1 else 2

/-- The reserve of slice `jj` with every CTU of kind I (R178). -/
def worstReserve (g : Tbl Nat) (rd b jj : Nat) : Nat :=
  sliceNals g rd b jj * sliceOvh (codec g rd)
    + (sliceRowList g rd jj).foldl (fun a r =>
        a + rowOvhs g rd r * rowOvh (codec g rd) + rowCtus g rd r * minCtuBits (codec g rd) true) 0

/-- R178: whether the rendition's rate carries its costliest slice and unit; `nv` is the largest non-VCL size in
bits (R489). -/
def reserveFits (g : Tbl Nat) (rd b nv : Nat) : Bool :=
  let js := List.range (picSlices g)
  let rs := rSig g rd
  js.all (fun j => worstReserve g rd b j + nv ≤ sliceMax g rd) &&
    (if duUnits g rd then
       js.all (fun j => worstReserve g rd b j + nv ≤ rs * (period g).1 / ((period g).2 * slices g))
     else
       js.foldl (fun a j => a + worstReserve g rd b j) nv ≤ rs * (period g).1 / ((period g).2 * fields g))

/-! ## Level and tier (R114): the level tables of the three standards (PRESUMED) -/

/-- AVC: level_idc, MaxMBPS, MaxFS, MaxDpbMbs, MaxBR, MaxCPB. -/
def avcLevels : List (Nat × Nat × Nat × Nat × Nat × Nat) :=
  [(10, 1485, 99, 396, 64, 175), (9, 1485, 99, 396, 128, 350), (11, 3000, 396, 900, 192, 500), (12, 6000, 396, 2376, 384, 1000),
   (13, 11880, 396, 2376, 768, 2000), (20, 11880, 396, 2376, 2000, 2000), (21, 19800, 792, 4752, 4000, 4000),
   (22, 20250, 1620, 8100, 4000, 4000), (30, 40500, 1620, 8100, 10000, 10000),
   (31, 108000, 3600, 18000, 14000, 14000), (32, 216000, 5120, 20480, 20000, 20000)] ++
  [(40, 245760, 8192, 32768, 20000, 25000), (41, 245760, 8192, 32768, 50000, 62500),
   (42, 522240, 8704, 34816, 50000, 62500), (50, 589824, 22080, 110400, 135000, 135000),
   (51, 983040, 36864, 184320, 240000, 240000), (52, 2073600, 36864, 184320, 240000, 240000),
   (60, 4177920, 139264, 696320, 240000, 240000), (61, 8355840, 139264, 696320, 480000, 480000),
   (62, 16711680, 139264, 696320, 800000, 800000)]

/-- HEVC: general_level_idc, MaxLumaPs, MaxLumaSr, MaxBR Main and High, MaxCPB Main and High. -/
def hevcLevels : List (Nat × Nat × Nat × Nat × Nat × Nat × Nat) :=
  [(30, 36864, 552960, 128, 0, 350, 0), (60, 122880, 3686400, 1500, 0, 1500, 0),
   (63, 245760, 7372800, 3000, 0, 3000, 0), (90, 552960, 16588800, 6000, 0, 6000, 0),
   (93, 983040, 33177600, 10000, 0, 10000, 0), (120, 2228224, 66846720, 12000, 30000, 12000, 30000),
   (123, 2228224, 133693440, 20000, 50000, 20000, 50000)] ++
  [(150, 8912896, 267386880, 25000, 100000, 25000, 100000), (153, 8912896, 534773760, 40000, 160000, 40000, 160000),
   (156, 8912896, 1069547520, 60000, 240000, 60000, 240000),
   (180, 35651584, 1069547520, 60000, 240000, 60000, 240000),
   (183, 35651584, 2139095040, 120000, 480000, 120000, 480000),
   (186, 35651584, 4278190080, 240000, 800000, 240000, 800000)]

/-- VVC: the same columns. -/
def vvcLevels : List (Nat × Nat × Nat × Nat × Nat × Nat × Nat) :=
  [(16, 36864, 552960, 128, 0, 350, 0), (32, 122880, 3686400, 1500, 0, 1500, 0),
   (35, 245760, 7372800, 3000, 0, 3000, 0), (48, 552960, 16588800, 6000, 0, 6000, 0),
   (51, 983040, 33177600, 10000, 0, 10000, 0), (64, 2228224, 66846720, 12000, 30000, 12000, 30000),
   (67, 2228224, 133693440, 20000, 50000, 20000, 50000)] ++
  [(80, 8912896, 267386880, 25000, 100000, 25000, 100000), (83, 8912896, 534773760, 40000, 160000, 40000, 160000),
   (86, 8912896, 1069547520, 60000, 240000, 60000, 240000),
   (96, 35651584, 1069547520, 80000, 320000, 80000, 320000),
   (99, 35651584, 2139095040, 120000, 480000, 120000, 480000),
   (102, 35651584, 4278190080, 180000, 800000, 180000, 800000)]

/-- The NAL rate factor of a profile (PRESUMED, from the standards' profile tables). -/
def nalFactor (cod prof : Nat) : Nat :=
  if cod = 0 then (if prof = 0 then 1500 else if prof = 1 ∨ prof = 3 then 3600 else 4800)
  else if cod = 1 then (if prof ≤ 1 then 1100 else if prof = 2 then 1834 else 3300)
  else (if prof = 0 then 1100 else 2750)

/-- Pictures in the DPB (R114). -/
def dpbSize (g : Tbl Nat) (rd : Nat) : Nat :=
  let m := gopMode g rd
  if m = 5 then 1 else if m = 4 then (if gop g = 16 then 6 else 5) else 3

/-- Every level and tier whose limits the rendition meets, lowest first: the indicator and 1 for the High tier. -/
def levelsMet (g : Tbl Nat) (rd : Nat) : List (Nat × Nat) :=
  let cod := codec g rd
  let f := nalFactor cod (cfR g rd Reg.RN_CTRL_PROFILE)
  let rs := rSig g rd
  let bs := bAu g rd
  let w := rdW g rd
  if cod = 0 then
    let mbW := ceilDiv w 16
    let mbH := fields g * ceilDiv (rdH g rd) (16 * fields g)
    let fs := mbW * mbH
    (avcLevels.filter (fun x =>
      fs ≤ x.2.2.1 && mbW * mbW ≤ 8 * x.2.2.1 && mbH * mbH ≤ 8 * x.2.2.1
        && fs * (period g).2 ≤ x.2.1 * (period g).1
        && dpbSize g rd ≤ min 16 (x.2.2.2.1 / fs)
        && rs ≤ x.2.2.2.2.1 * f && bs ≤ x.2.2.2.2.2 * f)).map (fun x => (x.1, 0))
  else
    let cw := roundUpTo w 8
    let ch := roundUpTo (picH g rd) 8
    let ps := cw * ch
    let tiers (x : Nat × Nat × Nat × Nat × Nat × Nat × Nat) : List (Nat × Nat) :=
      let dpb := if cod = 1 then
          (if 4 * ps ≤ x.2.1 then 16 else if 2 * ps ≤ x.2.1 then 12 else if 4 * ps ≤ 3 * x.2.1 then 8 else 6)
        else (if 2 * ps ≤ x.2.1 then 16 else if 3 * ps ≤ 2 * x.2.1 then 12 else 8)
      let base := ps ≤ x.2.1 && cw * cw ≤ 8 * x.2.1 && ch * ch ≤ 8 * x.2.1
        && ps * (period g).2 * fields g ≤ x.2.2.1 * (period g).1 && dpbSize g rd ≤ dpb
      let main := base && cfR g rd Reg.RN_LEVEL_TIER_HIGH == 0 && rs ≤ x.2.2.2.1 * f && bs ≤ x.2.2.2.2.2.1 * f
      let high := base && x.2.2.2.2.1 != 0 && rs ≤ x.2.2.2.2.1 * f && bs ≤ x.2.2.2.2.2.2 * f
      (if main then [(x.1, 0)] else []) ++ (if high then [(x.1, 1)] else [])
    ((if cod = 1 then hevcLevels else vvcLevels).map tiers).flatten

/-- The signalled level and tier (R114), none when the rendition is refused. -/
def levelOf (g : Tbl Nat) (rd : Nat) : Option (Nat × Nat) :=
  let want := cfR g rd Reg.RN_LEVEL_LEVEL
  let met := levelsMet g rd
  if want = 0 then met.head? else met.find? (fun x => x.1 == want)

/-! ## Packets (R244, R255) -/

/-- N_nal of R244 is `nn`; the largest number of packets of a tick slice. -/
def maxPkts (g : Tbl Nat) (rd nn : Nat) : Nat :=
  if cfR g rd Reg.OUT_CTRL_ENCAP = 0 then
    ceilDiv (sliceMax g rd) (8 * (cfR g rd Reg.OUT_CTRL_PAYLOAD - 3)) + nn
  else ceilDiv (sliceMax g rd) (8 * 184 * cfR g rd Reg.OUT_CTRL_TS_PKTS) + 2

/-- H of R255 for a flow: VLAN tag, IPv6, and the encapsulation. -/
def wireOver (vlan ipv6 encap : Nat) : Nat :=
  20 + 14 + (if vlan = 1 then 4 else 0) + (if ipv6 = 1 then 40 else 20) + 8 + (if encap ≤ 1 then 12 else 0)
    + (if encap = 0 then 3 else 0) + 4

/-- The least PIR in kb/s that R255 asks of a flow: both sides multiplied out, so this is a test. -/
def pirEnough (g : Tbl Nat) (rd nn pir h : Nat) : Bool :=
  let mp := maxPkts g rd nn
  let bits8 := if cfR g rd Reg.OUT_CTRL_ENCAP = 0 then sliceMax g rd + 8 * mp * h
    else 8 * mp * (h + 188 * cfR g rd Reg.OUT_CTRL_TS_PKTS)
  4 * bits8 * (period g).2 * slices g ≤ 3 * pir * 1000 * (period g).1

end Sys2Proof.Machine
end

