-- ==== Sys2Proof/Machine/Signal.lean ====
section
/-! DEFINITION. What a rendition's stream signals of itself: the coding tools (R120 to R122), VUI (R124), HRD parameters (R161, R165),
parameter sets (R114, R115, R118, R125, R141), the bytes of the SEI messages whose contents the spec gives (R151, R153, R154), and the
largest non-VCL size and NAL count (R489). -/

namespace Sys2Proof.Machine

/-! ## Tools and parameter sets -/

/-- The tools that the tables of R120 to R122 let a stream use; LMCS only for PQ and HLG. -/
def toolsOf (g : Tbl Nat) (rd : Nat) : List Tool :=
  if codec g rd = 2 then
    [.ternarySplit, .multiRefLine, .crossCompModel, .mmvd, .amvr, .affine, .sbTmvp, .gpm, .ciip, .bcw, .smvd, .mts, .lfnst, .sbt,
      .jointChroma, .depQuant, .alf, .ccAlf, .sao, .rdoq] ++ (if 2 ≤ cfR g rd Reg.RN_CTRL_COLOUR then [.lmcs] else [])
  else if codec g rd = 1 then [.asymPartition, .signHiding, .sao, .rdoq]
  else [.transform8, .spatialDirect, .rdoq]

/-- The colour codes of R124: primaries, transfer characteristics, matrix. -/
def colourCodes (colour depth : Nat) : Nat × Nat × Nat :=
  if colour = 0 then (1, 1, 1)
  else if colour = 1 then (9, if depth = 2 then 15 else 14, 9)
  else (9, if colour = 2 then 16 else 18, 9)

/-- The VUI (R124); field coding gives the field rate. -/
def vuiOf (g : Tbl Nat) (rd : Nat) : Vui :=
  let col := cfR g rd Reg.RN_CTRL_COLOUR
  let z := colourCodes col (cfR g rd Reg.RN_CTRL_DEPTH)
  { primaries := z.1, transfer := z.2.1, matrix := z.2.2, fullRange := 0,
    chromaLoc := if cfR g rd Reg.RN_CTRL_CHROMA = 0 then some (if col = 0 then 0 else 2) else none,
    unitsInTick := (period g).1, timeScale := (period g).2 * fields g, fieldSeq := codec g rd == 1 && interlaced g }

/-- The HRD parameters (R138, R161, R165). -/
def hrdOf (g : Tbl Nat) (rd : Nat) : Hrd :=
  let rate := rSig g rd / 64 - 1
  { nal := true, vcl := false, cpbCntMinus1 := 0, bitRateScale := 0, cpbSizeScale := 0, bitRateValueMinus1 := rate,
    cpbSizeValueMinus1 := bAu g rd / 16 - 1,
    du := if duUnits g rd then some (rate, bCpb g rd / 16 - 1, slices g - 2) else none,
    cbr := cfR g rd Reg.RC_CTRL_MODE == 0, lowDelay := false, fixedPicRate := true, duration := 1 }

/-- The coded size: whole macroblocks (of both fields) in AVC, whole smallest coding blocks of 8 in HEVC and VVC (R118). -/
def codedSize (g : Tbl Nat) (rd : Nat) : Nat × Nat :=
  if codec g rd = 0 then (roundUpTo (rdW g rd) 16, roundUpTo (rdH g rd) (16 * fields g))
  else (roundUpTo (rdW g rd) 8, roundUpTo (picH g rd) 8)

/-- The CTU rows of each of `b` bands (R140): the first and their number. -/
def bandSplit (g : Tbl Nat) (rd b : Nat) : List (Nat × Nat) :=
  (List.range b).map (fun x =>
    (x * codingRows g rd / b, (x + 1) * codingRows g rd / b - x * codingRows g rd / b))

/-- The sequence parameter set of a rendition over `b` bands. -/
def spsOf (g : Tbl Nat) (rd b : Nat) : Sps :=
  let lv := (levelOf g rd).getD (0, 0)
  let z := codedSize g rd
  let h := if codec g rd = 0 then rdH g rd else picH g rd
  { id := 0, vps := 0, profile := cfR g rd Reg.RN_CTRL_PROFILE, level := lv.1, tier := lv.2, chroma := cfR g rd Reg.RN_CTRL_CHROMA,
    depth := 8 + 2 * cfR g rd Reg.RN_CTRL_DEPTH, width := z.1, height := z.2, cropRight := z.1 - rdW g rd, cropBottom := z.2 - h,
    fieldPics := codec g rd == 0 && interlaced g, dpb := dpbSize g rd,
    reorder := if ladder g && gopMode g rd == 4 then (if gop g = 16 then 4 else 3) else 0, tools := toolsOf g rd,
    subpics := if codec g rd = 2 && 1 < b then bandSplit g rd b else [], treatedAsPic := false, loopAcrossSubpics := false,
    vui := vuiOf g rd, hrd := hrdOf g rd }

/-- The picture parameter set: one tile column, a tile row per band (R141); WPP in HEVC and VVC (R129). -/
def ppsOf (g : Tbl Nat) (rd b : Nat) : Pps :=
  let cod := codec g rd
  { id := 0, tileCols := 1, tileRows := if cod = 0 then [] else (bandSplit g rd b).map (·.2), loopAcrossTiles := false,
    wpp := cod != 0, qpDeltaDepth := if cod = 1 then 2 else 0, transform8 := cod == 0 }

/-! ## Bytes -/

/-- The emulation-prevention bytes that a run of bytes needs, with `zeros` zero bytes before it (PRESUMED, the standards' rule). -/
def emulated : Nat → List Nat → Nat
  | _, [] => 0
  | zeros, b :: rest =>
    if 2 ≤ zeros ∧ b ≤ 3 then 1 + emulated (if b = 0 then 1 else 0) rest
    else emulated (if b = 0 then zeros + 1 else 0) rest

/-- The bytes that a NAL unit adds in a byte stream: a start code prefix, and a zero_byte before an access unit's first NAL unit and
before parameter sets (R162, PRESUMED places of zero_byte). Nothing where the stream goes as RTP payload. -/
def startCode (g : Tbl Nat) (rd : Nat) (long : Bool) : Nat :=
  if cfR g rd Reg.OUT_CTRL_ENCAP = 0 then 0 else if long then 4 else 3

/-- Bytes of a NAL unit's header. -/
def nalHead (cod : Nat) : Nat := if cod = 0 then 1 else 2

/-- The size of a NAL unit that holds one SEI message with a known payload (PRESUMED, the standards' SEI syntax). -/
def seiSize (cod type : Nat) (payload : List Nat) : Nat :=
  let head := if cod = 0 then [6] else if cod = 1 then [78, 1] else [0, 185]
  let all := head ++ [type, payload.length] ++ payload ++ [128]
  all.length + emulated 0 all

/-- Big-endian bytes of a value. -/
def beBytes (n v : Nat) : List Nat := (leBytes n v).reverse

/-- The T.35 payload of R154 for caption triplets: country code, provider code, "GA94", user_data_type_code, cc_data (the header of
cc_data PRESUMED from ATSC A/53 Part 4). -/
def captionBytes (caps : List Nat) : List Nat :=
  [0xB5, 0x00, 0x31, 0x47, 0x41, 0x39, 0x34, 0x03, 0xC0 + caps.length % 32, 0xFF] ++ caps.flatMap (beBytes 3) ++ [0xFF]

/-- Mastering display colour volume of RN_MDCV: green, blue, red, white point, maximum and minimum luminance. -/
def masteringBytes (g : Tbl Nat) (rd : Nat) : List Nat :=
  [Reg.RN_MDCV0_G_X, Reg.RN_MDCV0_G_Y, Reg.RN_MDCV1_B_X, Reg.RN_MDCV1_B_Y, Reg.RN_MDCV2_R_X, Reg.RN_MDCV2_R_Y, Reg.RN_MDCV3_WP_X,
    Reg.RN_MDCV3_WP_Y].flatMap (fun row => beBytes 2 (cfR g rd row))
    ++ beBytes 4 (cfR g rd Reg.RN_MDCV4_MAX_LUM) ++ beBytes 4 (cfR g rd Reg.RN_MDCV5_MIN_LUM)

/-- Content light level of RN_CLL. -/
def lightBytes (g : Tbl Nat) (rd : Nat) : List Nat :=
  beBytes 2 (cfR g rd Reg.RN_CLL_MAX_CLL) ++ beBytes 2 (cfR g rd Reg.RN_CLL_MAX_FALL)

/-- The bytes of the VVC timecode SEI (R153). -/
def vvcTimecode (drop disc : Bool) (src : Nat) (x : Timecode) : List Nat :=
  [0x6f, 0x1c, 0x2b, 0x7e, 0x93, 0xa4, 0x4d, 0x58, 0xb0, 0xe6, 0x2c, 0x9a, 0x71, 0xf4, 0xd0, 0x35, 0x01,
    b2n drop + 2 * b2n disc + 4 * (src % 4), x.hh, x.mm, x.ss, x.ff, 0, 0]

/-- The smallest filler data NAL unit (R183). -/
def leastFiller (g : Tbl Nat) (rd : Nat) : Nat := (if codec g rd = 0 then 2 else 3) + startCode g rd false

/-- The size of an access unit delimiter, and of an end-of-bitstream NAL unit (PRESUMED). -/
def audSize (g : Tbl Nat) (rd : Nat) : Nat := nalHead (codec g rd) + 1 + startCode g rd true

/-- The size of an end of bitstream (R119, R126). -/
def eobSize (g : Tbl Nat) (rd : Nat) : Nat := nalHead (codec g rd) + startCode g rd false

/-! ## The largest non-VCL size (R489) -/

/-- The NAL units beside slices that the costliest tick slice can carry, by size in bytes: `z` gives those of the standards' syntax
at their largest. -/
def worstNonVcl (g : Tbl Nat) (rd : Nat) (z : NvIn) : List Nat :=
  let cod := codec g rd
  let on (row : Row) : Bool := cfR g rd row == 1
  let nal (b : Bool) (n : Nat) : List Nat := if b then [n + startCode g rd false] else []
  let set (b : Bool) (n : Nat) : List Nat := if b then [n + startCode g rd true] else []
  [audSize g rd] ++ set (cod == 1) z.vps ++ set true z.sps ++ set true z.pps
    ++ set (cod == 2) z.alf ++ set (cod == 2 && (toolsOf g rd).contains .lmcs) z.lmcs
    ++ nal true z.bp ++ nal true z.pt ++ nal (cod != 2 && refreshMode (gopMode g rd)) z.rp
    ++ nal (on Reg.RN_SEI_CC_EN) (seiSize cod 4 (captionBytes (List.replicate 31 0)))
    ++ nal (cod == 2 && on Reg.RN_SEI_TC_EN) (seiSize cod 5 (vvcTimecode false false 0 ⟨0, 0, 0, 0⟩))
    ++ nal (cod == 1 && on Reg.RN_SEI_TC_EN) z.tc
    ++ nal (on Reg.RN_SEI_HDR_EN) (seiSize cod 137 (masteringBytes g rd)) ++ nal (on Reg.RN_SEI_HDR_EN) (seiSize cod 144 (lightBytes g rd))
    ++ nal (duUnits g rd) z.dui ++ nal (cod == 2) z.ph
    ++ (if cfR g rd Reg.RC_CTRL_MODE = 0 then [leastFiller g rd] else [])

/-- The largest non-VCL size in bits (R178, R489). -/
def nvMax (g : Tbl Nat) (rd : Nat) (z : NvIn) : Nat := 8 * (worstNonVcl g rd z).foldl (· + ·) 0

/-- N_nal of R244: those NAL units, the slices of a tick slice over `b` bands, and in CBR the filler that can fill SLICE_MAX. -/
def nNal (g : Tbl Nat) (rd b : Nat) (z : NvIn) : Nat :=
  (worstNonVcl g rd z).length + (List.range (picSlices g)).foldl (fun a jj => max a (sliceNals g rd b jj)) 0
    + (if cfR g rd Reg.RC_CTRL_MODE = 0 then sliceMax g rd / 8 / 4096 else 0)

/-- The sizes given for rendition `rd`. -/
def nvAt (l : List NvIn) (rd : Nat) : NvIn := l.getD rd ⟨0, 0, 0, 0, 0, 0, 0, 0, 0, 0, 0⟩

end Sys2Proof.Machine
end

