-- ==== Sys2Proof/Machine/Capacity.lean ====
section
/-! DEFINITION. Channels in service and what their regions carry: the channel's registers, the loads of R49 to R53,
the ceilings of R18 and R54, engine placement (R49), the buffer check (R317), Stolon routes (R20 to R23, R53), the
protection groups (R264, R268) and re-admission (R69). Loads are in 0.1 CLU, DLU, Mpixel/s and MB/s. -/

namespace Sys2Proof.Machine

/-! ## Channels -/

/-- A channel's state. -/
def Dev.chan (d : Dev) (c : Nat) : Chan := tget d.chans c Chan.init

/-- A change of a channel's state. -/
def Dev.setChan (d : Dev) (c : Nat) (f : Chan → Chan) : Dev := { d with chans := tmod d.chans c Chan.init f }

/-- CH_STATE.STATE (R81): 0 FREE, 1 STARTING, 2 RUNNING, 3 STOPPING, 4 QUARANTINE. -/
def Dev.chState (d : Dev) (c : Nat) : Nat := d.rd Reg.CH_STATE_STATE (wCHSTAT c)

/-- A channel's generation (R80). -/
def Dev.chGen (d : Dev) (c : Nat) : Nat := d.rd Reg.CH_STATE_GEN (wCHSTAT c)

/-- The lead region (R78): the lowest-numbered that carries the channel. -/
def Dev.lead (d : Dev) (c : Nat) : Nat := (d.chan c).regions.headD 0

/-- The region that codes a channel's frame `k`: from the frame of a revert on, the one that takes the channel (R285). -/
def Dev.codeRegion (d : Dev) (c k : Nat) : Nat :=
  match (d.chan c).handTo with
  | some (k0, r) => if k0 ≤ k then r else d.lead c
  | none => d.lead c

/-- A channel is live in STARTING, RUNNING or STOPPING. -/
def Dev.live (d : Dev) (c : Nat) : Bool := 1 ≤ d.chState c && d.chState c ≤ 3

/-- The live channels. -/
def Dev.liveChans (d : Dev) : List Nat := (d.chans.map (·.1)).filter d.live

/-- Whether a channel is protected (R264). -/
def Dev.protectedCh (d : Dev) (c : Nat) : Bool := d.rd Reg.CH_STATE_PROTECTED (wCHSTAT c) == 1

/-- Whether a channel is preemptible (R267). -/
def Dev.preemptible (d : Dev) (c : Nat) : Bool := d.rd Reg.CH_STATE_PREEMPTIBLE (wCHSTAT c) == 1

/-- A change of state with its event (R78). -/
def Dev.setChState (d : Dev) (c st : Nat) : Dev :=
  let d := d.wr Reg.CH_STATE_STATE (wCHSTAT c) st
  d.event (blk (d.lead c) ixRGN) 0 c (st + d.chGen c * 256)

/-- The live channels that region `r` carries. -/
def Dev.chansOn (d : Dev) (r : Nat) : List Nat := d.liveChans.filter (fun c => (d.chan c).regions.contains r)

/-- ρ of a channel (R372), in 2^-16 ns. -/
def Dev.rho (d : Dev) (c : Nat) : Int := signed 64 (d.rdPair Reg.CH_RHO_LO Reg.CH_RHO_HI pPTP c)

/-- CH_RHO of a channel (R386). -/
def Dev.setRho (d : Dev) (c : Nat) (v : Int) : Dev :=
  d.wrPair Reg.CH_RHO_LO Reg.CH_RHO_HI pPTP (unsignedOf 64 v) c

/-- The master's TB in 2^-16 ns. -/
def Dev.nowTu (d : Dev) : Nat := (d.tb d.holder).cnt / 2 ^ 16

/-- Region `r`'s own TB in 2^-16 ns. -/
def Dev.tuOf (d : Dev) (r : Nat) : Nat := (d.tb r).cnt / 2 ^ 16

/-- The instant of slice tick `n` = k × S + j of a channel (R373). -/
def Dev.slotTu (d : Dev) (c n : Nat) : Int := d.rho c + (tickTu (d.chan c).cfg n : Nat)

/-- The instant of frame tick `k` of a channel (R373). -/
def Dev.tickAt (d : Dev) (c k : Nat) : Int := d.rho c + (frameTu (d.chan c).cfg k : Nat)

/-- The first frame tick at or after an instant in 2^-16 ns. -/
def Dev.frameFrom (d : Dev) (c : Nat) (x : Int) : Nat :=
  let g := (d.chan c).cfg
  let y := (x - d.rho c).toNat
  let k := y * (period g).2 / ((period g).1 * tuSec)
  if frameTu g k < y then k + 1 else k

/-- The active layer field of a channel's window entry. -/
def Dev.actL (d : Dev) (c l : Nat) (row : Row) : Nat := d.rd row (wLY c l)

/-- A layer beyond its registers. -/
def Dev.lay (d : Dev) (c l : Nat) : LaySt := tget (d.chan c).lays l LaySt.init

/-- Changes what is kept of a channel frame. -/
def Dev.setInfo (d : Dev) (c k : Nat) (f : FrameInfo → FrameInfo) : Dev :=
  d.setChan c (fun x => { x with info := tmod x.info k FrameInfo.init f })

/-- Sizes of NAL units of the standards' syntax as free values, and the state after them: 11 of the model's own counter. -/
def Dev.freeNv (d : Dev) : NvIn :=
  let f (i : Nat) : Nat := Config.freeNat (d.free + i)
  ⟨f 0, f 1, f 2, f 3, f 4, f 5, f 6, f 7, f 8, f 9, f 10⟩

/-- The counter of free values after n of them. -/
def Dev.freeSkip (d : Dev) (n : Nat) : Dev := { d with free := d.free + n }

/-! ## Renditions, and what holds for a frame (R62, R119) -/

/-- A rendition's state. -/
def Dev.rend (d : Dev) (c rd : Nat) : Rend := tget d.rends (c * 8 + rd) Rend.init

/-- A change of a rendition's state. -/
def Dev.setRend (d : Dev) (c rd : Nat) (f : Rend → Rend) : Dev :=
  { d with rends := tmod d.rends (c * 8 + rd) Rend.init f }

/-- The descriptor in force for frame `k`. -/
def cfgAt (ch : Chan) (k : Nat) : Tbl Nat := ((ch.prev.find? (fun p => k < p.1)).map (·.2)).getD ch.cfg

/-- The first frame that a rendition does not code: the channel's stop or the rendition's end. -/
def stopFor (ch : Chan) (x : Rend) : Option Nat :=
  match ch.stopK, x.ended with
  | some a, some b => some (min a b)
  | some a, none => some a
  | none, b => b

/-- Whether a register key lies in what the status windows hold of a rendition, the statistics ring of its index apart. -/
def inRendWin (c rd key : Nat) : Bool :=
  let within (base size : Nat) : Bool := base * 32 ≤ key && key < (base + size) * 32
  within (wLIVE c rd) 4 || within (wRCS c rd) 0x40 || within (wOS c rd) 0x10

/-- Exchanges the rendition at an index with the one it replaced, their status registers with them. -/
def Dev.swapOld (d : Dev) (c rd : Nat) : Dev :=
  let key := c * 8 + rd
  let mine := tkeep (fun k _ => inRendWin c rd k) d.regs
  let rest := tkeep (fun k _ => !(inRendWin c rd k)) d.regs
  let a := tget? d.rends key
  let b := tget? d.olds key
  { d with
    rends := match b with
      | some o => tput d.rends key o.1
      | none => tdel d.rends key,
    olds := match a with
      | some x => tput d.olds key (x, mine)
      | none => tdel d.olds key,
    regs := match b with
      | some o => o.2.foldl (fun m p => tput m p.1 p.2) rest
      | none => d.regs }

/-- Whether frame `k` of a rendition belongs to the rendition that was replaced. -/
def Dev.isOld (d : Dev) (c rd k : Nat) : Bool :=
  match tget? d.olds (c * 8 + rd) with
  | some o => decide (k < o.1.ended.getD 0)
  | none => false

/-- What `f` does under the descriptor and the rendition that hold for frame `k`. -/
def Dev.asOf (d : Dev) (c rd k : Nat) (f : Dev → Dev) : Dev :=
  let now := (d.chan c).cfg
  let old := d.isOld c rd k
  let d1 := d.setChan c (fun x => { x with cfg := cfgAt x k })
  let d2 := f (if old then d1.swapOld c rd else d1)
  let d3 := if old then d2.swapOld c rd else d2
  if (tget? d3.chans c).isSome then d3.setChan c (fun x => { x with cfg := now }) else d3

/-! ## Blocks out of capacity (R17, R18, R394) -/

/-- Whether a block is out of service: fenced or disabled (R17, R394). -/
def Dev.outOf (d : Dev) (r ix : Nat) : Bool :=
  d.rd Reg.STATUS_FENCED (blk r ix) == 1 || d.rd Reg.CTRL_ENABLE (blk r ix) == 0

/-- How many of n blocks from an index on are in service. -/
def Dev.inCount (d : Dev) (r first n : Nat) : Nat :=
  ((List.range n).filter (fun i => !(d.outOf r (first + i)))).length

/-- The coding ceiling of one region: 92 % of 650 CLU per engine (R18, R54). -/
def Dev.cluOne (d : Dev) (r : Nat) : Nat := 5980 * d.inCount r ixCE 8

/-- The coding ceiling of a placement: for a span 95 % of the sum (R54: 9,089.6 and 18,179.2). -/
def Dev.cluCeil (d : Dev) (rs : List Nat) : Nat :=
  let sum := rs.foldl (fun a r => a + d.cluOne r) 0
  if rs.length ≤ 1 then sum else sum * 95 / 100

/-- The composition ceiling of a region, in tenths (R18, R50). -/
def Dev.compCeil (d : Dev) (r : Nat) : Nat := if d.outOf r ixCOMPOSE then 0 else 60000

/-- The scaler ceiling of a region, in tenths (R110). -/
def Dev.scaleCeil (d : Dev) (r : Nat) : Nat := 48000 * d.inCount r ixSCALER 2

/-- A memory port in service: IN_SERVICE or RETRAINING (R323). -/
def Dev.portIn (d : Dev) (r p : Nat) : Bool :=
  let st := d.rd Reg.MP_STATE_STATE (blk r (ixMEMPORT + p))
  (st == 2 || st == 3) && !(d.outOf r (ixMEMPORT + p))

/-- The memory ports of a region in service. -/
def Dev.portsIn (d : Dev) (r : Nat) : List Nat := (List.range 4).filter (d.portIn r)

/-- Post-ECC bandwidth of a port in 0.1 MB/s (R304). -/
def Dev.portBw (d : Dev) (r p : Nat) : Nat :=
  let x := d.rd Reg.MP_CFG_RATE (blk r (ixMEMPORT + p))
  if x = 0 then 455000 else if x = 1 then 533000 else 607000

/-- The memory ceiling (R52, R54). -/
def Dev.memCeil (d : Dev) (r : Nat) : Nat := (d.portsIn r).foldl (fun a p => a + d.portBw r p) 0 * 8 / 10

/-! ## Spans (R51, R140) -/

/-- The regions of a placement in band order. -/
def bandRegions (rs : List Nat) : List Nat :=
  match rs with
  | [a, b, x, y] => [a, b, y, x]
  | l => l

/-- The band that region `r` codes. -/
def bandIx (rs : List Nat) (r : Nat) : Nat := ((bandRegions rs).findIdx? (· == r)).getD 0

/-- Rows of band `x` of `b` (R140). -/
def bandRows (g : Tbl Nat) (rd b x : Nat) : Nat :=
  (x + 1) * codingRows g rd / b - x * codingRows g rd / b

/-- A region's share of a term (R51), rounded. -/
def shareOf (g : Tbl Nat) (rd : Nat) (rs : List Nat) (r v : Nat) : Nat :=
  if rs.length ≤ 1 then v else roundDiv (v * bandRows g rd rs.length (bandIx rs r)) (codingRows g rd)

/-- What one channel asks of one region: composition, scaler input, memory, and the parts of R317. -/
structure Load where
  comp : Nat
  scale : Nat
  mem : Nat
  capW : Nat
  compR : Nat
  deriving DecidableEq, Repr

/-- No load. -/
def Load.zero : Load := ⟨0, 0, 0, 0, 0⟩

/-- The sum of two loads. -/
def Load.add (a b : Load) : Load := ⟨a.comp + b.comp, a.scale + b.scale, a.mem + b.mem, a.capW + b.capW, a.compR + b.compR⟩

/-- Enabled layers above 0, layer fields given by `ly`. -/
def gOf (ly : Nat → Row → Nat) : Nat := ((List.range 8).filter (fun l => l != 0 && ly l Reg.LY_CTRL_ENABLE == 1)).length

/-- A layer that is scaled. -/
def lyScaled (ly : Nat → Row → Nat) (l : Nat) : Bool :=
  l != 0 && ly l Reg.LY_CTRL_ENABLE == 1 &&
    (ly l Reg.LY_SRC_SIZE_WIDTH != ly l Reg.LY_DST_SIZE_WIDTH || ly l Reg.LY_SRC_SIZE_HEIGHT != ly l Reg.LY_DST_SIZE_HEIGHT)

/-- Scaler input of the scaled layers, in 0.1 Mpixel/s (R110). -/
def lyScale (g : Tbl Nat) (ly : Nat → Row → Nat) : Nat :=
  (List.range 8).foldl (fun a l =>
    if lyScaled ly l then a + rate01 g (ly l Reg.LY_SRC_SIZE_WIDTH) (ly l Reg.LY_SRC_SIZE_HEIGHT) else a) 0

/-- The load of a channel on region `r` of its placement (R50 to R52); the lead region decodes its feed. -/
def loadOf (g : Tbl Nat) (ly : Nat → Row → Nat) (rs : List Nat) (r : Nat) : Load :=
  let gl := gOf ly
  let sh0 := shareOf g 0 rs r
  let rmem := (rdList g).foldl (fun a rd =>
    a + shareOf g rd rs r (memCode g rd)
      + (if cfR g rd Reg.RN_CTRL_CONF_DEC = 1 then shareOf g rd rs r (memDec g rd) else 0)) 0
  { comp := sh0 (compCost g gl), scale := sh0 (scaleIn g + lyScale g ly),
    mem := sh0 (memChan g gl) + rmem + (if feedOn g && rs.headD 0 == r then memFeed g else 0),
    capW := sh0 (memCapture g), compR := sh0 (roundDiv (chX g * (srcB2 g + 8 * gl)) 2) }

/-- The load of a channel in service on region `r`. -/
def Dev.chanLoad (d : Dev) (c r : Nat) : Load :=
  loadOf (d.chan c).cfg (fun l row => d.actL c l row) (d.chan c).regions r

/-! ## Protection groups (R264 to R268) -/

/-- The protection groups (R264). -/
def groups : List Nat := [0, 1, 2, 3]

/-- A group's mode (R264). -/
def Dev.pgMode (d : Dev) (n : Nat) : Nat := d.rd Reg.PG_CFG_MODE pSHM n

/-- The active regions of a group by slot. -/
def Dev.pgActs (d : Dev) (n : Nat) : List Nat :=
  if d.pgMode n = 0 then []
  else d.rd Reg.PG_CFG_ACT_A pSHM n :: (if d.pgMode n = 2 then [d.rd Reg.PG_CFG_ACT_B pSHM n] else [])

/-- A group's standby region (R264). -/
def Dev.pgStby (d : Dev) (n : Nat) : Nat := d.rd Reg.PG_CFG_STBY pSHM n

/-- The group and slot in which region `r` is active. -/
def Dev.slotOf (d : Dev) (r : Nat) : Option (Nat × Nat) :=
  (groups.flatMap (fun n => [(n, 0), (n, 1)])).find? (fun x => (d.pgActs x.1)[x.2]? == some r)

/-- The group in which region `r` stands by. -/
def Dev.stbyOf (d : Dev) (r : Nat) : Option Nat := groups.find? (fun n => d.pgMode n != 0 && d.pgStby n == r)

/-- The protected channels on a region. -/
def Dev.protOn (d : Dev) (r : Nat) : List Nat := (d.chansOn r).filter d.protectedCh

/-- The tracking and capture load that standby `s` bears for a channel it tracks (R49, R52, R268). -/
def trackLoad (g : Tbl Nat) : Load :=
  let m := (rdList g).foldl (fun a rd => a + memDec g rd) 0
  { comp := 0, scale := 0, mem := m + memCapture g, capW := memCapture g, compR := 0 }

/-- PG_STATUS.STATE of a slot (R273, R287). -/
def Dev.pgState (d : Dev) (n slot : Nat) : Nat :=
  d.rd (if slot = 0 then Reg.PG_STATUS_STATE_A else Reg.PG_STATUS_STATE_B) pSHM n

/-- The region that carries the slot's channels (R287). -/
def Dev.pgServer (d : Dev) (n slot : Nat) : Nat :=
  d.rd (if slot = 0 then Reg.PG_STATUS_SERVER_A else Reg.PG_STATUS_SERVER_B) pSHM n

/-- The standby carries the slot's channels: TAKEN, RETURNING or REVERTING from it. -/
def Dev.standbyServes (d : Dev) (n slot : Nat) : Bool :=
  let st := d.pgState n slot
  4 ≤ st && st ≤ 6 && d.pgServer n slot == d.pgStby n

/-- Whether the slot's active region tracks what the standby carries (R284). -/
def Dev.returning (d : Dev) (n slot : Nat) : Bool := d.standbyServes n slot && d.pgState n slot != 4

/-- The channels that region `s` tracks: as a standby those of the group's active regions, as a returning region those that
the standby carries for it (R284). -/
def Dev.tracked (d : Dev) (s : Nat) : List Nat :=
  match d.stbyOf s with
  | some n => (d.pgActs n).flatMap (fun a => if a == s then [] else d.protOn a)
  | none =>
    match d.slotOf s with
    | some x => if d.returning x.1 x.2 then d.protOn (d.pgStby x.1) else []
    | none => []

/-- The whole load of region `r`, channel `skip` left out. -/
def Dev.regionLoad (d : Dev) (r : Nat) (skip : Option Nat) : Load :=
  let own := ((d.chansOn r).filter (fun c => some c != skip)).foldl (fun a c => a.add (d.chanLoad c r)) Load.zero
  ((d.tracked r).filter (fun c => some c != skip)).foldl (fun a c => a.add (trackLoad (d.chan c).cfg)) own

/-! ## Decode engines (R49) -/

/-- The key of a region's numbered member. -/
def slotKey (r slot : Nat) : Nat := r * 2048 + slot

/-- The load of engine `e` of region `r`, the streams of channel `skip` left out. -/
def Dev.engLoad (d : Dev) (r e : Nat) (skip : Option Nat) : Nat :=
  d.strms.foldl (fun a x =>
    let slot := x.1 % 2048
    let c := if slot < 1024 then slot / 8 else slot - 1024
    if x.1 / 2048 == r && x.2.eng == e && some c != skip then a + x.2.dlu else a) 0

/-- The streams of a descriptor on region `r`: slot, load and use. A feed is one stream, whole on the lead region (R49). -/
def streamsOf (g : Tbl Nat) (c : Nat) (rs : List Nat) (r : Nat) : List (Nat × Nat × Nat) :=
  ((rdList g).filter (fun rd => cfR g rd Reg.RN_CTRL_CONF_DEC == 1)).map
      (fun rd => (c * 8 + rd, shareOf g rd rs r (dluOf g rd), 0))
    ++ (if feedOn g && rs.headD 0 == r then [(1024 + c, feedDlu g, 2)] else [])

/-- The streams that a standby decodes of a descriptor: its renditions tracked, and its feed (R49, R197). -/
def trackStreams (g : Tbl Nat) (c : Nat) : List (Nat × Nat × Nat) :=
  (rdList g).map (fun rd => (c * 8 + rd, dluOf g rd, 1)) ++ (if feedOn g then [(1024 + c, feedDlu g, 2)] else [])

/-- Places streams one by one on the engine with the lower load that can hold them, DE_0 when equal (R49): the
placements, or the smallest excess. `use_` tells which engines are in service. -/
def placeStreams (use0 use1 : Bool) : List (Nat × Nat × Nat) → Nat → Nat → List (Nat × Strm) → Nat ⊕ List (Nat × Strm)
  | [], _, _, acc => .inr acc
  | (slot, dlu, u) :: rest, l0, l1, acc =>
    let ok0 := use0 && l0 + dlu ≤ 40000
    let ok1 := use1 && l1 + dlu ≤ 40000
    if ok0 && (!ok1 || l0 ≤ l1) then placeStreams use0 use1 rest (l0 + dlu) l1 (acc ++ [(slot, ⟨0, dlu, u⟩)])
    else if ok1 then placeStreams use0 use1 rest l0 (l1 + dlu) (acc ++ [(slot, ⟨1, dlu, u⟩)])
    else .inl ((min (if use0 then l0 else l1) (if use1 then l1 else l0)) + dlu - 40000)

/-- Placement of streams on region `r` beside everything but channel `skip`. -/
def Dev.placeOn (d : Dev) (r : Nat) (skip : Option Nat) (ss : List (Nat × Nat × Nat)) : Nat ⊕ List (Nat × Strm) :=
  placeStreams (!(d.outOf r ixDE)) (!(d.outOf r (ixDE + 1))) ss (d.engLoad r 0 skip) (d.engLoad r 1 skip) []

/-- DE_LOAD of a region's engines (R216). -/
def Dev.syncDe (d : Dev) (r : Nat) : Dev :=
  d.each [0, 1] (fun d e =>
    let d := d.wr Reg.DE_LOAD_DLU (blk r (ixDE + e)) (d.engLoad r e none)
    d.wr Reg.DE_LOAD_STREAMS (blk r (ixDE + e))
      (d.strms.filter (fun x => x.1 / 2048 == r && x.2.eng == e)).length)

/-- Clears a stream slot's status entry (R217). -/
def Dev.clearWin (d : Dev) (rows : List Row) (base : Nat) : Dev :=
  { d with regs := rows.foldl (fun m row => tdel m (row.key base 0)) d.regs }

/-- Puts streams into service on a region (R49, R217). -/
def Dev.addStreams (d : Dev) (r : Nat) (ps : List (Nat × Strm)) : Dev :=
  (d.each ps (fun d p =>
    let b := wDS r p.1
    let d := d.clearWin Reg.rows_ds b
    let d := ((d.wr Reg.DS_STATE_ACTIVE b 1).wr Reg.DS_STATE_USE b p.2.use).wr Reg.DS_STATE_ENGINE b p.2.eng
    { d with strms := tput d.strms (slotKey r p.1) p.2, slots := tput d.slots (slotKey r p.1) DecSlot.init })).syncDe r

/-- Takes a channel's streams of one kind off a region. -/
def Dev.dropStreams (d : Dev) (r c : Nat) : Dev :=
  let mine (k : Nat) : Bool :=
    k / 2048 == r && (let s := k % 2048; (if s < 1024 then s / 8 else s - 1024) == c)
  let d := d.each ((d.strms.map (·.1)).filter mine) (fun d k => d.wr Reg.DS_STATE_ACTIVE (wDS r (k % 2048)) 0)
  { d with strms := tkeep (fun k _ => !(mine k)) d.strms, slots := tkeep (fun k _ => !(mine k)) d.slots }.syncDe r

/-! ## The buffer check (R317) -/

/-- tRFCab, tRFCpb and tRPab of a port in ns (R316, R490): the board record's, else JESD209-5C's (PRESUMED). -/
def Dev.memTiming (d : Dev) (r p : Nat) : Nat × Nat × Nat :=
  match d.nvm.board with
  | some b =>
    let o := 0x30 + (r * 4 + p) * 8
    (fromLE ((b.drop (o + 2)).take 2), fromLE ((b.drop (o + 4)).take 2), fromLE ((b.drop (o + 6)).take 2))
  | none => if d.rd Reg.MP_CFG_DENSITY (blk r (ixMEMPORT + p)) = 0 then (280, 140, 21) else (380, 190, 21)

/-- Whether the buffers of R314 hold for a region's capture writes and composition reads. -/
def Dev.bufferFits (d : Dev) (r : Nat) (ld : Load) : Bool :=
  let ports := d.portsIn r
  ports.all (fun p =>
    let t := d.memTiming r p
    let ns3 := 3 * (t.1 + t.2.2) + 40 * d.rd Reg.CU_ARB_N (blk r ixCULM) p
    let ok (x : Nat) : Bool := ns3 * 2 * x ≤ 32768 * 30000 * ports.length
    ok ld.capW && ok ld.compR)

/-! ## Stolon (R20 to R23, R53) -/

/-- The link that joins two regions (R20). -/
def linkOf (a b : Nat) : Option Nat :=
  let lo := min a b
  let hi := max a b
  if hi = lo + 1 ∧ lo ≠ 3 then some (if lo < 4 then lo else lo - 1)
  else if hi = lo + 4 then some (6 + lo)
  else none

/-- The port of `a` that faces `b`. -/
def sportOf (a b : Nat) : Nat := if b + 1 = a then 0 else if b = a + 1 then 1 else 2

/-- The regions passed on the way along a row (R22). -/
def horiz (a b : Nat) : List Nat :=
  if a ≤ b then (List.range (b - a)).map (fun i => a + 1 + i) else (List.range (a - b)).map (fun i => a - 1 - i)

/-- The two routes of R22 as lists of regions after the first. -/
def routeH (a b : Nat) : List Nat :=
  let turn := a / 4 * 4 + b % 4
  horiz a turn ++ (if a / 4 = b / 4 then [] else [b])

/-- The vertical-first route (R22). -/
def routeV (a b : Nat) : List Nat :=
  if a / 4 = b / 4 then horiz a b else let v := b / 4 * 4 + a % 4; v :: horiz v b

/-- The links of a route. -/
def hops : Nat → List Nat → List (Nat × Nat)
  | _, [] => []
  | a, x :: l => (a, x) :: hops x l

/-- Whether every link of a route is up (R22). -/
def Dev.routeUp (d : Dev) (hs : List (Nat × Nat)) : Bool :=
  hs.all (fun h => match linkOf h.1 h.2 with
    | some l => !(d.sys.linksDown.contains l)
    | none => false)

/-- The route between two regions (R22), none when both contain a down link. -/
def Dev.route (d : Dev) (a b : Nat) : Option (List (Nat × Nat)) :=
  let h := hops a (routeH a b)
  let v := hops a (routeV a b)
  if d.routeUp h then some h else if d.routeUp v then some v else none

/-- The mirror route as admission estimates it: the one in use, or horizontal first. -/
def Dev.mirRoute (d : Dev) (a b : Nat) : List (Nat × Nat) := (d.route a b).getD (hops a (routeH a b))

/-- Halo of a rendition over one boundary (R53), in 0.1 MB/s, at the picture rate. DESIGN CHOICE: each Stolon term is rounded to
0.1 MB/s, halves up, before the terms are summed; R48 names DLU, composition and memory only (log entry 156). -/
def haloMb (g : Tbl Nat) (rd : Nat) : Nat :=
  roundDiv (192 * rdW g rd * rdB2 g rd * 11 * fields g * (period g).2) (2 * 10 * (period g).1 * 100000)

/-- Mirror records of a rendition (R53). -/
def mirMb (g : Tbl Nat) : Nat := roundDiv (512 * slices g * (period g).2) ((period g).1 * 100000)

/-- What a channel sends on each link direction: source, destination, amount. Mirror traffic counts in each direction of a link on the
route to the standby (R53, and R268's example). -/
def Dev.stolonOf (d : Dev) (g : Tbl Nat) (rs : List Nat) (prot : Option Nat) : List (Nat × Nat × Nat) :=
  let bs := bandRegions rs
  let halos := (bs.zip (bs.drop 1)).flatMap (fun p =>
    (rdList g).flatMap (fun rd => [(p.1, p.2, haloMb g rd), (p.2, p.1, haloMb g rd)]))
  let mirs := match prot with
    | some s => (d.mirRoute (rs.headD 0) s).flatMap (fun h =>
        (rdList g).flatMap (fun _ => [(h.1, h.2, mirMb g), (h.2, h.1, mirMb g)]))
    | none => []
  halos ++ mirs

/-- The region that a protected channel's region mirrors to: the standby, or from a standby that serves a slot the returning
region (R284). -/
def Dev.stbyFor (d : Dev) (r : Nat) : Option Nat :=
  match d.slotOf r with
  | some x => if d.standbyServes x.1 x.2 then none else some (d.pgStby x.1)
  | none =>
    match d.stbyOf r with
    | some n => ((groups.flatMap (fun g => [(g, 0), (g, 1)])).find? (fun x => x.1 == n && d.returning x.1 x.2)).bind
        (fun x => (d.pgActs x.1)[x.2]?)
    | none => none

/-- The Stolon traffic of all live channels but one (R53). -/
def Dev.stolonAll (d : Dev) (skip : Option Nat) : List (Nat × Nat × Nat) :=
  (d.liveChans.filter (fun c => some c != skip)).flatMap (fun c =>
    d.stolonOf (d.chan c).cfg (d.chan c).regions (if d.protectedCh c then d.stbyFor (d.lead c) else none))

/-- Reserved slots for an estimate in 0.1 MB/s (R302): none where there is none. -/
def stolonSlots (e : Nat) : Nat := if e = 0 then 0 else ceilDiv (1024 * e) 2560000 + 4

/-- Puts `n` slots of one use evenly over the cycle, each at the next open slot. -/
def spreadSlots (use n : Nat) (t : Tbl Nat) : Tbl Nat :=
  (List.range n).foldl (fun m i =>
    match (List.range 1024).find? (fun x => (tget? m ((i * 1024 / n + x) % 1024)).isNone) with
    | some x => tput m ((i * 1024 / n + x) % 1024) use
    | none => m) t

/-- The estimates of a link direction over every channel that still holds its reservation: real-time and mirror (R53, R302). -/
def Dev.stolonEst (d : Dev) (r p : Nat) : Nat × Nat :=
  let sum (l : List (Nat × Nat × Nat)) : Nat :=
    (l.filter (fun e => e.1 == r && sportOf e.1 e.2.1 == p)).foldl (fun a e => a + e.2.2) 0
  d.chans.foldl (fun (a : Nat × Nat) x =>
    let cfgs := x.2.cfg :: x.2.next.toList
    let most (f : Tbl Nat → Nat) : Nat := cfgs.foldl (fun m g => max m (f g)) 0
    let prot := if d.rd Reg.CH_STATE_PROTECTED (wCHSTAT x.1) = 1 then d.stbyFor (x.2.regions.headD 0) else none
    (a.1 + most (fun g => sum (d.stolonOf g x.2.regions none)), a.2 + most (fun g => sum (d.stolonOf g (x.2.regions.take 1) prot)))) (0, 0)

/-- Region firmware builds the Stolon tables in native operation (R302). A region in TEST keeps what host software wrote. -/
def Dev.stolonTables (d : Dev) : Dev :=
  if d.sys.mode = 1 then d
  else d.each (regions.flatMap (fun r => [(r, 0), (r, 1), (r, 2)])) (fun d x =>
    let e := d.stolonEst x.1 x.2
    let t := spreadSlots 2 (stolonSlots e.2) (spreadSlots 1 (stolonSlots e.1) [])
    let b := regBase x.1 + 0x010D0000 + x.2 * 0x400
    let st := blk x.1 ixSTOLON
    if d.rd Reg.RA_MODE_MODE (blk x.1 ixRACHIS) = 2 ∨ d.active x.1 = false then d
    else
      let out (k : Nat) : Bool := !(b * 32 ≤ k && k < (b + 0x400) * 32)
      let d := { d with regs := tkeep (fun k _ => out k) d.regs, shadow := tkeep (fun k _ => out k) d.shadow }
      let d := d.each t (fun d y => d.wr Reg.STOLON_SLOT b y.2 y.1)
      d.wr Reg.ST_RSV_SLOTS st t.length x.2)

/-- The first overloaded direction: region, port and excess over 128 GB/s. -/
def stolonOver (l : List (Nat × Nat × Nat)) : Option (Nat × Nat × Nat) :=
  (regions.flatMap (fun r => [(r, 0), (r, 1), (r, 2)])).findSome? (fun x =>
    let sum := (l.filter (fun e => e.1 == x.1 && sportOf e.1 e.2.1 == x.2)).foldl (fun a e => a + e.2.2) 0
    if 1280000 < sum then some (x.1, x.2, sum - 1280000) else none)

/-! ## The capacity checks of one region -/

/-- A failed check: reason, region, rendition, shortfall. -/
structure AdmFail where
  reason : Nat
  region : Nat
  rend : Option Nat
  short : Nat
  deriving DecidableEq, Repr

/-- Composition, scaler input, memory and buffer checks of a whole load (R54, R110, R317). -/
def Dev.loadCheck (d : Dev) (r : Nat) (ld : Load) : Option AdmFail :=
  if d.compCeil r < ld.comp then some ⟨0x03, r, none, ld.comp - d.compCeil r⟩
  else if d.scaleCeil r < ld.scale then some ⟨0x03, r, none, ld.scale - d.scaleCeil r⟩
  else if d.memCeil r < ld.mem then some ⟨0x04, r, none, ld.mem - d.memCeil r⟩
  else if d.bufferFits r ld then none
  else some ⟨0x04, r, none, 0⟩

/-- The coding load of a region's channels without `skip`. -/
def Dev.cluOn (d : Dev) (r : Nat) (skip : Option Nat) : Nat :=
  ((d.chansOn r).filter (fun c => some c != skip)).foldl (fun a c => a + chClu (d.chan c).cfg) 0

/-- R268 for active region `a` with standby `s`, the channels of `a` given with their descriptors. -/
def Dev.absorbs (d : Dev) (a s : Nat) (mine : List (Nat × Tbl Nat)) (others : List (Nat × Tbl Nat)) : Bool :=
  let clu := mine.foldl (fun x p => x + chClu p.2) 0
  let ly (c l : Nat) (row : Row) (g : Tbl Nat) : Nat := if d.live c then d.actL c l row else cfL g l row
  let ld := mine.foldl (fun x p => x.add (loadOf p.2 (fun l row => ly p.1 l row p.2) [s] s)) Load.zero
  let ld := others.foldl (fun x p => x.add (trackLoad p.2)) ld
  let streams := (mine ++ others).flatMap (fun p => trackStreams p.2 p.1)
  let placed := match placeStreams (!(d.outOf s ixDE)) (!(d.outOf s (ixDE + 1))) streams 0 0 [] with
    | .inl _ => false
    | .inr _ => true
  let rest := d.stolonAll none
  let stol := (mine.filter (fun p => !(d.live p.1))).flatMap (fun p => d.stolonOf p.2 [a] (some s))
  clu ≤ d.cluOne s && ld.comp ≤ d.compCeil s && ld.scale ≤ d.scaleCeil s && placed && ld.mem ≤ d.memCeil s
    && (stolonOver (rest ++ stol)).isNone

/-- The absorb check of a slot as it stands. -/
def Dev.slotAbsorbs (d : Dev) (n slot : Nat) : Bool :=
  match (d.pgActs n)[slot]? with
  | none => true
  | some a =>
    let chs (r : Nat) : List (Nat × Tbl Nat) := (d.protOn r).map (fun c => (c, (d.chan c).cfg))
    d.absorbs a (d.pgStby n) (chs a) (((d.pgActs n).filter (· != a)).flatMap chs)

/-! ## Stops (R68 to R70, R78, R222, R251) -/

/-- 2 slice periods of a channel in ns, rounded up. -/
def Dev.twoTs (d : Dev) (c : Nat) : Nat := ceilDiv (tickTu (d.chan c).cfg 2) 65536

/-- How long an identifier of the channel stays in quarantine: 1 ms or 2 slice periods. -/
def Dev.quarFor (d : Dev) (c : Nat) : Nat := max 1000000 (d.twoTs c)

/-- A region's dispatcher. -/
def Dev.rach (d : Dev) (r : Nat) : Rachis := tget d.ras r Rachis.init

/-- A change of a region's dispatcher. -/
def Dev.setRach (d : Dev) (r : Nat) (f : Rachis → Rachis) : Dev := { d with ras := tmod d.ras r Rachis.init f }

/-- RA_OCC, RA_RDY and RA_DLY of a region (R240). -/
def Dev.syncRach (d : Dev) (r : Nat) : Dev :=
  let b := blk r ixRACHIS
  let es := (d.rach r).ents
  let isQ (e : Entry) : Bool := match e with | .quar _ => true | _ => false
  let rdy (n : Nat) (e : Entry) : Bool := match e with | .task ds _ (.ready _) _ => ds.cls == n | _ => false
  let dly (n : Nat) (e : Entry) : Bool := match e with
    | .task ds _ (.delayed false) _ => (if ds.cls ≤ 1 then 0 else if ds.cls ≤ 3 then 1
        else if ds.cls = 4 ∨ ds.cls = 6 then 2 else 3) == n
    | _ => false
  let q := (es.filter (fun e => isQ e.2)).length
  let d := (d.wr Reg.RA_OCC_USED b (es.length - q)).wr Reg.RA_OCC_QUAR b q
  let d := d.each (List.range 8) (fun d n => d.wr Reg.RA_RDY_DEPTH b (es.filter (fun e => rdy n e.2)).length n)
  d.each (List.range 4) (fun d n => d.wr Reg.RA_DLY_DEPTH b (es.filter (fun e => dly n e.2)).length n)

/-- Cancels the undispatched tasks of a channel's generation for which `p` holds (R238). -/
def Dev.cancelTasks (d : Dev) (r c : Nat) (p : Desc → Bool) : Dev :=
  let gen := d.chGen c
  let hit (e : Entry) : Bool := match e with
    | .task _ _ (.held _ _) _ => false
    | .task ds _ _ _ => !ds.noch && ds.chan == c && ds.gen == gen && p ds
    | _ => false
  let n := ((d.rach r).ents.filter (fun e => hit e.2)).length
  let until_ := d.now + d.quarFor c
  let d := d.setRach r (fun x => { x with ents := tmap (fun _ e => if hit e then .quar until_ else e) x.ents })
  (d.incBy Reg.RA_CNT_PRE_CANCEL (blk r ixRACHIS) n).syncRach r

/-- A change of a flow's state with its event (R256). -/
def Dev.setFlState (d : Dev) (r f st : Nat) : Dev :=
  if d.rd Reg.FL_STATE_STATE (wFLOW r f) = st then d
  else
    let d := d.wr Reg.FL_STATE_STATE (wFLOW r f) st
    d.event (blk r ixEGRESS) 1 f (d.rd Reg.FL_STATE_GEN (wFLOW r f) + st * 256)

/-- The flows of a region that are ACTIVE or SUSPENDED and meet `p`. -/
def Dev.flowsOf (d : Dev) (r : Nat) (p : Nat → Bool) : List Nat :=
  ((d.flows.map (·.1)).filter (fun k => k / 2048 == r)).map (· % 2048) |>.filter (fun f =>
    let st := d.rd Reg.FL_STATE_STATE (wFLOW r f)
    (st == 1 || st == 2) && p f)

/-- Whether flow `f` of region `r` belongs to a channel (and rendition). -/
def Dev.flowCh (d : Dev) (r f c : Nat) : Bool := d.rd Reg.FL_CTRL_CHANNEL (wFLOW r f) == c

/-- Whether a flow carries a rendition (R248). -/
def Dev.flowRd (d : Dev) (r f c rd : Nat) : Bool :=
  d.flowCh r f c && d.rd Reg.FL_CTRL_RENDITION (wFLOW r f) == rd

/-- A flow enters QUARANTINE (R251). -/
def Dev.flowQuar (d : Dev) (r f until_ : Nat) : Dev :=
  let d := d.setFlState r f 3
  { d with flows := tmod d.flows (slotKey r f) Flow.init (fun x => { x with quarEnd := until_, queue := [] }) }

/-- A rendition ends (R119): its status reads inactive and its flows, as far as they were created before instant
`before`, enter quarantine. -/
def Dev.endRend (d : Dev) (c rd : Nat) (before : Option Nat := none) : Dev :=
  let r := d.lead c
  let d := d.wr Reg.RN_STATE_ACTIVE (wLIVE c rd) 0
  let mine (f : Nat) : Bool := d.flowRd r f c rd && (match before with
    | some t => decide ((tget d.flows (slotKey r f) Flow.init).since < t)
    | none => true)
  let d := d.each (d.flowsOf r mine) (fun d f => d.flowQuar r f (d.now + d.quarFor c))
  { d with rends := tdel d.rends (c * 8 + rd) }

/-- The global ports on which a channel's source arrives, those of its standby's second feed included (R86, R267). -/
def Dev.sourcePorts (d : Dev) (c : Nat) : List Nat :=
  let g := (d.chan c).cfg
  if feedOn g || cf g Reg.SRC_CTRL_IF == 2 then
    let ps := cf g Reg.SRC_2110_PORT :: (if cf g Reg.SRC_2110_DUAL = 1 then [cf g Reg.SRC_2110_PORT2] else [])
    let alt := match if d.protectedCh c then d.stbyFor (d.lead c) else none with
      | some s => ps.map (fun p => s * 16 + p % 16)
      | none => []
    ps ++ alt
  else []

/-- The destination address of a source (R86): IPv4 as ::ffff:a.b.c.d. -/
def sourceGroup (g : Tbl Nat) : Nat := (List.range 4).foldl (fun a i => a + stGet g Reg.SRC_GROUP 0 i * 2 ^ (32 * i)) 0

/-- Membership reports for the group of an admitted source, on those of its ports that `on` names; a unicast address has none (R328). -/
def Dev.reports (d : Dev) (c : Nat) (on : Nat → Bool) (join : Bool) : Dev :=
  let a := sourceGroup (d.chan c).cfg
  let v4 := a / 2 ^ 32 == 0xFFFF
  if (v4 && a % 2 ^ 32 / 2 ^ 28 == 14) || a / 2 ^ 120 == 0xFF then
    d.each ((d.sourcePorts c).filter on) (fun d g => d.emit (.report g (!v4) (if v4 then a % 2 ^ 32 else a) join))
  else d

/-- A channel enters QUARANTINE (R78, R238, R251): loads, streams, tasks and flows go. -/
def Dev.toQuarantine (d : Dev) (c : Nat) : Dev :=
  let ch := d.chan c
  let d := d.reports c (fun _ => true) false
  let d := d.each ch.regions (fun d r => d.cancelTasks r c (fun _ => true))
  let d := d.each (List.range 8) (fun d rd => if (tget? d.rends (c * 8 + rd)).isSome then d.endRend c rd else d)
  let d := { d with olds := tkeep (fun k _ => k / 8 != c) d.olds }
  let d := d.each ch.regions (fun d r => d.dropStreams r c)
  let d := d.each regions (fun d r => if (d.tracked r).contains c then d.dropStreams r c else d)
  let d := d.setChan c (fun x => { x with quarEnd := d.now + d.quarFor c, srcs := [], lyPend := none, roiPend := none,
                                          next := none })
  d.setChState c 4

/-- A stop (R68 to R70, R78): `cut` emits nothing more and goes to QUARANTINE at once; otherwise the frames captured
complete, the last being the one before frame `stopK`. -/
def Dev.stopChan (d : Dev) (c reason : Nat) (cut : Bool) (stopK : Nat) : Dev :=
  if d.chState c = 1 ∨ d.chState c = 2 then
    let d := d.wr Reg.CH_STATE_STOP_REASON (wCHSTAT c) reason
    let d := d.setChState c 3
    if cut then
      let d := d.each (d.chan c).regions (fun d r => d.cancelTasks r c (fun ds => ds.cls == 4 || ds.cls == 6))
      d.toQuarantine c
    else
      let d := d.setChan c (fun x => { x with stopK := some stopK })
      if stopK ≤ (d.chan c).startK then d.toQuarantine c else d
  else d

/-- A channel ends with REGION_LOST, whatever state it is in, and emits nothing more (R68, R283, R477, R479). -/
def Dev.loseChan (d : Dev) (c : Nat) : Dev :=
  if d.chState c = 3 then (d.wr Reg.CH_STATE_STOP_REASON (wCHSTAT c) 0x24).toQuarantine c else d.stopChan c 0x24 true 0

/-! ## Re-admission (R18, R69) -/

/-- The order of R69: non-preemptible first, then ascending PRIO, then ascending ID. -/
def Dev.admitOrder (d : Dev) (cs : List Nat) : List Nat :=
  let key (c : Nat) : Nat := (b2n (d.preemptible c) * 16 + d.rd Reg.CH_STATE_PRIO (wCHSTAT c)) * 128 + c
  sortKey key cs

/-- Whether region `r` still holds channel `c` beside the channels `kept` (R69): CLU, DLU, composition and scaler
input, memory and buffers. -/
def Dev.stillFits (d : Dev) (r : Nat) (kept : List Nat) (c : Nat) : Bool :=
  let rs := (d.chan c).regions
  let clu := if rs.length ≤ 1 then (c :: kept).foldl (fun a x => a + chClu (d.chan x).cfg) 0 else chClu (d.chan c).cfg
  let ld := (c :: kept).foldl (fun a x => a.add (d.chanLoad x r)) Load.zero
  let ld := (d.tracked r).foldl (fun a x => a.add (trackLoad (d.chan x).cfg)) ld
  let streams := (d.tracked r).flatMap (fun x => trackStreams (d.chan x).cfg x)
    ++ (kept ++ [c]).flatMap (fun x => streamsOf (d.chan x).cfg x (d.chan x).regions r)
  let placed := match placeStreams (!(d.outOf r ixDE)) (!(d.outOf r (ixDE + 1))) streams 0 0 [] with
    | .inl _ => false
    | .inr _ => true
  clu ≤ d.cluCeil rs && placed && (d.loadCheck r ld).isNone

/-- Re-admits a region's channels after a loss of capacity (R69, R70): those that no longer fit stop with CAPACITY_LOST
and capture nothing after the next frame tick. The streams that stay are placed again. -/
def Dev.readmit (d : Dev) (r : Nat) : Dev :=
  let order := d.admitOrder (d.chansOn r)
  let kept := order.foldl (fun kept c => if d.stillFits r kept c then kept ++ [c] else kept) []
  let d := d.each (order.filter (fun c => !(kept.contains c))) (fun d c =>
    d.stopChan c 0x21 false (d.frameFrom c (d.nowTu : Nat)))
  let streams := (d.tracked r).flatMap (fun x => trackStreams (d.chan x).cfg x)
    ++ (d.chansOn r).flatMap (fun x => streamsOf (d.chan x).cfg x (d.chan x).regions r)
  match placeStreams (!(d.outOf r ixDE)) (!(d.outOf r (ixDE + 1))) streams 0 0 [] with
  | .inr ps =>
    ({ d with strms := ps.foldl (fun m p => if (tget? m (slotKey r p.1)).isSome then tput m (slotKey r p.1) p.2 else m) d.strms }
      : Dev).syncDe r
  | .inl _ => d

end Sys2Proof.Machine
end

