-- ==== Sys2Proof/Machine/AdmCheck.lean ====
section
/-! DEFINITION. The checks of an admission request (R61, R488): formats (R83, R84, R86, R113 to R118, R178, R190,
R197, R242), rendition and slice limits, latency, what a MODIFY may not change (R62, R119, R186), span, line buffers
(R110), and the capacity of a placement (R54 to R56, R61, R266 to R268). -/

namespace Sys2Proof.Machine

/-- FORMAT_UNSUPPORTED (R61). -/
def cFORMAT : Nat := 0x08

/-- Frame-rate groups of R83: 23.98 to 30, 50 to 60, 100 to 120. -/
def rateLow (x : Nat) : Bool := x ≤ 4
/-- The codes of the rates from 50 Hz to 60 Hz (R83). -/
def rateMid (x : Nat) : Bool := 5 ≤ x && x ≤ 7
/-- The codes of the rates from 100 Hz to 120 Hz (R83). -/
def rateHigh (x : Nat) : Bool := 8 ≤ x && x ≤ 10

/-- The SDI formats of R83. -/
def sdiAccepts (g : Tbl Nat) : Bool :=
  let w := srcW g
  let h := srcH g
  let x := cf g Reg.SRC_RATE_RATE
  let s444 := cf g Reg.SRC_RATE_SAMPLING == 1
  let d12 := cf g Reg.SRC_RATE_DEPTH == 1
  let p422 := !s444 && !d12
  if cf g Reg.SRC_CTRL_IF = 0 then
    if interlaced g then w == 1920 && h == 1080 && p422 && (x == 2 || x == 3 || x == 4)
    else if w = 1920 ∧ h = 1080 then
      (p422 && (rateLow x || rateMid x)) || (s444 && rateLow x)
    else if w = 1280 ∧ h = 720 then p422 && rateMid x
    else if w = 3840 ∧ h = 2160 then
      (p422 && (rateLow x || rateMid x || rateHigh x)) || (s444 && rateMid x) || (s444 && d12 && rateLow x)
    else false
  else
    !(interlaced g) && w == 7680 && h == 4320 && cf g Reg.SRC_CTRL_LANE % 4 == 0 &&
      ((p422 && x ≤ 10) || (s444 && d12 && rateMid x))

/-- The source section (R83, R84, R86, R197). -/
def sourceOk (g : Tbl Nat) : Bool :=
  let i := cf g Reg.SRC_CTRL_IF
  cf g Reg.SRC_RATE_RATE ≤ 10 && cf g Reg.SRC_RATE_SAMPLING ≤ 1 && cf g Reg.SRC_RATE_DEPTH ≤ 1
    && cf g Reg.SRC_RATE_COLOUR ≤ 3 && 1 ≤ srcW g && 1 ≤ srcH g && (!(interlaced g) || srcH g == 1080)
    && (if feedOn g then
          cf g Reg.FEED_CTRL_CODEC ≤ 2 && cf g Reg.FEED_CTRL_ENCAP ≤ 2 && cf g Reg.FEED_CTRL_CHROMA ≤ 2
            && 64 ≤ cf g Reg.FEED_RATE_MAX_KBPS && cf g Reg.FEED_RATE_MAX_KBPS ≤ 16000000
            && 1 ≤ cf g Reg.FEED_BUF_DELAY && cf g Reg.FEED_BUF_DELAY ≤ 10000
            && (cf g Reg.FEED_CTRL_ENCAP == 0 || cf g Reg.FEED_BUF_PID != 0x1FFF)
            && (cf g Reg.FEED_CTRL_CHROMA != 0 || cf g Reg.SRC_RATE_SAMPLING == 0)
        else if i = 2 then srcW g ≤ 8192 && srcH g ≤ 4320
        else if i ≤ 1 then sdiAccepts g
        else false)

/-- A layer's own format checks of R97. -/
def lyFormatOk (ly : Nat → Row → Nat) (l : Nat) : Bool :=
  let k := ly l Reg.LY_CTRL_KIND
  let f := ly l Reg.LY_CTRL_FORMAT
  let pre := ly l Reg.LY_CTRL_PREMULT
  (k == 0) == (l == 0) && f ≤ 2 && ly l Reg.LY_CTRL_LATE_POLICY ≤ 2 && ((k == 0 || k == 3) == (f == 0))
    && !(pre == 1 && (ly l Reg.LY_CTRL_CHAIN_EN == 1 || f == 0))

/-- Bytes per pixel of a graphics format; 10-bit Y′CbCrA is taken in 16-bit components. -/
def lyBpp (f : Nat) : Nat := if f = 2 then 8 else 4

def lyOn (ly : Nat → Row → Nat) (l : Nat) : Bool := l == 0 || ly l Reg.LY_CTRL_ENABLE == 1

/-- The ranges that R92 gives the fields an enabled layer uses. -/
def lyRangeOk (ly : Nat → Row → Nat) (l : Nat) : Bool :=
  let k := ly l Reg.LY_CTRL_KIND
  let st := ly l Reg.LY_STRIDE_BYTES
  l == 0 ||
    (1 ≤ ly l Reg.LY_SRC_SIZE_WIDTH && ly l Reg.LY_SRC_SIZE_WIDTH ≤ 8192 && 1 ≤ ly l Reg.LY_SRC_SIZE_HEIGHT
      && ly l Reg.LY_SRC_SIZE_HEIGHT ≤ 4320
      && (k == 3 || (ly l Reg.LY_BASE_LO % 64 == 0 && st % 64 == 0 && 64 ≤ st && st ≤ 65536)))

/-- The line-buffer rule for a layer (R108, R110): the excess, 0 when it fits. `samp` gives the sampling of a channel's source, which
decides for secondary video. -/
def lyLineShort (samp : Nat → Nat) (ly : Nat → Row → Nat) (l : Nat) : Nat :=
  if lyScaled ly l then
    let k := if ly l Reg.LY_CTRL_KIND = 3 then (if samp (ly l Reg.LY_SRC_SRC_CH) = 1 then 3 else 2) else 4
    lineNeed (ly l Reg.LY_SRC_SIZE_WIDTH) (ly l Reg.LY_SRC_SIZE_HEIGHT) (ly l Reg.LY_DST_SIZE_HEIGHT) k - lineLimit
  else 0

/-- The line-buffer rule for a rendition (R110). -/
def rdLineShort (g : Tbl Nat) (rd : Nat) : Nat :=
  if scaledRd g rd then
    lineNeed (srcW g) (ceilDiv (srcH g) (fields g)) (picH g rd) (if cf g Reg.SRC_RATE_SAMPLING = 1 then 3 else 2) - lineLimit
  else 0

/-- R113: profile, chroma and depth. -/
def profileOk (g : Tbl Nat) (rd : Nat) : Bool :=
  let c := codec g rd
  let p := cfR g rd Reg.RN_CTRL_PROFILE
  let ch := cfR g rd Reg.RN_CTRL_CHROMA
  let b := cfR g rd Reg.RN_CTRL_DEPTH
  if c = 0 then (p == 0 && ch == 0 && b == 0) || ((p == 1 || p == 3) && ch == 0 && b ≤ 1)
    || ((p == 2 || p == 4) && ch ≤ 1 && b ≤ 1)
  else if c = 1 then (p == 0 && ch == 0 && b == 0) || (p == 1 && ch == 0 && b ≤ 1) || (p == 2 && ch ≤ 1 && b ≤ 1)
    || (p == 3 && ch ≤ 2 && b ≤ 2)
  else if c = 2 then (p == 0 && ch == 0 && b ≤ 1) || (p == 1 && ch ≤ 2 && b ≤ 1)
  else false

/-- R130, R132: the GOP mode against class, profile and codec. -/
def gopOk (g : Tbl Nat) (rd : Nat) : Bool :=
  let m := gopMode g rd
  let ip := cfR g rd Reg.RN_GOP_INTRA_PERIOD
  let avc := codec g rd == 0
  let avcIntra := avc && 3 ≤ cfR g rd Reg.RN_CTRL_PROFILE
  m ≤ 5 && (m == 5 || ((m == 4) == ladder g)) && (!avcIntra || m == 5)
    && !(avc && cfR g rd Reg.RN_GOP_IRAP_CRA == 1)
    && (m != 4 || ip % gop g == 0)
    && (!(refreshMode m) || (ip == 0 && 2 ≤ cfR g rd Reg.RN_GOP_REFRESH_PERIOD))

/-- R118: size, colour and HDR. -/
def sizeOk (g : Tbl Nat) (rd : Nat) : Bool :=
  let w := rdW g rd
  let h := rdH g rd
  let ch := cfR g rd Reg.RN_CTRL_CHROMA
  let col := cfR g rd Reg.RN_CTRL_COLOUR
  w ≤ srcW g && h ≤ srcH g && srcW g ≤ 8 * w && srcH g ≤ 8 * h && (ch == 2 || w % 2 == 0) && (ch != 0 || h % 2 == 0)
    && col ≤ 3 && (col == cf g Reg.SRC_RATE_COLOUR || cfR g rd Reg.RN_CTRL_CHAIN_EN == 1)
    && !(cfR g rd Reg.RN_SEI_HDR_EN == 1 && col ≤ 1)

/-- R178, R190: the rate-control fields. -/
def rcFieldsOk (g : Tbl Nat) (rd : Nat) : Bool :=
  let m := cfR g rd Reg.RC_CTRL_MODE
  let kb := cfR g rd Reg.RC_RATE_MAX_KBPS
  let a := cfR g rd Reg.RC_VBR_AVG_KBPS * 1000
  let lo := signed 7 (cfR g rd Reg.RC_QI_QP_MIN)
  let hi := signed 7 (cfR g rd Reg.RC_QI_QP_MAX)
  m ≤ 2 && 16 ≤ cfR g rd Reg.RC_CTRL_PEAK && cfR g rd Reg.RC_CTRL_PEAK ≤ 64 && 1 ≤ cfR g rd Reg.RC_CTRL_ADAPT
    && 64 ≤ kb && kb ≤ 16000000 && cfR g rd Reg.RC_CPB_CPB_US ≤ 1000000
    && decide (-12 ≤ lo) && decide (lo ≤ hi) && decide (hi ≤ if codec g rd = 2 then 63 else 51)
    && (m != 2 || (rSig g rd ≤ 8 * a && a ≤ rSig g rd && 1 ≤ cfR g rd Reg.RC_VBR_WIN && cfR g rd Reg.RC_VBR_WIN ≤ 60))

/-- R242: the output fields that the encapsulation uses. -/
def outFieldsOk (g : Tbl Nat) (rd : Nat) : Bool :=
  let e := cfR g rd Reg.OUT_CTRL_ENCAP
  let pid (x : Nat) : Bool := 0x10 ≤ x && x ≤ 0x1FFE
  if e = 0 then 96 ≤ cfR g rd Reg.OUT_CTRL_PT && 256 ≤ cfR g rd Reg.OUT_CTRL_PAYLOAD && cfR g rd Reg.OUT_CTRL_PAYLOAD ≤ 1460
  else if e ≤ 2 then
    1 ≤ cfR g rd Reg.OUT_CTRL_TS_PKTS && pid (cfR g rd Reg.OUT_PID_VIDEO_PID) && pid (cfR g rd Reg.OUT_PID_PMT_PID)
      && cfR g rd Reg.OUT_PID_VIDEO_PID != cfR g rd Reg.OUT_PID_PMT_PID && 1 ≤ cfR g rd Reg.OUT_PROG_PROGRAM
      && decide ((signed 32 (cfR g rd Reg.OUT_PTS_OFS)).natAbs ≤ 90000)
  else false

/-- Every format check of one rendition; `b` bands, `nv` the largest non-VCL size in bits. What depends on the slice
count is left to the slice check when the count is out of range. -/
def rendOk (g : Tbl Nat) (rd b nv : Nat) : Bool :=
  profileOk g rd && cfR g rd Reg.RN_CTRL_EFFORT ≤ 2 && !(codec g rd == 2 && interlaced g) && gopOk g rd && sizeOk g rd
    && rcFieldsOk g rd && outFieldsOk g rd
    && (picSlices g == 0 || 68 < slices g || codingRows g rd < picSlices g
          || ((levelOf g rd).isSome && tcpbFits g rd && reserveFits g rd b nv))

/-- ENC_TC (R116): checked when the timebase can supply the timecode. -/
def tcOk (g : Tbl Nat) : Bool :=
  cf g Reg.ENC_TC_SRC ≤ 1 || decide ((signed 18 (cf g Reg.ENC_TC_OFS)).natAbs ≤ 86399)

/-- Slices per picture against S and the rows (R39, R115, R127). -/
def sliceCountOk (g : Tbl Nat) : Bool :=
  1 ≤ slices g && slices g ≤ 68 && (!(interlaced g) || slices g % 2 == 0)
    && (rdList g).all (fun rd => picSlices g ≤ codingRows g rd)

/-- The bands of a SPAN (R55). -/
def bandsOf (span : Nat) : Nat := if span = 1 then 2 else if span = 2 then 4 else 1

/-- The fields that set the latency of a continued rendition (R186). -/
def rcFixed (g : Tbl Nat) (rd : Nat) : List Nat :=
  [cfR g rd Reg.RC_CTRL_MODE, cfR g rd Reg.RC_CTRL_AU_HRD,
   cfR g rd Reg.RC_CTRL_CPB_SP, cfR g rd Reg.RC_CTRL_PEAK, cfR g rd Reg.RC_CPB_CPB_US, cfR g rd Reg.RC_RATE_MAX_KBPS]

/-- Renditions that a MODIFY continues (R119). -/
def continued (old new_ : Tbl Nat) : List Nat :=
  (List.range (min (numRend old) (numRend new_))).filter (fun rd => cfR new_ rd Reg.RN_CTRL_REPLACE == 0)

/-- The reason, if any, that a MODIFY changes what is fixed (R62, R186), with its rendition. -/
def latencyFixed (old new_ : Tbl Nat) : Option (Option Nat) :=
  if cf old Reg.SRC_RATE_RATE ≠ cf new_ Reg.SRC_RATE_RATE ∨ slices old ≠ slices new_ ∨ lEnc old ≠ lEnc new_
      ∨ ladder old ≠ ladder new_ then some none
  else ((continued old new_).find? (fun rd => rcFixed old rd != rcFixed new_ rd)).map some

/-- The lowest rendition of which something holds (R61). -/
def firstRd (g : Tbl Nat) (p : Nat → Bool) : Option Nat := (rdList g).find? p

/-- The steps of check_request after ID and GEN (R61, R66): the first failure as reason, rendition and shortfall. `ly` are the layer fields
that the request leaves in use: those staged, or for a MODIFY the channel's own, which it does not change and whose format is not
checked again (R488). -/
def checkDesc (g : Tbl Nat) (old : Option (Tbl Nat)) (span : Nat) (nvs : List NvIn) (samp : Nat → Nat)
    (ly : Nat → Row → Nat) : Option (Nat × Option Nat × Nat) :=
  let b := bandsOf span
  let nv (rd : Nat) : Nat := nvMax g rd (nvAt nvs rd)
  if !(sourceOk g) || !(tcOk g)
      || (old.isNone && !((List.range 8).all (fun l => !(lyOn ly l) || (lyFormatOk ly l && lyRangeOk ly l)))) then
    some (cFORMAT, none, 0)
  else match firstRd g (fun rd => !(rendOk g rd b (nv rd))) with
  | some rd => some (cFORMAT, some rd, 0)
  | none =>
    if 8 < cf g Reg.ENC_CH_NUM_REND then some (0x0B, none, 0)
    else if !(sliceCountOk g) then some (0x0D, none, 0)
    else match firstRd g (fun rd => !(slicesReach g rd)) with
    | some rd => some (0x0D, some rd, 0)
    | none =>
      let le := cf g Reg.ENC_CH_L_ENC
      if le = 0 ∨ 4 < le then some (0x0C, none, 0)
      else match firstRd g (fun rd => !(l5Fits g rd)) with
      | some rd => some (0x0C, some rd, l5Short g rd)
      | none =>
        if 1 < b ∧ ladder g = false ∧ le = 1 then some (0x0C, none, 0)
        else match old.bind (fun o => latencyFixed o g) with
        | some rd => some (0x0E, rd, 0)
        | none =>
          if span = 3 then some (0x07, none, 0)
          else match firstRd g (fun rd => codingRows g rd < b) with
          | some rd => some (0x07, some rd, 0)
          | none =>
            match (List.range 8).find? (fun l => 0 < lyLineShort samp ly l) with
            | some l => some (0x14, none, lyLineShort samp ly l)
            | none =>
              match firstRd g (fun rd => 0 < rdLineShort g rd) with
              | some rd => some (0x14, some rd, rdLineShort g rd)
              | none => none

/-! ## Placement (R61, R266 to R268) -/

/-- The region sets of R23 in its order. -/
def spanSets (span : Nat) : List (List Nat) :=
  if span = 1 then [[0, 1], [1, 2], [2, 3], [4, 5], [5, 6], [6, 7]]
  else if span = 2 then [[0, 1, 4, 5], [1, 2, 5, 6], [2, 3, 6, 7]]
  else regions.map (fun r => [r])

/-- Whether a region can carry channels at all: its core runs and is ACTIVE. -/
def Dev.canCarry (d : Dev) (r : Nat) : Bool := d.active r && d.reachable d.holder r

/-- R61: an eligible region set. -/
def Dev.eligible (d : Dev) (q : AdmReq) (rs : List Nat) : Bool :=
  rs.all (fun r =>
    bitOf q.mask r && (q.cl4 || !(r == 0 && (d.sys.mode == 2 || d.sys.mode == 1))) && d.canCarry r
      && !((d.chansOn r).any (fun c => 1 < (d.chan c).regions.length))
      && (rs.length ≤ 1 || (d.chansOn r).isEmpty)
      && ((d.slotOf r).isSome == (q.protect == 1))
      && ((d.stbyOf r).isNone || (q.preempt == 1 && q.protect == 0)))

/-- R266 and R267: what a protected channel's configuration must be, with the rendition at fault. -/
def Dev.protectRule (d : Dev) (q : AdmReq) (rs : List Nat) : Option (Option Nat) :=
  let g := q.cfg
  if 1 < rs.length then some none
  else match firstRd g (fun rd =>
      let m := gopMode g rd
      !(refreshMode m || m == 5 || cfR g rd Reg.RN_GOP_INTRA_PERIOD != 0) || !(l5Protect g rd)) with
  | some rd => some (some rd)
  | none =>
    match d.stbyFor (rs.headD 0) with
    | none => some none
    | some s =>
      let lane := cf g Reg.SRC_CTRL_STBY_LANE
      if !(feedOn g) && cf g Reg.SRC_CTRL_IF ≤ 1 &&
          !(lane / 16 == s && d.rd Reg.LN_CFG_MODE (lanePage lane) == 2) then some none
      else none

/-- The checks of one placement in the order of R61 (R54, R268): none, and the streams placed, when all pass. DESIGN CHOICE: DLU_SHORT
names no rendition (RENDITION_VALID 0), though the stream that no engine can hold belongs to one (log entry 157). -/
def Dev.fits (d : Dev) (q : AdmReq) (rs : List Nat) (skip : Option Nat) : AdmFail ⊕ List (Nat × List (Nat × Strm)) :=
  let g := q.cfg
  let ly := cfL g
  let lyx (l : Nat) (row : Row) : Nat := match skip with
    | some c => d.actL c l row
    | none => ly l row
  let stby := if q.protect = 1 then d.stbyFor (rs.headD 0) else none
  let stb : List Nat := stby.toList
  let clu := rs.foldl (fun a r => a + d.cluOn r skip) 0 + chClu g
  let needs (r : Nat) : List (Nat × Nat × Nat) :=
    if rs.contains r then streamsOf g q.chan rs r else trackStreams g q.chan
  let placed := (rs ++ stb).map (fun r => (r, d.placeOn r skip (needs r)))
  let whole (r : Nat) : Load :=
    (d.regionLoad r skip).add (if rs.contains r then loadOf g lyx rs r else trackLoad g)
  match rs.find? (fun r => 16 ≤ ((d.chansOn r).filter (fun c => some c != skip)).length) with
  | some r => .inl ⟨0x0A, r, none, 0⟩
  | none =>
    if d.cluCeil rs < clu then .inl ⟨0x01, rs.headD 0, none, clu - d.cluCeil rs⟩
    else match placed.findSome? (fun x => match x.2 with
        | .inl e => some (x.1, e)
        | .inr _ => none) with
    | some (r, e) => .inl ⟨0x02, r, none, e⟩
    | none =>
      let checks := (rs ++ stb).map (fun r => d.loadCheck r (whole r))
      match (checks.filterMap id).find? (fun f => f.reason == 3) with
      | some f => .inl f
      | none =>
        match (checks.filterMap id).head? with
        | some f => .inl f
        | none =>
          match stolonOver (d.stolonAll skip ++ d.stolonOf g rs stby) with
          | some (r, p, e) => .inl ⟨0x05, r, some (p + 8), e⟩
          | none =>
            if q.protect = 1 then
              match d.protectRule q rs with
              | some rd => .inl ⟨0x06, rs.headD 0, rd, 0⟩
              | none =>
                let a := rs.headD 0
                let chs (r : Nat) : List (Nat × Tbl Nat) :=
                  ((d.protOn r).filter (fun c => some c != skip)).map (fun c => (c, (d.chan c).cfg))
                let others := match d.slotOf a with
                  | some (n, _) => ((d.pgActs n).filter (· != a)).flatMap chs
                  | none => []
                if d.absorbs a (stby.getD 0) (chs a ++ [(q.chan, g)]) others then
                  .inr (placed.map (fun x => (x.1, x.2.elim (fun _ => []) id)))
                else .inl ⟨0x06, a, none, 0⟩
            else .inr (placed.map (fun x => (x.1, x.2.elim (fun _ => []) id)))

/-- The result of a request: reason, detail, regions and the streams per region. -/
structure AdmOut where
  reason : Nat
  region : Nat
  rend : Option Nat
  short : Nat
  placed : List Nat
  strms : List (Nat × List (Nat × Strm))
  deriving DecidableEq, Repr

/-- A refused request: the reason and what ADM_DETAIL shows of it (R10, R57). -/
def AdmOut.refuse (reason : Nat) (region : Nat := 0) (rend : Option Nat := none) (short : Nat := 0) : AdmOut :=
  ⟨reason, region, rend, short, [], []⟩

/-- Tries the eligible sets in order (R61). -/
def Dev.tryPlaces (d : Dev) (q : AdmReq) : List (List Nat) → Option AdmFail → AdmOut
  | [], none => .refuse (if (d.sys.mode = 2 ∨ d.sys.mode = 1) ∧ q.mask = 1 then 0x09 else 0x15)
  | [], some f => .refuse f.reason f.region f.rend f.short
  | rs :: rest, first =>
    match d.fits q rs none with
    | .inr ss => ⟨0, 0, none, 0, rs, ss⟩
    | .inl f => d.tryPlaces q rest (some (first.getD f))

/-- The sampling of a channel's source. -/
def Dev.samp (d : Dev) (c : Nat) : Nat := cf (d.chan c).cfg Reg.SRC_RATE_SAMPLING

/-- R61: the outcome of a request. DESIGN CHOICE: a CHECK of an ID in QUARANTINE, which is neither free nor live, answers ID_QUARANTINE
(log entry 158). `nvs` gives the largest sizes of each rendition's NAL units of the standards' syntax (R489). -/
def Dev.evaluate (d : Dev) (q : AdmReq) (nvs : List NvIn) : AdmOut :=
  let st := d.chState q.chan
  let live := d.live q.chan
  let tagBusy : Bool := match tget? d.tags q.tag with
    | some t => d.now < t + 1000000
    | none => false
  let modify := q.op == 2 || (q.op == 4 && live)
  let ch := d.chan q.chan
  if q.op = 0 ∨ 4 < q.op ∨ (q.op = 1 ∧ d.sys.unlocked = true) then .refuse 0x13
  else if tagBusy then .refuse 0x12
  else if q.op = 1 ∧ (d.sys.mode = 1 ∨ d.sys.mode = 2) ∧ q.cl4 = false ∧ q.chan < 4 then .refuse 0x09
  else if q.op = 1 ∧ live then .refuse 0x0F
  else if (q.op = 1 ∨ q.op = 4) ∧ st = 4 then .refuse 0x10
  else if (q.op = 2 ∨ q.op = 3 ∨ (q.op = 4 ∧ live)) ∧ (!live || q.gen ≠ d.chGen q.chan) then .refuse 0x11
  else if q.op = 3 then ⟨0, 0, none, 0, ch.regions, []⟩
  else
    let q := if modify then { q with span := d.rd Reg.CH_STATE_SPAN (wCHSTAT q.chan),
                                     protect := d.rd Reg.CH_STATE_PROTECTED (wCHSTAT q.chan) } else q
    let ly (l : Nat) (row : Row) : Nat := if modify then d.actL q.chan l row else cfL q.cfg l row
    match checkDesc q.cfg (if modify then some ch.cfg else none) q.span nvs d.samp ly with
    | some (r, rd, sh) => .refuse r 0 rd sh
    | none =>
      if modify then
        match d.fits q ch.regions (some q.chan) with
        | .inr ss => ⟨0, 0, none, 0, ch.regions, ss⟩
        | .inl f => .refuse f.reason f.region f.rend f.short
      else d.tryPlaces q ((spanSets q.span).filter (d.eligible q)) none

end Sys2Proof.Machine
end

