-- ==== Sys2Proof/Machine/Groups.lean ====
section
/-! DEFINITION. Readiness of protection slots (R273, R274, R287). -/

namespace Sys2Proof.Machine

/-- A change of a slot's state with its event (R273, R287). -/
def Dev.setPgState (d : Dev) (n slot st : Nat) : Dev :=
  if d.pgState n slot = st then d
  else
    let d := d.wr (if slot = 0 then Reg.PG_STATUS_STATE_A else Reg.PG_STATUS_STATE_B) pSHM st n
    d.event pSHM 4 (n * 2 + slot) st

/-- The state of a slot of a group. -/
def Dev.pg (d : Dev) (n slot : Nat) : PgSlot := tget d.pgs (n * 2 + slot) PgSlot.init

/-- A change of a slot of a group. -/
def Dev.setPg (d : Dev) (n slot : Nat) (f : PgSlot → PgSlot) : Dev :=
  { d with pgs := tmod d.pgs (n * 2 + slot) PgSlot.init f }

/-- The region that serves a slot (R280). -/
def Dev.setServer (d : Dev) (n slot r : Nat) : Dev :=
  d.wr (if slot = 0 then Reg.PG_STATUS_SERVER_A else Reg.PG_STATUS_SERVER_B) pSHM r n

/-- The frames of a rendition's refresh cycle (R274). -/
def refreshCycle (g : Tbl Nat) (rd : Nat) : Nat :=
  let m := gopMode g rd
  let ip := cfR g rd Reg.RN_GOP_INTRA_PERIOD
  if refreshMode m then cfR g rd Reg.RN_GOP_REFRESH_PERIOD
  else if m = 5 then 1
  else if m = 4 then gop g * ceilDiv ip (gop g)
  else ip

/-- Whether `taker`'s tracking of a channel is bit-exact for a whole refresh cycle (R274). -/
def Dev.trackReady (d : Dev) (taker c : Nat) : Bool :=
  let g := (d.chan c).cfg
  (rdList g).all (fun rd =>
    let k := slotKey taker (c * 8 + rd)
    d.rd Reg.DS_STATE_TAINTED (wDS taker (c * 8 + rd)) == 0 &&
      (match tget? d.slots k with
       | some x => refreshCycle g rd * fields g ≤ x.clean
       | none => false))

/-- Whether the input of a protected channel is assigned in the region that would take it, without SRC_LOSS (R89, R274). -/
def Dev.stbyInput (d : Dev) (c : Nat) : Bool :=
  let ch := d.chan c
  match ch.sbyK with
  | some z => decide (ch.undecided.getD ch.k ≤ z + 2)
  | none => false

/-- PG_NOTREADY of a slot whose channels region `from_` carries and `to` would take (R274, R287). -/
def Dev.notReady (d : Dev) (n slot from_ dest : Nat) : Nat :=
  let chs := d.protOn from_
  let busy := [0, 1].any (fun x => x != slot && (d.pgState n x == 4 || d.pgState n x == 5 || d.pgState n x == 6)
    && d.pgServer n x == d.pgStby n)
  b2n (!(d.slotAbsorbs n slot)) + 2 * b2n (!(chs.all (d.trackReady dest))) + 4 * b2n (chs.any (fun c => !(d.stbyInput c)))
    + 8 * b2n ((d.route from_ dest).isNone)
    + 16 * b2n (!(d.healthy d.holder dest) || !(d.active dest)) + 32 * b2n busy

/-- PG_NOTREADY of a slot. -/
def Dev.wrNotReady (d : Dev) (n slot v : Nat) : Dev :=
  d.wr (if slot = 0 then Reg.PG_NOTREADY_A else Reg.PG_NOTREADY_B) pSHM v n

/-- The returning region would carry what the standby carries now (R268, R285). -/
def Dev.returnAbsorbs (d : Dev) (n a : Nat) : Bool :=
  let s := d.pgStby n
  d.absorbs s a ((d.protOn s).map (fun c => (c, (d.chan c).cfg))) []

/-- Region `r` starts to track the renditions of a channel and takes its feed (R49, R193, R197). -/
def Dev.track (d : Dev) (r c : Nat) : Dev :=
  match d.placeOn r (some c) (trackStreams (d.chan c).cfg c) with
  | .inr ps => d.addStreams r ps
  | .inl _ => d

/-- Puts one rate and burst set into a policer entry and clears its counters and buckets (R261). -/
def Dev.policeLoad (d : Dev) (r e kbps : Nat) : Dev :=
  let b := wPL r e
  let d := ((d.wr Reg.PL_CIR b kbps).wr Reg.PL_PIR b (2 * kbps)).wr Reg.PL_CBS b (kbps / 8)
  let d := ((d.wr Reg.PL_PBS b (kbps * 2 / 8)).wr Reg.PL_GREEN b 0).wr Reg.PL_YELLOW b 0
  let d := d.wr Reg.PL_RED b 0
  { d with pols := tput d.pols (r * 256 + e) (kbps / 8 * 65536, kbps * 2 / 8 * 65536) }

/-- R_str of R261 in kb/s: MAX_KBPS of a feed, or the active-picture payload rate × 1.05, rounded up. -/
def streamKbps (g : Tbl Nat) : Nat :=
  if feedOn g then cf g Reg.FEED_RATE_MAX_KBPS
  else
    let bits := (if cf g Reg.SRC_RATE_DEPTH = 1 then 12 else 10) * (if cf g Reg.SRC_RATE_SAMPLING = 1 then 3 else 2)
    ceilDiv (srcW g * srcH g * bits * (period g).2 * 105) ((period g).1 * 100000)

/-- Loads the policer entries of a channel that receives packets, on its lead region and a standby (R261). -/
def Dev.policeChan (d : Dev) (c : Nat) (rs : List Nat) (g : Tbl Nat) : Dev :=
  if feedOn g || cf g Reg.SRC_CTRL_IF == 2 then
    let es := (c * 2) :: (if cf g Reg.SRC_2110_DUAL = 1 then [c * 2 + 1] else [])
    d.each rs (fun d r => d.each es (fun d e => d.policeLoad r e (streamKbps g)))
  else d

/-- A slot whose failed region is back: the region tracks the standby's streams (R273, R284). -/
def Dev.pgReturn (d : Dev) (n slot a : Nat) : Dev :=
  if d.active a = false then d
  else
    let d := (d.setPgState n slot 5).setPg n slot (fun x => { x with readySince := none, doneAt := none })
    (d.each (d.protOn (d.pgStby n)) (fun d c => (d.track a c).policeChan c [a] (d.chan c).cfg)).stolonTables

/-- Whether the returning region is READY, and since when (R285). -/
def Dev.pgBack (d : Dev) (n slot a : Nat) : Dev :=
  let s := d.pgStby n
  let chs := d.protOn s
  let v := b2n (!(d.returnAbsorbs n a)) + 2 * b2n (!(chs.all (d.trackReady a))) + 4 * b2n (chs.any (fun c => !(d.stbyInput c)))
    + 8 * b2n ((d.route s a).isNone) + 16 * b2n (!(d.healthy d.holder a) || !(d.active a))
  (d.wrNotReady n slot v).setPg n slot (fun x =>
    { x with readySince := if v = 0 then some (x.readySince.getD d.now) else none })

/-- A slot between READY, SYNC and EXPOSED by its PG_NOTREADY (R274). -/
def Dev.pgJudge (d : Dev) (n slot a : Nat) : Dev :=
  let v := d.notReady n slot a (d.pgStby n)
  let d := d.wrNotReady n slot v
  if bitOf v 0 || bitOf v 4 || bitOf v 5 then d.setPgState n slot 3
  else if v = 0 then d.setPgState n slot 2
  else d.setPgState n slot 1

/-- Re-evaluates a slot (R273, R274, R284, R285). -/
def Dev.pgEval (d : Dev) (n slot : Nat) : Dev :=
  match (d.pgActs n)[slot]? with
  | none => d
  | some a =>
    let st := d.pgState n slot
    if st = 4 then d.pgReturn n slot a
    else if st = 5 then d.pgBack n slot a
    else if st = 7 then (if d.active a then (d.setPgState n slot 1).pgJudge n slot a else d)
    else if st = 1 ∨ st = 2 ∨ st = 3 then d.pgJudge n slot a
    else d

/-- Re-evaluates every slot. -/
def Dev.pgEvalAll (d : Dev) : Dev :=
  d.each (groups.flatMap (fun n => [(n, 0), (n, 1)])) (fun d x => d.pgEval x.1 x.2)

end Sys2Proof.Machine
end

