-- ==== Sys2Proof/Machine/Admission.lean ====
section
/-! DEFINITION. Admission commands and the channel's lifecycle (R57 to R62, R78 to R82, R119, R191, R247, R261). -/

namespace Sys2Proof.Machine

/-- The fields of ADM_PLACE. -/
def Dev.admReq (d : Dev) (w op tag c gen : Nat) : AdmReq :=
  { op := op, tag := tag, chan := c, gen := gen, mask := d.rd Reg.ADM_PLACE_REGION_MASK pSHM,
    span := d.rd Reg.ADM_PLACE_SPAN pSHM, preempt := d.rd Reg.ADM_PLACE_PREEMPTIBLE pSHM,
    protect := d.rd Reg.ADM_PLACE_PROTECT pSHM, prio := d.rd Reg.ADM_PLACE_PRIO pSHM, cl4 := w == 0x30, cfg := d.staged }

/-- A request is taken (R57, R58): BUSY becomes 1. -/
def Dev.admTake (d : Dev) (q : AdmReq) : Dev :=
  { (d.wr Reg.ADM_STATUS_BUSY pSHM 1) with adm := some (q, d.now) }

/-- ADM_CMD with any OP (R57, R58): under the SHM page lock; one made while BUSY is 1 is ignored and counted. -/
def Dev.admCmd (d : Dev) (w op tag c gen : Nat) : Dev :=
  d.locked w pSHM (fun d =>
    if d.rd Reg.ADM_STATUS_BUSY pSHM = 1 then d.countErr pSHM
    else d.admTake (d.admReq w op (tag % 256) (c % 128) (gen % 256)))

/-- ADM_CREATE (R57, R58, R61): OP 0x1. -/
def execAdmCreate (w tag c gen : Nat) (s : State) : Host.Outcome State Fault Refusal :=
  s.onDev (fun d => d.admCmd w 1 tag c gen)

/-- ADM_MODIFY (R57, R58, R62): OP 0x2. -/
def execAdmModify (w tag c gen : Nat) (s : State) : Host.Outcome State Fault Refusal :=
  s.onDev (fun d => d.admCmd w 2 tag c gen)

/-- ADM_STOP (R57, R58): OP 0x3. -/
def execAdmStop (w tag c gen : Nat) (s : State) : Host.Outcome State Fault Refusal :=
  s.onDev (fun d => d.admCmd w 3 tag c gen)

/-- ADM_CHECK (R57, R58, R62): OP 0x4. -/
def execAdmCheck (w tag c gen : Nat) (s : State) : Host.Outcome State Fault Refusal :=
  s.onDev (fun d => d.admCmd w 4 tag c gen)

/-- The base QP of CQ_CAP (R170). -/
def qpBase (qi : Nat) : Int := 45 - ((2 * qi + 1) / 3 : Nat)

/-- A rendition starts (R73, R186, R191, R244, R247): a new stream with an empty CPB, initial θ, a random first
sequence number and, where OUT_SSRC is 0, a random SSRC (free values); frame `k` is its first. -/
def Dev.startRend (d : Dev) (c rd k : Nat) (g : Tbl Nat) (nn : Nat) : Dev :=
  let b := wRCS c rd
  let d := d.clearWin Reg.rows_rcs b
  let d := ((d.wr Reg.RCS_CPB_SIZE b (bCpb g rd)).wr Reg.RCS_RATE b (rSig g rd)).wr Reg.RCS_TCPB_TICKS b (nCpb g rd)
  let d := (d.wr Reg.RCS_QP_QI b (cfR g rd Reg.RC_QI_QI)).wrI Reg.RCS_QP_QP_BASE b (qpBase (cfR g rd Reg.RC_QI_QI))
  let d := ((d.wr Reg.RCS_THETA_I b 8388608).wr Reg.RCS_THETA_P b 4194304).wr Reg.RCS_THETA_B b 3145728
  let lv := (levelOf g rd).getD (0, 0)
  let v := wLIVE c rd
  let d := ((d.wr Reg.RN_STATE_ACTIVE v 1).wr Reg.RN_STATE_CODEC v (codec g rd)).wr Reg.RN_STATE_LEVEL v lv.1
  let d := d.wr Reg.RN_STATE_TIER v lv.2
  let o := wOS c rd
  let d := d.clearWin Reg.rows_os o
  let d := (d.wr Reg.OS_SEQ_NEXT_SEQ o (d.freeVal % 65536)).freeNext
  let d := if cfR g rd Reg.OUT_SSRC = 0 then (d.wr Reg.OS_SSRC o (d.freeVal % 2 ^ 32)).freeNext
    else d.wr Reg.OS_SSRC o (cfR g rd Reg.OUT_SSRC)
  let d := d.wr Reg.OS_SEQ_MAX_PKTS o (maxPkts g rd nn)
  { d with rends := tput d.rends (c * 8 + rd) { Rend.init with firstK := k, irs := [k], segs := [k] } }

/-- The layer entries and header of the channel's window as a CREATE leaves them (R92, R95). -/
def Dev.layersFrom (d : Dev) (c : Nat) (g : Tbl Nat) : Dev :=
  let d := d.clearWin Reg.rows_cmp (wCMP c)
  d.each (List.range 8) (fun d l =>
    let d := d.clearWin Reg.rows_layer (wLY c l)
    let d := d.each Reg.rows_layer (fun d row => if row.acc == .rws then d.wr row (wLY c l) (cfL g l row) else d)
    let d := { d with shadow := Reg.rows_layer.foldl (fun m row => tdel m (row.key (wLY c l) 0)) d.shadow }
    if l = 0 then d.wr Reg.LY_CTRL_ENABLE (wLY c 0) 1 else d)

/-- The CHSTAT fields that a CREATE begins anew (R82): all but the host's CH_LADDER_CTL and the reason of the last stop. -/
def createClears : List Row :=
  Reg.rows_chstat.filter (fun row => row != Reg.CH_LADDER_CTL_EV_LEVEL && row != Reg.CH_LADDER_CTL_EV_COUNT && row != Reg.CH_STATE_STOP_REASON)

/-- An accepted CREATE (R78 to R82): the channel is placed and goes to STARTING. -/
def Dev.create (d : Dev) (q : AdmReq) (o : AdmOut) (nvs : List NvIn) : Dev :=
  let c := q.chan
  let g := q.cfg
  let b := wCHSTAT c
  let gen := d.chGen c
  let prot := b2n (q.protect == 1)
  let d := d.clearWin createClears b
  let d := (d.wr Reg.CH_STATE_GEN b (if gen = 255 then 1 else gen + 1)).wr Reg.CH_STATE_PRIO b q.prio
  let d := (d.wr Reg.CH_STATE_PREEMPTIBLE b q.preempt).wr Reg.CH_STATE_PROTECTED b q.protect
  let d := d.wr Reg.CH_STATE_SPAN b q.span
  let d := (d.wr Reg.CH_LAT_NS_LAT b (latNs g prot)).wr Reg.CH_CLU_CLU b (chClu g)
  let d := d.setRho c 0
  let d := { d with chans := tput d.chans c { Chan.init with cfg := g, regions := o.placed, nvs := nvs } }
  let k := d.frameFrom c ((d.nowTu + ceilDiv (2 * (period g).1 * tuSec) (period g).2 : Nat))
  let k0 := d.frameFrom c (d.nowTu : Nat)
  let d := d.setChan c (fun x => { x with startK := k, k := k0, n := k0 * slices g })
  let d := d.layersFrom c g
  let d := d.each (rdList g) (fun d rd => (d.startRend c rd k g (nNal g rd o.placed.length (nvAt nvs rd))).setRend c rd (fun x => { x with fresh := true }))
  let d := d.each o.strms (fun d x => d.addStreams x.1 x.2)
  let d := d.policeChan c (o.strms.map (·.1) |>.filter (fun r => r == o.placed.headD 0 || !(o.placed.contains r))) g
  ((d.setChState c 1).reports c (fun _ => true) true).stolonTables.pgEvalAll

/-- An accepted MODIFY waits for its apply frame (R62): the first frame tick at least 2 periods after the posting. DESIGN CHOICE: until
then the capacity sums of other requests use the costs of the descriptor in force (log entry 159). -/
def Dev.modifyTake (d : Dev) (q : AdmReq) (nvs : List NvIn) : Dev :=
  let g := (d.chan q.chan).cfg
  let k := d.frameFrom q.chan ((d.nowTu + ceilDiv (2 * (period g).1 * tuSec) (period g).2 : Nat))
  (d.setChan q.chan (fun x => { x with next := some q.cfg, nextK := k, nextNvs := nvs, nextPlace := (q.prio, q.preempt) })).stolonTables

/-- Posts ADM_RESULT and ADM_DETAIL (R57), DONE and its event. -/
def Dev.admPost (d : Dev) (q : AdmReq) (o : AdmOut) : Dev :=
  let d := (d.wr Reg.ADM_RESULT_TAG pSHM q.tag).wr Reg.ADM_RESULT_REASON pSHM o.reason
  let d := d.wr Reg.ADM_RESULT_PLACED pSHM (o.placed.foldl (fun a r => a + 2 ^ r) 0)
  let d := d.wr Reg.ADM_RESULT_GEN pSHM (d.chGen q.chan)
  let rd := o.rend.getD 0
  let d := (d.wr Reg.ADM_DETAIL_REGION pSHM o.region).wr Reg.ADM_DETAIL_RENDITION pSHM (rd % 8)
  let d := d.wrB Reg.ADM_DETAIL_RENDITION_VALID pSHM (o.rend.isSome && rd < 8)
  let d := d.wr Reg.ADM_DETAIL_SHORTFALL pSHM (min o.short 0xFFFFFF)
  let d := (d.wr Reg.ADM_STATUS_BUSY pSHM 0).wr Reg.ADM_STATUS_DONE pSHM 1
  let d := { d with adm := none, tags := tput d.tags q.tag d.now }
  d.event pSHM 2 q.tag o.reason

/-- ADM_RESULT_POST (R59 to R62): the held request is evaluated against the state and its result posted; it waits
while INTERNAL is 1, while a declared failure waits for its take-over (R283), and until admission opens (R447). `nonVcl` gives each rendition's NAL units of the standards' syntax at their
largest sizes (R489). -/
def execAdmResultPost (t : Nat) (nonVcl : List NvIn) (s : State) : Host.Outcome State Fault Refusal :=
  s.onDev (fun d0 =>
    let d := d0.advanceTo t
    match d.adm with
    | none => d
    | some (q, _) =>
      if d.rd Reg.ADM_STATUS_INTERNAL pSHM = 1 ∨ d.sys.admOpen = false ∨ d.pgs.any (fun x => x.2.declared.isSome) = true then d
      else
        let o := d.evaluate q nonVcl
        if o.reason ≠ 0 then d.admPost q o
        else if q.op = 1 then (d.create q o nonVcl).admPost q o
        else if q.op = 2 then (d.modifyTake q nonVcl).admPost q o
        else if q.op = 3 then (d.stopChan q.chan 0x20 false (d.frameFrom q.chan (d.nowTu : Nat))).admPost q o
        else d.admPost q o)

/-- The streams of a channel on a region after a change of its descriptor: those of continued renditions go on. -/
def Dev.restream (d : Dev) (r c : Nat) (kept : List Nat) (ss : List (Nat × Nat × Nat)) : Dev :=
  match d.placeOn r (some c) ss with
  | .inl _ => d
  | .inr ps =>
    let mine (k : Nat) : Bool :=
      k / 2048 == r && (let s := k % 2048; (if s < 1024 then s / 8 else s - 1024) == c)
    let goes (k : Nat) : Bool := mine k && !(ps.any (fun p => slotKey r p.1 == k))
    let d := d.each ((d.strms.map (·.1)).filter goes) (fun d k => d.wr Reg.DS_STATE_ACTIVE (wDS r (k % 2048)) 0)
    let d := { d with strms := tkeep (fun k _ => !(goes k)) d.strms, slots := tkeep (fun k _ => !(goes k)) d.slots }
    (d.each ps (fun d p =>
      if (1024 ≤ p.1 || kept.contains (p.1 % 8)) && (tget? d.strms (slotKey r p.1)).isSome then
        let d := d.wr Reg.DS_STATE_ENGINE (wDS r p.1) p.2.eng
        { d with strms := tput d.strms (slotKey r p.1) p.2 }
      else d.addStreams r [p])).syncDe r

/-- MODIFY_APPLY (R62, R119, R186, R187): at the apply frame the renditions are continued, replaced, added or
removed. A continued rendition keeps its ledger; θ_k of a later sequence carries over. What was captured before the
frame goes on under the earlier descriptor. -/
def execModifyApply (c t : Nat) (s : State) : Host.Outcome State Fault Refusal :=
  s.onDev (fun d0 =>
    let d := d0.advanceTo t
    let ch := d.chan c
    match ch.next with
    | none => d
    | some g =>
      if !(d.live c) || decide ((d.nowTu : Int) < d.tickAt c ch.nextK) then d
      else
        let old := ch.cfg
        let kept := continued old g
        let gone := (rdList old).filter (fun rd => !(kept.contains rd))
        let fresh := (rdList g).filter (fun rd => !(kept.contains rd))
        let d := d.each gone (fun d rd =>
          let d := d.setRend c rd (fun x => { x with ended := some ch.nextK })
          if fresh.contains rd then { d with olds := tdel d.olds (c * 8 + rd) }.swapOld c rd else d)
        let d := d.setChan c (fun x =>
          { x with cfg := g, next := none, nvs := x.nextNvs, prev := x.prev ++ [(ch.nextK, old)] })
        let d := (d.wr Reg.CH_CLU_CLU (wCHSTAT c) (chClu g)).wr Reg.CH_STATE_PRIO (wCHSTAT c) ch.nextPlace.1
        let d := d.wr Reg.CH_STATE_PREEMPTIBLE (wCHSTAT c) ch.nextPlace.2
        let d := d.each kept (fun d rd =>
          let b := wRCS c rd
          let lv := (levelOf g rd).getD (0, 0)
          let d := (d.wr Reg.RCS_QP_QI b (cfR g rd Reg.RC_QI_QI)).wrI Reg.RCS_QP_QP_BASE b (qpBase (cfR g rd Reg.RC_QI_QI))
          let d := (d.wr Reg.RN_STATE_CODEC (wLIVE c rd) (codec g rd)).wr Reg.RN_STATE_LEVEL (wLIVE c rd) lv.1
          let d := d.wr Reg.RN_STATE_TIER (wLIVE c rd) lv.2
          let d := d.wr Reg.OS_SEQ_MAX_PKTS (wOS c rd) (maxPkts g rd (nNal g rd ch.regions.length (nvAt ch.nextNvs rd)))
          let same := [Reg.RN_CTRL_CODEC, Reg.RN_CTRL_PROFILE, Reg.RN_CTRL_CHROMA, Reg.RN_CTRL_DEPTH, Reg.RN_CTRL_COLOUR,
            Reg.RN_SIZE_WIDTH, Reg.RN_SIZE_HEIGHT, Reg.RN_LEVEL_LEVEL, Reg.RN_LEVEL_TIER_HIGH, Reg.RN_GOP_MODE,
            Reg.RN_GOP_IRAP_CRA, Reg.RN_GOP_SC_IRAP, Reg.RN_GOP_DIR, Reg.RN_GOP_INTRA_PERIOD,
            Reg.RN_GOP_REFRESH_PERIOD].all (fun row => cfR g rd row == cfR old rd row)
          if same then d
          else { d with rends := tmod d.rends (c * 8 + rd) Rend.init (fun x => { x with irs := x.irs ++ [ch.nextK], segs := x.segs ++ [ch.nextK] }) })
        let d := d.each fresh (fun d rd => d.startRend c rd ch.nextK g (nNal g rd ch.regions.length (nvAt ch.nextNvs rd)))
        let d := d.each ch.regions (fun d r => d.restream r c kept (streamsOf g c ch.regions r))
        let d := match if d.protectedCh c then d.stbyFor (d.lead c) else none with
          | some s => d.restream s c kept (trackStreams g c)
          | none => d
        d.pgEvalAll)

/-- A channel begins capture at its start frame: the ingest phase measured in STARTING is fixed, and reported in CMP_PHASE
(R79, R87). DESIGN CHOICE: where no source frame arrived in STARTING the phase is 0 ns (log entry 160). -/
def Dev.channelStart (d : Dev) (c : Nat) : Dev :=
  let d := d.setChan c (fun x => { x with phase := some (x.phase.getD 0) })
  d.wr Reg.CMP_PHASE_PHI (wCMP c) ((d.chan c).phase.getD 0)

/-- CHANNEL_START (R79, R87). -/
def execChannelStart (c t : Nat) (s : State) : Host.Outcome State Fault Refusal :=
  s.onDev (fun d0 =>
    let d := d0.advanceTo t
    if d.chState c ≠ 1 ∨ (d.nowTu : Int) < d.tickAt c (d.chan c).startK then d else d.channelStart c)

/-- CH_QUARANTINE_END (R78): QUARANTINE becomes FREE once its time has passed. -/
def execChQuarantineEnd (c t : Nat) (s : State) : Host.Outcome State Fault Refusal :=
  s.onDev (fun d0 =>
    let d := d0.advanceTo t
    if d.chState c = 4 ∧ (d.chan c).quarEnd ≤ d.now then
      let d := d.setChState c 0
      { d with chans := tdel d.chans c }.stolonTables
    else d)

end Sys2Proof.Machine
end

