-- ==== Sys2Proof/Machine/Mem.lean ====
section
/-! DEFINITION. Region memory (R305): bytes by address, in one canonical form, and the windows of the ports in service. -/

namespace Sys2Proof.Machine

/-- The key of a byte of region memory. -/
def ramKey (r addr : Nat) : Nat := r * 2 ^ 64 + addr

/-- A byte of region memory: 0x00 where nothing is listed. -/
def ramGet (m : List Host.Cell) (key : Nat) : Byte := tget m key 0

/-- Writes a byte; 0x00 is not listed. -/
def ramPut (m : List Host.Cell) (key : Nat) (b : Byte) : List Host.Cell :=
  if b = 0 then tdel m key else tput m key b

/-- The canonical form: keys strictly rising, no byte 0x00 listed. -/
def Memory.wf (m : List Host.Cell) : Bool := twf m && m.all (fun e => e.2 != 0)

/-- The port whose data window holds an address, in service (R305). -/
def Dev.portFor (d : Dev) (r addr : Nat) : Option Nat :=
  (d.portsIn r).find? (fun p =>
    p * 0x800000000 ≤ addr && addr < p * 0x800000000 + d.rd Reg.MP_CAP_DATA_MIB (blk r (ixMEMPORT + p)) * 2 ^ 20)

/-- Counts an access to an unmapped address (R305). -/
def Dev.unmapped (d : Dev) (r : Nat) : Dev := d.inc Reg.ERR_COUNT (blk r ixRGN)

/-- Stores bytes from an address on, byte by byte; those that are unmapped are discarded, and the access is counted. -/
def State.memPut (s : State) (r addr : Nat) (bytes : List Byte) : State :=
  let n := bytes.length
  let cells := (List.range n).filter (fun i => (s.dev.portFor r (addr + i)).isSome)
  let ram := cells.foldl (fun m i => ramPut m (ramKey r (addr + i)) (bytes.getD i 0)) s.ram
  { s with ram := ram, dev := if cells.length = n then s.dev else s.dev.unmapped r }

/-- The bytes that lie at an address, as region memory holds them. -/
def State.memGet (s : State) (r addr n : Nat) : List Byte :=
  (List.range n).map (fun i => ramGet s.ram (ramKey r (addr + i)))

/-- The contents of region `r` from address `lo` up to `hi` are lost (R456): they read as bytes that nothing has written. -/
def State.loseRam (s : State) (r lo hi : Nat) : State :=
  { s with ram := tkeep (fun k _ => !(ramKey r lo ≤ k && k < ramKey r hi)) s.ram }

/-- A port loses the contents of its window (R320, R456). -/
def State.losePort (s : State) (r p : Nat) : State := s.loseRam r (p * 0x800000000) ((p + 1) * 0x800000000)

/-- Little-endian bytes as stored. -/
def byteList (l : List Nat) : List Byte := l.map (fun x => BitVec.ofNat 8 x)

end Sys2Proof.Machine
end

