-- ==== Sys2Proof/Machine/Timebase.lean ====
section
/-! DEFINITION. The timebase, PTP and the servo (R368 to R386). -/

namespace Sys2Proof.Machine

/-- A number moved by a signed amount. -/
def addInt (k : Nat) (n : Int) : Nat := ((k : Int) + n).toNat

/-- Rounds a / b to the nearest integer, halves up, for b above 0. -/
def roundInt (a : Int) (b : Nat) : Int := (2 * a + (b : Int)) / (2 * (b : Int))

/-- TB_INC at its nominal 2 ns (R36). -/
def nominalInc : Nat := 2 ^ 33

/-- Writes TB_INC on the holder's page within the range of R370; a clamp is counted. -/
def Dev.loadInc (d : Dev) (v : Int) : Dev :=
  let b := blk d.holder ixTIMEBASE
  let ppm := if d.liveChans.isEmpty then 500 else d.rd Reg.TB_CTRL_SLEW_PPM b
  let span : Int := (nominalInc * ppm / 1000000 : Nat)
  let x := clampInt ((nominalInc : Int) - span) ((nominalInc : Int) + span) v
  let d := if x = v then d else d.countErr b
  d.wrPair Reg.TB_INC_LO Reg.TB_INC_HI b x.toNat

/-- Whether the servo mode lets `w` write TB_INC, TB_ADJ and DCO_FOFS (R382). -/
def Dev.servoAllows (d : Dev) (w : Nat) : Bool :=
  !(d.rd Reg.PTP_SERVO_MODE pPTP == 0 && (isHost w || w == 0x30))

/-- A write of TB_INC or TB_ADJ.OP in region `r` (R370, R371, R382): in another region than the holder's, or where
the servo mode refuses the writer, it is ignored and counted. -/
def Dev.tbWrite (d : Dev) (w r : Nat) (f : Dev → Dev) : Dev :=
  d.locked w (blk r ixTIMEBASE) (fun d =>
    if r ≠ d.holder ∨ d.servoAllows w = false then d.countErr (blk r ixTIMEBASE) else f d)

/-- TB_INC_WRITE (R370, R382). -/
def execTbIncWrite (w r v : Nat) (s : State) : Host.Outcome State Fault Refusal :=
  s.onDev (fun d => d.tbWrite w r (fun d => d.loadInc (v % 2 ^ 34 : Nat)))

/-- The apply instant of a TB_ADJ written now (R371): the first whole ms at least 200 µs ahead. -/
def Dev.adjAt (d : Dev) : Nat := roundUpTo (ceilDiv d.nowTu 65536 + 200000) 1000000

/-- Schedules an operation, in place of one that waits. -/
def Dev.adjStart (d : Dev) (isSet : Bool) (v : Int) : Dev :=
  let d := d.wr Reg.TB_ADJ_PENDING (blk d.holder ixTIMEBASE) 1
  { d with sys := { d.sys with adj := some ⟨isSet, v, d.adjAt⟩ } }

/-- TB_LOAD as captured by TB_ADJ.OP (R371): its amount in 2^-16 ns, and whether its nanoseconds field is in range. -/
def Dev.tbLoad (d : Dev) (isSet : Bool) : Int × Bool :=
  let b := blk d.holder ixTIMEBASE
  let w0 := d.rd Reg.TB_LOAD b 0
  let w1 := d.rd Reg.TB_LOAD b 1
  let w2 := d.rd Reg.TB_LOAD b 2
  let ns := w0 / 65536 + w1 % 65536 * 65536
  let sec := w1 / 65536 + w2 * 65536
  let sec : Int := if isSet then (sec : Int) else signed 48 sec
  ((sec * 1000000000 + (ns : Int)) * 65536 + (w0 % 65536 : Nat), decide (ns < 1000000000))

/-- TB_ADJ.OP (R371): 1 SET, 2 STEP; another OP, or a nanoseconds field of 10^9 or more, is refused. -/
def Dev.tbAdjOp (d : Dev) (w r op : Nat) : Dev :=
  d.tbWrite w r (fun d =>
    let x := d.tbLoad (op == 1)
    if (op = 1 ∨ op = 2) ∧ x.2 = true then d.adjStart (op == 1) x.1
    else d.wr Reg.TB_ADJ_RESULT (blk d.holder ixTIMEBASE) cOpInvalid)

/-- TB_SET (R371). -/
def execTbSet (w r : Nat) (s : State) : Host.Outcome State Fault Refusal :=
  s.onDev (fun d => d.tbAdjOp w r 1)

/-- TB_STEP (R371). -/
def execTbStep (w r : Nat) (s : State) : Host.Outcome State Fault Refusal :=
  s.onDev (fun d => d.tbAdjOp w r 2)

/-- The frames n by which a channel's numbers advance, and its new ρ (R372): n × P is rounded to 2^-16 ns. -/
def rephase (g : Tbl Nat) (rho delta : Int) : Int × Int :=
  let num : Int := ((period g).1 * tuSec : Nat)
  let den := (period g).2
  let x := rho + delta
  let n := (2 * (x * (den : Int)) + num) / (2 * num)
  (n, x - roundInt (n * num) den)

/-- One channel's frame numbers and posted instants after a change Δ of the timebase with n frames (R372). -/
def Chan.shift (ch : Chan) (n delta : Int) : Chan :=
  { ch with
    undecided := ch.undecided.map (fun x => addInt x n),
    nextK := addInt ch.nextK n, startK := addInt ch.startK n, k := addInt ch.k n,
    n := addInt ch.n (n * (slices ch.cfg : Int)), stopK := ch.stopK.map (fun x => addInt x n),
    srcs := ch.srcs.map (fun x => (addInt x.1 n, { x.2 with start := addInt x.2.start delta })),
    lays := tmap (fun _ l => { l with queue := l.queue.map (fun q => (q.1, addInt q.2 delta)) }) ch.lays,
    lyAt := addInt ch.lyAt delta, roiAt := addInt ch.roiAt delta,
    lyWait := ch.lyWait.map (fun x => (x.1, x.2.1, addInt x.2.2 delta)),
    info := ch.info.map (fun x => (addInt x.1 n, x.2)), prev := ch.prev.map (fun x => (addInt x.1 n, x.2)),
    handTo := ch.handTo.map (fun x => (addInt x.1 n, x.2)),
    quarEnd := addInt ch.quarEnd (floorDiv delta 65536) }

/-- A unit whose frames and instants a timebase adjustment moves (R371). -/
def Du.shift (n ns : Int) (u : Du) : Du :=
  { u with k := addInt u.k n, dep := addInt u.dep ns, pcrNs := addInt u.pcrNs ns, patNs := addInt u.patNs ns }

/-- One rendition's frame numbers and instants. -/
def Rend.shift (x : Rend) (n ns : Int) : Rend :=
  { x with
    firstK := addInt x.firstK n, irs := x.irs.map (fun k => addInt k n), segs := x.segs.map (fun k => addInt k n),
    accs := tmap (fun _ a => { a with k := addInt a.k n }) x.accs,
    opens := x.opens.map (fun o => { o with k := addInt o.k n }),
    dus := x.dus.map (Du.shift n ns), pcrNs := addInt x.pcrNs ns, patNs := x.patNs.map (fun v => addInt v ns),
    ended := x.ended.map (fun k => addInt k n), minimalTo := x.minimalTo.map (fun k => addInt k n),
    recon := tmap (fun _ k => addInt k n) x.recon }

/-- The frame and the TB instants that a slice record holds. -/
def MirRec.shift (n ns : Int) (y : MirRec) : MirRec :=
  { y with fields := (List.range y.fields.length).map (fun i =>
      let v := y.fields.getD i 0
      if i = 1 then v + n else if i = 6 ∨ i = 22 ∨ i = 23 then v + ns else v) }

/-- A flow's instants. -/
def Flow.shift (ns : Int) (mine : Bool) (f : Flow) : Flow :=
  { f with
    quarEnd := addInt f.quarEnd ns, since := addInt f.since ns, resume := addInt f.resume ns,
    back := f.back.map (fun v => addInt v ns), pend := f.pend.map (fun v => (addInt v.1 ns, v.2)),
    del := f.del.map (fun v => addInt v ns),
    queue := if mine then f.queue.map (fun q => { q with dep := addInt q.dep ns, enq := addInt q.enq ns }) else f.queue }

/-- A dispatcher's instants of quarantine, hold and waiting. -/
def Rachis.shift (ns : Int) (x : Rachis) : Rachis :=
  { x with
    ents := tmap (fun _ e => match e with
      | .quar u => .quar (addInt u ns)
      | .token k n v a u o => .token k n v a (addInt u ns) o
      | e => e) x.ents,
    stalls := x.stalls.map (fun s => { s with since := addInt s.since ns }),
    reqs := x.reqs.map (fun q => { q with since := addInt q.since ns }),
    fails := tmap (fun _ l => l.map (fun v => addInt v ns)) x.fails }

/-- Intervals that run are not changed by a change of the timebase: the instants that they are kept by move with it. -/
def Dev.shiftTimers (d : Dev) (ns : Int) : Dev :=
  let mv (_ : Nat) (v : Nat) : Nat := addInt v ns
  { d with
    lease := tmap mv d.lease, tags := tmap mv d.tags, phaseEnd := d.phaseEnd.map (fun v => addInt v ns),
    ras := tmap (fun _ x => x.shift ns) d.ras,
    ref := { d.ref with edges := tmap mv d.ref.edges, acqSince := d.ref.acqSince.map (fun v => addInt v ns),
                        ents := tmap (fun _ x => { x with esmcAt := addInt x.esmcAt ns, from_ := addInt x.from_ ns }) d.ref.ents },
    ptp := tmap (fun _ x => { x with annAt := addInt x.annAt ns }) d.ptp,
    mps := tmap (fun _ x => { x with since := x.since.map (fun v => addInt v ns), forcedAt := x.forcedAt.map (fun v => addInt v ns),
                                     stepAt := x.stepAt.map (fun v => addInt v ns), next := x.next.map (fun v => addInt v ns) }) d.mps,
    leg := { d.leg with failAt := addInt d.leg.failAt ns, openAt := addInt d.leg.openAt ns,
                        queue := d.leg.queue.map (fun q => (addInt q.1 ns, q.2)),
                        last := d.leg.last.map (fun q => ((addInt q.1.1 ns, q.1.2), addInt q.2 ns)) },
    busy := tmap (fun _ x => (addInt x.1 ns, x.2)) d.busy,
    lanes := tmap (fun _ x => { x with clear := x.clear.map (fun v => addInt v ns), okAt := x.okAt.map (fun v => addInt v ns) }) d.lanes,
    des := tmap (fun _ x => { x with release := addInt x.release ns, deadline := addInt x.deadline ns }) d.des,
    slots := tmap (fun _ x => { x with handed := tmap mv x.handed, lastAt := tmap mv x.lastAt }) d.slots,
    pgs := tmap (fun _ x => { x with declared := x.declared.map (fun v => (v.1, addInt v.2 ns)),
                                     readySince := x.readySince.map (fun v => addInt v ns),
                                     revert := x.revert.map (fun v => addInt v ns),
                                     takeAt := x.takeAt.map (fun v => addInt v ns),
                                     doneAt := x.doneAt.map (fun v => addInt v ns) }) d.pgs,
    rgn := tmap (fun _ x => { x with failedAt := x.failedAt.map (fun v => addInt v ns) }) d.rgn,
    sys := { d.sys with electAt := d.sys.electAt.map (fun v => addInt v ns), firstElect := d.sys.firstElect.map (fun v => addInt v ns),
                        heard := tmap mv d.sys.heard, beats := [],
                        tsOut := tmap (fun _ x => (addInt x.1 ns, x.2.1, addInt x.2.2 ns)) d.sys.tsOut },
    nvm := { d.nvm with bufAt := d.nvm.bufAt.map (fun v => addInt v ns), checkAt := addInt d.nvm.checkAt ns } }

/-- Applies a change Δ in 2^-16 ns to every region and rephases the live channels (R371, R372): departure instants of
their queued packets move with their ticks. -/
def Dev.tbChange (d : Dev) (delta : Int) : Dev :=
  let live := d.liveChans
  let ns := floorDiv delta 65536
  let d := { d with tbs := regions.foldl (fun m r =>
    tmod m r ⟨0, 0⟩ (fun x => { x with cnt := addInt x.cnt (delta * 65536) })) d.tbs }
  let d := d.each live (fun d c =>
    let p := rephase (d.chan c).cfg (d.rho c) delta
    let d := (d.setRho c p.2).setChan c (fun ch => ch.shift p.1 delta)
    { d with
      rends := tmap (fun key x => if key / 8 = c then x.shift p.1 ns else x) d.rends,
      olds := tmap (fun key x => if key / 8 = c then (x.1.shift p.1 ns, x.2) else x) d.olds,
      mirs := tmap (fun key x => if key / 8 = c then
        { x with dus := x.dus.map (Du.shift p.1 ns), rec0 := x.rec0.map (MirRec.shift p.1 ns), rec1 := x.rec1.map (MirRec.shift p.1 ns) } else x) d.mirs,
      ces := tmap (fun _ j => if j.c = c then { j with k := addInt j.k p.1 } else j) d.ces })
  let flows := tmap (fun key f =>
    f.shift ns (live.contains (d.rd Reg.FL_CTRL_CHANNEL (wFLOW (key / 2048) (key % 2048))))) d.flows
  ({ d with flows := flows }.shiftTimers ns).emit (.tbAdj delta)

/-- Whether a timebase value in 2^-16 ns lies in the 48-bit seconds of TB_NOW. -/
def tbHolds (v : Int) : Bool := decide (0 ≤ v) && decide (v < 2 ^ 48 * 1000000000 * 65536)

/-- The change Δ that an operation makes (R371). A STEP to before 0 or beyond the 48-bit seconds leaves a value that the spec does not
give: a free value. -/
def Dev.adjDelta (d : Dev) (a : TbAdj) : Int :=
  let new := if a.isSet then a.val else (d.nowTu : Int) + a.val
  (if tbHolds new then new else ((d.freeVal % (2 ^ 48 * 1000000000 * 65536) : Nat) : Int)) - (d.nowTu : Int)

/-- TB_ADJ_APPLY (R368, R371, R372): at the apply instant the operation acts on the master and every slave alike. -/
def execTbAdjApply (t : Nat) (s : State) : Host.Outcome State Fault Refusal :=
  s.onDev (fun d0 =>
    let d := d0.advanceTo t
    match d.sys.adj with
    | none => d
    | some a =>
      if d.now < a.atNs then d
      else
        let d := d.freeNext.tbChange (d.adjDelta a)
        let d := if a.isSet then d.each regions (fun d r => d.wr Reg.TB_STATUS_VALID (blk r ixTIMEBASE) 1) else d
        let b := blk d.holder ixTIMEBASE
        let d := (d.wr Reg.TB_ADJ_RESULT b 0).wr Reg.TB_ADJ_PENDING b 0
        { d with sys := { d.sys with adj := none } })

/-! ## PTP (R376 to R381) -/

/-- A change of STATE with its event (R385). -/
def Dev.ptpSet (d : Dev) (n st : Nat) : Dev :=
  if d.ptpState n = st then d
  else (d.wr Reg.PTP_STAT_STATE (pPTPI n) st).event pPTP 0 n st

/-- The compensation registers of an instance's port (R379, R386): its lane page and rate class. -/
def Dev.ptpLane (d : Dev) (n : Nat) : Nat := lanePage (d.ptpRd n Reg.PTP_CTRL_PORT)

/-- The class of a PTP instance's lane rate. -/
def Dev.ptpClass (d : Dev) (n : Nat) : Nat := min 2 (d.rd Reg.LN_CFG_RATE (d.ptpLane n))

/-- t_rx of a raw receive time-stamp (R379); none where there is no valid one. -/
def Dev.rxStamp (d : Dev) (n raw : Nat) : Option Int :=
  if raw = 0 then none else some ((raw : Int) - d.rdI Reg.PTL_ING (d.ptpLane n) (d.ptpClass n))

/-- t_tx of a raw transmit time-stamp (R379). -/
def Dev.txStamp (d : Dev) (n raw : Nat) : Option Int :=
  if raw = 0 then none else some ((raw : Int) + d.rdI Reg.PTL_EGR (d.ptpLane n) (d.ptpClass n))

/-- An event message without a valid time-stamp (R385). -/
def Dev.tsMiss (d : Dev) (n : Nat) : Dev := d.inc Reg.PTP_CNT_TS_MISS (pPTPI n)

/-- Whether the servo steers by instance `n` (R380): the DPLL is STEERED to the entry of its port. -/
def Dev.steers (d : Dev) (n : Nat) : Bool :=
  let e := d.rd Reg.DPLL_STATUS_REF pDPLL
  d.dpllState == 3 && decide (e < 12) && d.rd Reg.REF_CTRL_TYPE (pREF e) == 2
    && d.ptpOnPort (d.rd Reg.REF_CTRL_SRC (pREF e)) == some n

/-- The servo of FIRMWARE mode on one exchange (R380): SET at the first, STEP after four large offsets in a row,
otherwise a phase correction over 1 s and the frequency loop, whose output the spec gives only as a bandwidth: a
free value. -/
def Dev.servo (d : Dev) (n : Nat) (ofs : Int) : Dev :=
  if d.rd Reg.PTP_SERVO_MODE pPTP ≠ 0 ∨ d.steers n = false then d
  else if d.tbValid = false then
    (if d.sys.adj.isSome then d else d.adjStart true ((d.adjAt : Int) * 65536 - ofs))
  else
    let large := decide (d.rd Reg.PTP_STEP_THR_US pPTP * 65536000 < ofs.natAbs)
    let above := if large then (d.ptpSt n).above + 1 else 0
    if 4 ≤ above then (d.setPtp n (fun x => { x with above := 0 })).adjStart false (-ofs)
    else
      let d := d.setPtp n (fun x => { x with above := above })
      let d := d.loadInc ((nominalInc : Int) - roundInt (ofs * 131072) 1000000000)
      let d := { d with phaseEnd := some (d.now + 1000000000) }
      let v := signed 32 d.freeVal
      d.freeNext.loadFofs v

/-- Forgets the transmitter that an instance follows, and its exchange. -/
def Dev.ptpForget (d : Dev) (n : Nat) : Dev :=
  d.setPtp n (fun x => { x with best := none, t1 := none, t2 := none, wait2 := none, t3 := none, above := 0 })

/-- The written configuration of an instance applies (R385): one that is disabled stops, and one enabled, or moved to another role or port,
starts over in LISTENING. -/
def Dev.ptpDue (d : Dev) (n : Nat) : Dev :=
  match (d.ptpSt n).act with
  | none => d
  | some t =>
    let b := pPTPI n
    let was (row : Row) : Nat := stGet t row b 0
    let same (row : Row) : Bool := was row == d.rd row b
    let d := d.setPtp n (fun x => { x with act := none })
    if d.rd Reg.PTP_CTRL_EN b = 0 then ((d.ptpForget n).ptpSet n 3).syncUtc
    else if same Reg.PTP_CTRL_EN && same Reg.PTP_CTRL_ROLE && same Reg.PTP_CTRL_PORT then d
    else ((d.ptpForget n).ptpSet n ptpListening).syncUtc

/-- A message of instance `n` (R376, R385): what was written to its configuration applies from it on. -/
def State.onPtp (s : State) (n : Nat) (f : Dev → Dev) : Host.Outcome State Fault Refusal := s.onDev (fun d => f (d.ptpDue n))

/-- Whether a time receiver takes an event or general message: one of its domain from the transmitter that it follows (R376). -/
def Dev.ptpHears (d : Dev) (n dom src : Nat) : Bool :=
  d.ptpRole n == some 0 && d.ptpState n == ptpReceiver && dom == d.ptpRd n Reg.PTP_CFG_DOMAIN
    && (d.ptpSt n).best.any (fun a => a.src == src)

/-- PTP_SYNC_RX (R376, R378, R379): a time receiver takes t2, and from a one-step Sync t1. Times are in 2^-16 ns. -/
def execPtpSyncRx (n raw origin : Nat) (h : PtpHdr) (corr : Int) (twoStep : Bool) (s : State) : Host.Outcome State Fault Refusal :=
  s.onPtp n (fun d =>
    if d.ptpHears n h.sender.dom h.sender.src = false then d
    else match d.rxStamp n raw with
    | none => d.tsMiss n
    | some t2 =>
      if twoStep then d.setPtp n (fun x => { x with wait2 := some (t2 - corr, h.seq) })
      else d.setPtp n (fun x => { x with t1 := some ((origin : Int) + corr), t2 := some t2, wait2 := none }))

/-- PTP_FOLLOW_UP_RX (R376, R379): t1 of a two-step Sync. -/
def execPtpFollowUpRx (n origin : Nat) (h : PtpHdr) (corr : Int) (s : State) : Host.Outcome State Fault Refusal :=
  s.onPtp n (fun d =>
    if d.ptpHears n h.sender.dom h.sender.src = false then d
    else match (d.ptpSt n).wait2 with
    | some (t2, q) =>
      if q = h.seq then
        d.setPtp n (fun x => { x with t1 := some ((origin : Int) + corr), t2 := some t2, wait2 := none })
      else d
    | none => d)

/-- PTP_DELAY_REQ_RX (R376, R379): a time transmitter answers with t4. -/
def execPtpDelayReqRx (n raw seq : Nat) (x : PtpFrom) (s : State) : Host.Outcome State Fault Refusal :=
  s.onPtp n (fun d =>
    if d.ptpRole n ≠ some 1 ∨ d.ptpState n ≠ ptpMaster ∨ x.dom ≠ d.ptpRd n Reg.PTP_CFG_DOMAIN then d
    else match d.rxStamp n raw with
    | none => d.tsMiss n
    | some t4 => d.emit (.ptp n 3 seq [t4, x.src]))

/-- PTP_DELAY_RESP_RX (R379 to R381): the exchange completes, its result is published, and the servo acts. -/
def execPtpDelayRespRx (n t4 : Nat) (h : PtpHdr) (corr : Int) (s : State) : Host.Outcome State Fault Refusal :=
  s.onPtp n (fun d =>
    let x := d.ptpSt n
    if d.ptpHears n h.sender.dom h.sender.src = false then d
    else match x.t1, x.t2, x.t3 with
    | some t1, some t2, some (t3, q) =>
      if q ≠ h.seq then d
      else
        let a := t2 - t1
        let b := (t4 : Int) - corr - t3
        let ofs := floorDiv (a - b) 2 - d.rdI Reg.PTL_ASYM (d.ptpLane n)
        let d := d.wrPair Reg.PTP_OFS_LO Reg.PTP_OFS_HI (pPTPI n) (unsignedOf 64 ofs)
        let d := d.wrPair Reg.PTP_MPD_LO Reg.PTP_MPD_HI (pPTPI n) (unsignedOf 64 (floorDiv (a + b) 2))
        let d := d.incWrap Reg.PTP_SEQ (pPTPI n)
        let d := d.setPtp n (fun x => { x with t3 := none })
        d.servo n ofs
    | _, _, _ => d)

/-- The order of the best time transmitter clock algorithm (R377): between two ways to one grandmaster fewer steps, then the sender. -/
def annBetter (a b : Announce) : Bool :=
  let key (x : Announce) : Nat :=
    ((((x.prio1 * 256 + x.cls) * 256 + x.acc) * 65536 + x.variance) * 256 + x.prio2) * 2 ^ 64 + x.gmid
  if a.gmid = b.gmid then decide (a.steps < b.steps) || (a.steps == b.steps && decide (a.src < b.src)) else decide (key a < key b)

/-- What a time transmitter announces (R377): clockClass and clockAccuracy. -/
def Dev.ownClass (d : Dev) : Nat × Nat :=
  let st := d.dpllState
  let ql := d.rd Reg.REFSEL_STATE_QL pREFSEL
  if (st = 2 ∨ st = 3) ∧ ql ≤ 1 then (6, 0x22)
  else if st = 4 ∧ d.rd Reg.DPLL_STATUS_HOLD_VALID pDPLL = 1 then (7, 0xFE)
  else (248, 0xFE)

/-- QL of the PTP entries on an instance's port, and the choice (R353, R358). -/
def Dev.ptpRefs (d : Dev) (n : Nat) (a : Announce) : Dev :=
  let port := d.ptpRd n Reg.PTP_CTRL_PORT
  let d := d.each entries (fun d e =>
    if d.rd Reg.REF_CTRL_EN (pREF e) = 1 ∧ d.rd Reg.REF_CTRL_TYPE (pREF e) = 2 ∧ d.rd Reg.REF_CTRL_SRC (pREF e) = port then
      ((d.wr Reg.REF_STAT_QL (pREF e) (ptpQl a.cls a.acc)).wr Reg.REF_RAW_CODE (pREF e) a.cls).wr Reg.REF_RAW_ACC (pREF e) a.acc
    else d)
  d.refRun

/-- A time receiver follows the best announced transmitter; a change of grandmaster is counted and raises PTP_GM at most
once per TB second, and one of transmitter restarts the exchange (R377, R380, R385). -/
def Dev.follow (d : Dev) (n : Nat) (a : Announce) : Dev :=
  let b := pPTPI n
  let changed := d.rdPair Reg.PTP_GMID_LO Reg.PTP_GMID_HI b != a.gmid
  let d := ((d.wr Reg.PTP_STAT_GM_CLASS b a.cls).wr Reg.PTP_STAT_GM_ACC b a.acc)
  let d := d.wrPair Reg.PTP_GMID_LO Reg.PTP_GMID_HI b a.gmid
  let d := if (d.ptpSt n).best.map Announce.src = some a.src ∧ changed = false then d else d.ptpForget n
  let d := d.setPtp n (fun x => { x with best := some a, annAt := d.now })
  let d := if changed then
      let d := d.inc Reg.PTP_CNT_GM_CHANGES b
      if d.mayRaise (0x300 + n) then (d.markRaised (0x300 + n)).event pPTP 1 n 0 else d
    else d
  let d := d.ptpSet n ptpReceiver
  (d.ptpRefs n a).syncUtc

/-- PTP_ANNOUNCE_RX (R353, R358, R375, R377): one of the instance's domain. A message of 255 or more steps removed does not qualify (IEEE
1588-2019, PRESUMED). A transmitter that hears a better clock is PASSIVE, and MASTER again once that one announces no better; on a tie
its own identity decides. -/
def execPtpAnnounceRx (n : Nat) (a : Announce) (t : Nat) (s : State) : Host.Outcome State Fault Refusal :=
  s.onPtp n (fun d0 =>
    let d := d0.advanceTo t
    if 255 ≤ a.steps ∨ a.dom ≠ d.ptpRd n Reg.PTP_CFG_DOMAIN then d
    else match d.ptpRole n with
    | none => d
    | some 0 =>
      if (d.ptpSt n).best.all (fun b => b.src == a.src || annBetter a b) then d.follow n a else d
    | some _ =>
      let o := d.ownClass
      let own : Announce := ⟨o.1, o.2, d.ptpRd n Reg.PTP_PRIO_PRIORITY1, d.ptpRd n Reg.PTP_PRIO_PRIORITY2,
        0xFFFF, (Config.clockIdentity n).toNat, 0, 0, false, a.dom, (Config.clockIdentity n).toNat⟩
      if annBetter a own then (d.setPtp n (fun x => { x with best := some a, annAt := d.now })).ptpSet n ptpPassive
      else if (d.ptpSt n).best.all (fun b => b.src == a.src) then (d.setPtp n (fun x => { x with best := none })).ptpSet n ptpMaster
      else d)

/-- announceReceiptTimeout intervals in ns (R376, R385). -/
def Dev.annLimit (d : Dev) (n : Nat) : Nat :=
  let k := d.ptpRd n Reg.PTP_CFG_ANN_TO
  let l := signed 4 (d.ptpRd n Reg.PTP_CFG_LOG_ANN)
  if l < 0 then k * 1000000000 / 2 ^ l.natAbs else k * 1000000000 * 2 ^ l.natAbs

/-- ANNOUNCE_RECEIPT_TIMEOUT (R376, R377): a receiver returns to LISTENING, a transmitter becomes MASTER. -/
def execAnnounceReceiptTimeout (n t : Nat) (s : State) : Host.Outcome State Fault Refusal :=
  s.onPtp n (fun d0 =>
    let d := d0.advanceTo t
    if d.now < (d.ptpSt n).annAt + d.annLimit n then d
    else match d.ptpRole n with
    | none => d
    | some 0 => ((d.ptpForget n).ptpSet n ptpListening).syncUtc
    | some _ => (d.setPtp n (fun x => { x with best := none })).ptpSet n ptpMaster)

/-- PTP_SYNC_TX (R376 to R379): t1 from the timebase, in the Sync or in its Follow_Up. -/
def execPtpSyncTx (n raw : Nat) (s : State) : Host.Outcome State Fault Refusal :=
  s.onPtp n (fun d =>
    if d.ptpRole n ≠ some 1 ∨ d.ptpState n ≠ ptpMaster then d
    else
      let q := (d.ptpSt n).seqSync
      let d1 := d.setPtp n (fun x => { x with seqSync := (q + 1) % 65536 })
      let one := d.ptpRd n Reg.PTP_CTRL_ONE_STEP == 1
      match d.txStamp n raw with
      | none => (if one then d1 else d1.emit (.ptp n 0 q [])).tsMiss n
      | some t1 =>
        if one then d1.emit (.ptp n 0 q [t1])
        else (d1.emit (.ptp n 0 q [])).emit (.ptp n 1 q [t1]))

/-- PTP_ANNOUNCE_TX (R377): class and accuracy of the table, variance 0xFFFF, priorities and domain. -/
def execPtpAnnounceTx (n : Nat) (s : State) : Host.Outcome State Fault Refusal :=
  s.onPtp n (fun d =>
    if d.ptpRole n ≠ some 1 ∨ d.ptpState n ≠ ptpMaster then d
    else
      let q := (d.ptpSt n).seqAnn
      let o := d.ownClass
      (d.setPtp n (fun x => { x with seqAnn := (q + 1) % 65536 })).emit
        (.ptp n 4 q [(o.1 : Int), o.2, 0xFFFF, d.ptpRd n Reg.PTP_PRIO_PRIORITY1, d.ptpRd n Reg.PTP_PRIO_PRIORITY2,
          d.ptpRd n Reg.PTP_CFG_DOMAIN]))

/-- PTP_DELAY_REQ_TX (R376, R378, R379): t3 of a time receiver. -/
def execPtpDelayReqTx (n raw : Nat) (s : State) : Host.Outcome State Fault Refusal :=
  s.onPtp n (fun d =>
    if d.ptpRole n ≠ some 0 ∨ d.ptpState n ≠ ptpReceiver then d
    else
      let q := (d.ptpSt n).seqReq
      let d := d.emit (.ptp n 2 q [(d.ptpRd n Reg.PTP_CTRL_DELAY_UNICAST : Nat)])
      match d.txStamp n raw with
      | none => (d.setPtp n (fun x => { x with seqReq := (q + 1) % 65536, t3 := none })).tsMiss n
      | some t3 => d.setPtp n (fun x => { x with seqReq := (q + 1) % 65536, t3 := some (t3, q) }))

/-- PHASE_CORRECTION_END (R380): after 1 s TB_INC is nominal again. -/
def execPhaseCorrectionEnd (t : Nat) (s : State) : Host.Outcome State Fault Refusal :=
  s.onDev (fun d0 =>
    let d := d0.advanceTo t
    match d.phaseEnd with
    | some e => if e ≤ d.now then d.endPhase else d
    | none => d)

/-- A change of PTP_SERVO.MODE (R382): a phase correction in progress stops, and TB_INC returns to nominal. -/
def Dev.servoMode (d : Dev) (v : Nat) : Dev :=
  if d.rd Reg.PTP_SERVO_MODE pPTP = v % 2 then d
  else
    let d := (d.wr Reg.PTP_SERVO_MODE pPTP v).wrPair Reg.TB_INC_LO Reg.TB_INC_HI (blk d.holder ixTIMEBASE) nominalInc
    { d with phaseEnd := none }

/-- SERVO_MODE_WRITE (R382, R385, R398). -/
def execServoModeWrite (w v : Nat) (s : State) : Host.Outcome State Fault Refusal :=
  s.onDev (fun d => d.locked w pPTP (fun d => d.servoMode v))

end Sys2Proof.Machine
end

