-- ==== Sys2Proof/Machine/Rate.lean ====
section
/-! DEFINITION. The instants of a slice (R63 to R67, R87, R139), picture structure (R119, R130 to R136), the rate model, the ledger and the grant (R163 to R178), and the start
of a coding row (R72, R73, R75, R179, R181). -/

namespace Sys2Proof.Machine

/-- 2^(e / 6) in units of 2^-24 (R171). -/
def pow24 (e : Int) : Nat :=
  let b := if e % 6 = 0 then 2 ^ 24 else Config.sixthRoot (e % 6).toNat
  if 0 ≤ e then b * 2 ^ (e / 6).toNat else b / 2 ^ (e / 6).natAbs

/-! ## Instants -/

/-- (a_j / N_raster) × P of R87 for slice `j` of a frame, in 2^-16 ns, rounded up; a bottom field lies half a raster later. -/
def arriveOfs (g : Tbl Nat) (j : Nat) : Nat :=
  let ps := picSlices g
  let jj := j % ps
  let a := if numRend g = 0 then ceilDiv ((jj + 1) * ceilDiv (srcH g) (fields g)) ps else lastLine g 0 jj + 1
  let a2 := 2 * a + (if interlaced g && j / ps == 1 then nRaster g else 0)
  ceilDiv (a2 * (period g).1 * tuSec) (2 * nRaster g * (period g).2)

/-- The nominal arrival of the last line of slice `j` of frame `k` (R87), in 2^-16 ns. -/
def Dev.arriveAt (d : Dev) (c k j : Nat) : Int :=
  let ch := d.chan c
  d.tickAt c k + ((ch.phase.getD 0 * 65536 + arriveOfs ch.cfg j : Nat) : Int)

/-- The departure instant d_j in ns of slice `j` of the picture shown in frame `k` and coded at position `pos` (R63 to R65,
R139). -/
def Dev.departAt (d : Dev) (c k firstK pos j : Nat) : Nat :=
  let g := (d.chan c).cfg
  let lat : Int := ((latTu g (b2n (d.protectedCh c)) : Nat) : Int)
  let x := if ladder g then d.arriveAt c (firstK + pos) 0 + lat + ((tickTu g j : Nat) : Int) else d.arriveAt c k j + lat
  x.toNat / 65536

/-! ## Picture structure -/

/-- The coding order of one GOP after its key picture (R136): display offsets. -/
def dyadic (gp : Nat) : List Nat :=
  if gp = 16 then [16, 8, 4, 2, 1, 3, 6, 5, 7, 12, 10, 9, 11, 14, 13, 15] else [8, 4, 2, 1, 3, 6, 5, 7]

/-- The start of the sequence that frame `k` lies in, and the first frame beyond it. -/
def segOf (x : Rend) (k : Nat) : Nat := (x.segs.filter (· ≤ k)).foldl max x.firstK

/-- The first picture of the next sequence, or the last before a stop (R131, R136). -/
def segEnd (x : Rend) (stop : Option Nat) (k : Nat) : Option Nat :=
  let next := (x.segs.filter (fun s => k < s)).min?
  match next, stop with
  | some a, some b => some (min a b)
  | some a, none => some a
  | none, b => b

/-- The display frame coded at decoding position `pos`, and whether it lies in a GOP whose key picture is never captured
(R79, R119): such frames are coded in display order. -/
def displayOf (g : Tbl Nat) (rd : Nat) (x : Rend) (stop : Option Nat) (pos : Nat) : Nat × Bool :=
  let k := x.firstK + pos
  let s := segOf x k
  if gopMode g rd ≠ 4 ∨ k = s then (k, false)
  else
    let n := (k - s - 1) / gop g
    let whole : Bool := match segEnd x stop k with
      | some e => decide (s + (n + 1) * gop g < e)
      | none => true
    if whole then (s + n * gop g + ((dyadic (gop g))[(k - s - 1) % gop g]?).getD 0, false) else (k, true)

/-- The temporal ID at display offset `o` of a GOP (R136). -/
def tidOf (gp o : Nat) : Nat :=
  if o % gp = 0 then 0 else if o % (gp / 2) = 0 then 1 else if o % (gp / 4) = 0 then 2
  else if o % (gp / 8) = 0 then 3 else 4

/-- The frame from which the intra period or the refresh sweeps count at frame `k` (R132, R133, R135). -/
def irOf (x : Rend) (k : Nat) : Nat := (x.irs.filter (· ≤ k)).foldl max x.firstK

/-- IDR, or CRA where IRAP_CRA asks for it (R132); the first picture of a sequence is IDR (R119, R131). -/
def irapKind (g : Tbl Nat) (rd : Nat) (x : Rend) (k : Nat) : PicKind :=
  if codec g rd ≠ 0 ∧ cfR g rd Reg.RN_GOP_IRAP_CRA = 1 ∧ segOf x k ≠ k then .cra else .idr

/-- Whether the period makes frame `k` an intra random-access picture (R132); `scene` tells at which frames a scene cut restarts it. -/
def irapFrame (g : Tbl Nat) (rd : Nat) (x : Rend) (scene : Nat → Bool) (k : Nat) : Bool :=
  let f := k - irOf x k
  let ip := cfR g rd Reg.RN_GOP_INTRA_PERIOD
  f == 0 || (ip != 0 && f % ip == 0) || scene k

/-- The type of a picture (R119, R130 to R136, R170). In a refresh mode an AVC or HEVC stream that begins with its channel has an IDR picture
first (R131), and one that a MODIFY adds or replaces has its first refresh picture first (R119; log entry 196). The other pictures of a GOP whose key
picture is IDR refer to nothing before it, those before a CRA are RASL (R136). -/
def picType (g : Tbl Nat) (rd : Nat) (x : Rend) (k : Nat) (bottom part : Bool) (scene : Nat → Bool) : PicT :=
  let m := gopMode g rd
  if m = 5 then ⟨.idr, true, 0, false, 0, none⟩
  else if refreshMode m then
    let i := (k - irOf x k) % cfR g rd Reg.RN_GOP_REFRESH_PERIOD
    if bottom = false ∧ codec g rd = 2 ∧ i = 0 then ⟨.gdr, true, 0, false, 0, some i⟩
    else if bottom = false ∧ codec g rd ≠ 2 ∧ k = x.firstK ∧ x.fresh = true then ⟨.idr, true, 0, false, 0, some i⟩
    else ⟨.trail, false, 0, false, 1, some i⟩
  else if m = 4 then
    let o := k - segOf x k
    if part then ⟨.trail, false, 0, false, 1, none⟩
    else if o % gop g = 0 then
      if bottom = false ∧ irapFrame g rd x scene k = true then ⟨irapKind g rd x k, true, 0, false, 0, none⟩
      else ⟨.trail, false, 0, false, 1, none⟩
    else
      let t := tidOf (gop g) o
      let key := k - o % gop g + gop g
      let kind : PicKind := if irapFrame g rd x scene key then
          (if irapKind g rd x key = .cra then .rasl else .radl) else .trail
      ⟨kind, false, t, true, 1 + t, none⟩
  else if bottom = false ∧ irapFrame g rd x scene k = true then ⟨irapKind g rd x k, true, 0, false, 0, none⟩
  else ⟨.trail, false, 0, false, 1, none⟩

/-- Whether column `col` of `w` is coded in intra modes in frame `i` of a sweep of `r` frames (R133), counted from the
sweep's starting edge. -/
def sweepCol (w r i col : Nat) : Bool :=
  if r ≤ w then i * w / r ≤ col && col < (i + 1) * w / r
  else i * w / r == col && (i == 0 || (i - 1) * w / r != i * w / r)

/-- The kind of CTU `n` of a coding row (R170): the number of its θ, its Δ, and whether it is intra. -/
def kindAt (g : Tbl Nat) (rd : Nat) (t : PicT) (n : Nat) : Nat × Int × Bool :=
  let w := ctuCols g rd
  let col := if cfR g rd Reg.RN_GOP_DIR = 1 then w - 1 - n % w else n % w
  let swept : Bool := match t.sweep with
    | some i => sweepCol w (cfR g rd Reg.RN_GOP_REFRESH_PERIOD) i col
    | none => false
  if t.irap then (0, -3, true)
  else if swept then (0, -2, true)
  else if t.isB then (2, 1 + (t.tid : Int), false)
  else (1, 0, false)

/-- The kinds of a row's CTUs, with their class and whether they are swept (R134, R171). -/
def rowKinds (g : Tbl Nat) (rd : Nat) (t : PicT) (row : Nat) : List (Nat × Int × Bool) :=
  (List.range (rowCtus g rd row)).map (kindAt g rd t)

/-! ## The rate model (R170, R171) -/

/-- The register of a class's Θ (R184). -/
def thetaRow (th : Nat) : Row := if th = 0 then Reg.RCS_THETA_I else if th = 1 then Reg.RCS_THETA_P else Reg.RCS_THETA_B

/-- Θ of a class (R184). -/
def Dev.theta (d : Dev) (c rd th : Nat) : Nat := d.rd (thetaRow th) (wRCS c rd)

/-- Complexity gathered by θ and Δ. -/
def gather (ks : List ((Nat × Int × Bool) × Nat)) : List (Nat × Int × Nat) :=
  ((ks.map (fun p => (p.1.1, p.1.2.1))).eraseDups).map (fun kd =>
    (kd.1, kd.2, (ks.filter (fun p => (p.1.1, p.1.2.1) == kd)).foldl (fun a p => a + p.2) 0))

/-- The predicted bits of gathered complexity at slice QP `q`, each kind at q + Δ. -/
def Dev.predBits (d : Dev) (c rd : Nat) (gs : List (Nat × Int × Nat)) (q : Int) : Nat :=
  gs.foldl (fun a x => a + d.theta c rd x.1 * x.2.2 * pow24 (24 - q - x.2.1)) 0 / 2 ^ 48

/-- The bit depth of a rendition (R113). -/
def bitDepth (g : Tbl Nat) (rd : Nat) : Nat := 8 + 2 * cfR g rd Reg.RN_CTRL_DEPTH

/-- QP_MIN and QP_MAX of R175. -/
def qpMin (g : Tbl Nat) (rd : Nat) : Int :=
  max (signed 7 (cfR g rd Reg.RC_QI_QP_MIN)) (-6 * ((bitDepth g rd : Int) - 8))

/-- RC_QI.QP_MAX (R181). -/
def qpMax (g : Tbl Nat) (rd : Nat) : Int := signed 7 (cfR g rd Reg.RC_QI_QP_MAX)

/-- The lowest QP from `lo` to `hi` at which the prediction does not exceed `limit`; `hi` where there is none (R175). -/
def Dev.lowestQp (d : Dev) (c rd : Nat) (gs : List (Nat × Int × Nat)) (lo hi : Int) (limit : Nat) : Int :=
  let qs : List Int := (List.range (hi - lo + 1).toNat).map (fun (i : Nat) => lo + (i : Int))
  (qs.find? (fun q => d.predBits c rd gs q ≤ limit)).getD hi

/-! ## Complexity (R111, R185) -/

/-- The key of a picture's row of complexities. -/
def cplxKey (pic row : Nat) : Nat := pic * 128 + row

/-- The complexity of each CTU of a row, 0 where it is not analysed. -/
def rowCplx (g : Tbl Nat) (rd : Nat) (x : Rend) (pic row : Nat) : List Nat :=
  let l := tget x.cplx (cplxKey pic row) []
  (List.range (rowCtus g rd row)).map (fun n => (l[n]?).getD 0)

/-- The sum of a list. -/
def sumL (l : List Nat) : Nat := l.foldl (· + ·) 0

/-- The complexity of slice `jj` of a picture, where every row of it is analysed. -/
def sliceCplx (g : Tbl Nat) (rd : Nat) (x : Rend) (pic jj : Nat) : Option Nat :=
  let rows := sliceRowList g rd jj
  if rows.all (fun r => (tget? x.cplx (cplxKey pic r)).isSome) then
    some (sumL (rows.map (fun r => sumL (rowCplx g rd x pic r))))
  else none

/-- The complexity of slice `jj`, measured or forecast (R185). -/
def sliceForecast (g : Tbl Nat) (rd : Nat) (x : Rend) (pic mix : Nat) (scene : Bool) (jj : Nat) : Nat :=
  match sliceCplx g rd x pic jj with
  | some v => v
  | none =>
    let rows := (sliceRowList g rd jj).length
    let done := (List.range (codingRows g rd)).filter (fun r => (tget? x.cplx (cplxKey pic r)).isSome)
    let mean := sumL (done.map (fun r => sumL (rowCplx g rd x pic r))) * rows / max 1 done.length
    if scene then mean
    else match (tget? x.kinds mix).bind (fun l => l[jj]?) with
    | some v => v
    | none => mean

/-! ## The ledger (R163 to R167, R173) -/

/-- The denominator of ledger times: a time t stands as t × R_sig × this, so that a bit is worth this much. -/
def ledgerDen (g : Tbl Nat) (rd : Nat) : Nat := 90000 * (period g).2 * unitDiv g rd

/-- R_sig × T_cpb over the common denominator (R166). -/
def tcpbX (g : Tbl Nat) (rd : Nat) : Nat := rSig g rd * nCpb g rd * (period g).2 * unitDiv g rd

/-- R_sig × T_unit over the common denominator (R166). -/
def tunitX (g : Tbl Nat) (rd : Nat) : Nat := rSig g rd * (period g).1 * 90000

/-- The model unit of tick slice `i` (R163). -/
def unitOf (g : Tbl Nat) (rd i : Nat) : Nat := if duUnits g rd then i else i / picSlices g

/-- t_af of a unit from the t_af before it (R166); the first arrival is time 0. -/
def arriveX (g : Tbl Nat) (rd : Nat) (taf : Int) (u bits : Nat) : Int :=
  max taf ((u * tunitX g rd : Nat) : Int) + (bits * ledgerDen g rd : Nat)

/-- The bits a slice counts at: its own once complete, its grant with the non-VCL bits before (R173). -/
def Open.count (o : Open) : Nat := o.bits.getD (o.grant + o.nv)

/-- The bits of all units so far, open ones by what they may still spend (R166). -/
def Rend.total (x : Rend) : Nat := x.eBits + sumL (x.opens.map Open.count)

/-- t_af(u − 1) at a grant: slices that still code count at their grants (R173). -/
def tafBefore (g : Tbl Nat) (rd : Nat) (x : Rend) (u : Nat) : Int :=
  let us := ((x.opens.map (fun o => unitOf g rd o.i)).eraseDups).filter (· < u)
  us.foldl (fun t v => arriveX g rd t v (sumL ((x.opens.filter (fun o => unitOf g rd o.i == v)).map Open.count))) x.taf

/-- F(u) (R166). -/
def roomOf (g : Tbl Nat) (rd : Nat) (x : Rend) (u : Nat) : Nat :=
  let tr : Int := ((tcpbX g rd + u * tunitX g rd : Nat) : Int)
  (min ((tcpbX g rd : Nat) : Int) (tr - tafBefore g rd x u)).toNat / ledgerDen g rd

/-- Folds the oldest unit into t_af and E once each of its slices is complete. -/
def Rend.fold1 (g : Tbl Nat) (rd : Nat) (x : Rend) : Rend :=
  match x.opens with
  | [] => x
  | o :: _ =>
    let u := unitOf g rd o.i
    let mine := x.opens.filter (fun y => unitOf g rd y.i == u)
    let need := if duUnits g rd then 1 else picSlices g
    if mine.length = need ∧ mine.all (fun y => y.bits.isSome) = true then
      let b := sumL (mine.map Open.count)
      { x with taf := arriveX g rd x.taf u b, eBits := x.eBits + b, doneI := (mine.getLast?.map (·.i + 1)).getD x.doneI,
               deep := (mine.getLast?.map (·.deep)).getD x.deep,
               opens := x.opens.filter (fun y => unitOf g rd y.i != u) }
    else x

/-- Every open unit at the front that is complete is settled (R166, R167). -/
def Rend.fold (g : Tbl Nat) (rd : Nat) (x : Rend) : Rend := (List.range x.opens.length).foldl (fun y _ => y.fold1 g rd) x

/-- D of R169 at tick slice `i`. -/
def driftOf (g : Tbl Nat) (rd : Nat) (x : Rend) (i : Nat) : Int :=
  (x.total : Int) - (rSig g rd * i * (period g).1 / ((period g).2 * slices g) : Nat)

/-! ## The grant (R173 to R176) -/

/-- The reserve of a row (R177). -/
def rowReserve (g : Tbl Nat) (rd : Nat) (t : PicT) (row : Nat) : Nat :=
  rowOvhs g rd row * rowOvh (codec g rd)
    + sumL ((rowKinds g rd t row).map (fun k => minCtuBits (codec g rd) k.2.2))

/-- The reserve of slice `jj` over `b` bands. -/
def sliceReserve (g : Tbl Nat) (rd : Nat) (t : PicT) (b jj : Nat) : Nat :=
  sliceNals g rd b jj * sliceOvh (codec g rd) + sumL ((sliceRowList g rd jj).map (rowReserve g rd t))

/-- Shares `rest` bits among rows in proportion to their predicted bits, each at least its reserve, the last of the rows
that share taking the remainder of the rounding (R176). Each entry is row, reserve and prediction. -/
def shareOut : Nat → Nat → List (Nat × Nat × Nat) → List (Nat × Nat)
  | 0, _, rows => rows.map (fun r => (r.1, r.2.1))
  | fuel + 1, rest, rows =>
    let s := sumL (rows.map (fun r => r.2.2))
    let part (r : Nat × Nat × Nat) : Nat := if s = 0 then rest / rows.length else rest * r.2.2 / s
    let low := rows.filter (fun r => part r < r.2.1)
    if low.isEmpty then
      match rows.getLast? with
      | none => []
      | some l =>
        let others := rows.dropLast.map (fun r => (r.1, part r))
        others ++ [(l.1, rest - sumL (others.map (·.2)))]
    else
      low.map (fun r => (r.1, r.2.1))
        ++ shareOut fuel (rest - sumL (low.map (fun r => r.2.1))) (rows.filter (fun r => !(part r < r.2.1)))

/-- The row budgets in the order of the rows. -/
def shareRows (rest : Nat) (rows : List (Nat × Nat × Nat)) : List (Nat × Nat) :=
  let l := shareOut rows.length rest rows
  rows.map (fun r => (r.1, ((l.find? (fun p => p.1 == r.1)).map (·.2)).getD 0))

/-- The tick slice that a rendition's next grant is for. -/
structure Slot4 where
  i : Nat
  pos : Nat
  k : Nat
  j : Nat
  jj : Nat
  bottom : Bool
  pic : Nat
  part : Bool
  deriving DecidableEq, Repr

/-- Tick slice `i` of a rendition. -/
def slot4 (g : Tbl Nat) (rd : Nat) (x : Rend) (stop : Option Nat) (i : Nat) : Slot4 :=
  let j := i % slices g
  let fld := j / picSlices g
  let dd := displayOf g rd x stop (i / slices g)
  ⟨i, i / slices g, dd.1, j, j % picSlices g, interlaced g && fld == 1, (dd.1 - x.firstK) * fields g + fld, dd.2⟩

/-- Whether a scene cut restarts the intra period at frame `k` (R135). -/
def Dev.sceneRestart (d : Dev) (c rd k : Nat) : Bool :=
  let ch := d.chan c
  let g := ch.cfg
  let flag (f : Nat) : Bool := (tget ch.info f FrameInfo.init).scene
  cfR g rd Reg.RN_GOP_SC_IRAP == 1 &&
    (if gopMode g rd = 4 then (List.range (gop g)).any (fun o => o ≤ k && flag (k - o)) else gopMode g rd ≤ 1 && flag k)

/-- The type of the picture of a tick slice. -/
def Dev.typeAt (d : Dev) (c rd : Nat) (x : Rend) (s : Slot4) : PicT :=
  picType (d.chan c).cfg rd x s.k s.bottom s.part (d.sceneRestart c rd)

/-! ## Reference pictures (R130, R134, R136) -/

/-- The number of a picture of the stream in display order: field `fld` of frame `k`. -/
def picNo (g : Tbl Nat) (x : Rend) (k fld : Nat) : Nat := (k - x.firstK) * fields g + fld

/-- The pictures of a frame, the nearest to what follows it first. -/
def picsOf (g : Tbl Nat) (x : Rend) (k : Nat) : List Nat :=
  if interlaced g then [picNo g x k 1, picNo g x k 0] else [picNo g x k 0]

/-- The frames that a frame of a ladder GOP refers to (R136): the nearest earlier one, then the nearest later one, both of lower levels;
nothing before an IDR key picture by the frames that it precedes in display order. -/
def ladderRefs (g : Tbl Nat) (x : Rend) (t : PicT) (k : Nat) (part : Bool) : List Nat × List Nat :=
  let s := segOf x k
  let o := k - s
  let n := gop g
  if part then (((List.range 2).map (fun i => k - 1 - i)).filter (fun y => s ≤ y && y < k), [])
  else if o % n = 0 then (if t.irap || o = 0 then [] else [k - n], [])
  else
    let step := n / 2 ^ t.tid
    let early := if t.kind = .radl ∧ o % n = step then [] else [k - step]
    (early, [k + step])

/-- The pictures in the two reference lists (R130, R136): none of an intra random-access picture; in the sub-frame class the previous two
pictures since the sequence or its last intra random-access picture began, in both lists of a B picture; a bottom field of a
random-access frame refers to its top field. DEDUCED: each list of a ladder B picture holds both its pictures, list 0 the earlier
first (log entry 165). -/
def Dev.refsOf (d : Dev) (c rd : Nat) (x : Rend) (s : Slot4) : List Nat × List Nat :=
  let g := (d.chan c).cfg
  let t := d.typeAt c rd x s
  let m := gopMode g rd
  if t.irap ∨ m = 5 then ([], [])
  else if m = 4 then
    let z := ladderRefs g x (if s.bottom then d.typeAt c rd x { s with bottom := false } else t) s.k s.part
    let early := z.1.flatMap (picsOf g x)
    let late := z.2.flatMap (picsOf g x)
    let own := if s.bottom && (z.1 ++ z.2).isEmpty then [picNo g x s.k 0] else []
    (own ++ early ++ late, if t.isB then late ++ early else [])
  else
    let ir := irOf x s.k
    let ip := cfR g rd Reg.RN_GOP_INTRA_PERIOD
    let from_ := if refreshMode m then segOf x s.k else if ip = 0 then ir else ir + (s.k - ir) / ip * ip
    let l := ((List.range 2).filter (fun i => picNo g x from_ 0 + i < s.pic)).map (fun i => s.pic - 1 - i)
    (l, if m = 1 ∨ m = 3 then l else [])

/-- The reference pictures that the DPB holds while a picture is coded (R114, R136): those coded before it that it or a later picture
refers to. -/
def Dev.dpbOf (d : Dev) (c rd : Nat) (x : Rend) (s : Slot4) : List Nat :=
  let ch := d.chan c
  let g := ch.cfg
  let here := d.refsOf c rd x s
  if gopMode g rd = 4 then
    let at_ (n : Nat) : Slot4 := slot4 g rd x (stopFor ch x) (n * slices g)
    let back := ((List.range (2 * gop g)).filter (fun n => n < s.pos)).map (fun n => (at_ (s.pos - 1 - n)).k)
    let ahead := (List.range (2 * gop g)).map (fun n => at_ (s.pos + n))
    let used := here.1 ++ here.2 ++ ahead.flatMap (fun y => (d.refsOf c rd x y).1 ++ (d.refsOf c rd x y).2)
    ((back.flatMap (picsOf g x)).filter (fun p => used.contains p)).eraseDups
  else here.1

/-- The picture order count of a picture (R134, R158, R271): of its place in output order since its sequence began. -/
def pocOf (g : Tbl Nat) (rd : Nat) (x : Rend) (k fld : Nat) : Int :=
  Config.pocAt (codec g rd) ((k - segOf x k) * fields g + fld)

/-- The picture target of CBR and CVBR (R169), each term rounded down. -/
def Dev.picTarget (d : Dev) (c rd : Nat) (x : Rend) (i cPic cFc : Nat) : Int :=
  let g := (d.chan c).cfg
  let nn := (period g).1
  let dd := (period g).2
  let rn := if cPic * 2 ≤ cFc then 1 else if 2 * cFc ≤ cPic then 2 else cPic
  let rden := if cPic * 2 ≤ cFc then 2 else if 2 * cFc ≤ cPic then 1 else cFc
  let rn := if cPic = 0 ∧ cFc = 0 then 1 else rn
  let rden := if cPic = 0 ∧ cFc = 0 then 1 else rden
  if cfR g rd Reg.RC_CTRL_MODE = 0 then
    let mid2 : Int := ((rSig g rd * nCpb g rd / 90000 : Nat) : Int) - (rSig g rd * nn / (dd * unitDiv g rd) : Nat)
    (rSig g rd * nn * rn / (dd * fields g * rden) : Nat) + floorDiv (mid2 - 2 * driftOf g rd x i) 8
  else
    let a := cfR g rd Reg.RC_VBR_AVG_KBPS * 1000
    let win := cfR g rd Reg.RC_VBR_WIN
    floorDiv (((a * win : Nat) : Int) * (nn : Int) + x.v * (nn : Int)) (win * dd * fields g) * (rn : Int) / (rden : Int)

/-- What a grant fixes: grant, slice QP, target, row budgets, room, drift, and the picture's type. -/
structure Grant where
  g : Nat
  qp : Int
  capped : Bool
  rows : List (Nat × Nat)
  room : Nat
  type : PicT
  deriving DecidableEq, Repr

/-- The grant of a tick slice (R173 to R176); `nv` is the exact size of its non-VCL NAL units. -/
def Dev.grantOf (d : Dev) (c rd : Nat) (x : Rend) (s : Slot4) (nv : Nat) : Grant :=
  let ch := d.chan c
  let g := ch.cfg
  let b := ch.regions.length
  let t := d.typeAt c rd x s
  let u := unitOf g rd s.i
  let room := roomOf g rd x u
  let inUnit := sumL ((x.opens.filter (fun o => unitOf g rd o.i == u && o.i < s.i)).map (fun o => o.grant + o.nv))
  let later := (List.range (picSlices g)).filter (fun y => s.jj < y)
  let after := if duUnits g rd then 0 else sumL (later.map (sliceReserve g rd t b))
  let cap : Int := min ((room : Int) - inUnit - nv - after) ((sliceMax g rd : Int) - nv)
  let scene := (tget ch.info s.k FrameInfo.init).scene
  let fc (y : Nat) : Nat := sliceForecast g rd x s.pic t.mix scene y
  let rows := sliceRowList g rd s.jj
  let rowG (r : Nat) : List (Nat × Int × Nat) := gather ((rowKinds g rd t r).zip (rowCplx g rd x s.pic r))
  let all := gather (rows.flatMap (fun r => (rowKinds g rd t r).zip (rowCplx g rd x s.pic r)))
  let ovh := sliceNals g rd b s.jj * sliceOvh (codec g rd)
  let cq := cfR g rd Reg.RC_CTRL_MODE == 1
  let base := qpBase (cfR g rd Reg.RC_QI_QI)
  let acc := tget x.accs (s.i / picSlices g) (PicAcc.init s.k s.bottom)
  let cPic := sumL ((List.range (picSlices g)).map fc)
  let rem := fc s.jj + sumL (later.map fc)
  let tgt : Int :=
    if cq then ((d.predBits c rd all base + ovh : Nat) : Int)
    else
      let left := d.picTarget c rd x s.i cPic (x.cfc.getD cPic) - (acc.granted : Int)
      if rem = 0 then floorDiv left (later.length + 1) else floorDiv (left * (fc s.jj : Int)) rem
  let res := sliceReserve g rd t b s.jj
  let grant := (max (res : Int) (min tgt cap)).toNat
  let lo := if cq then max (qpMin g rd) base else qpMin g rd
  let qp := d.lowestQp c rd all (min lo (qpMax g rd)) (qpMax g rd) (grant - ovh)
  let shares := shareRows (grant - ovh)
    (rows.map (fun r => (r, rowReserve g rd t r, d.predBits c rd (rowG r) qp)))
  { g := grant, qp := qp, capped := cq && decide ((grant : Int) < tgt), rows := shares, room := room, type := t }

/-! ## A coding row's start (R56, R72, R73, R75, R143, R179, R181) -/

/-- Ladder units of a row: CTUs, or macroblock pairs in AVC (macroblocks of a field row). -/
def rowUnits (g : Tbl Nat) (rd row : Nat) : Nat := if codec g rd = 0 then ctuCols g rd else rowCtus g rd row

/-- Luma samples of one unit. -/
def unitArea (g : Tbl Nat) (rd : Nat) : Nat := ctuSize g rd * rowLines g rd

/-- c5: the L5 bound per unit in cycles at 1.2 GHz, 4,800 luma samples in a µs (R56), withheld from the budgets for every unit still to
come (R74). -/
def c5Of (g : Tbl Nat) (rd : Nat) : Nat := ceilDiv (unitArea g rd) 4

/-- ĉ0_L (R73), rounded down. -/
def c0Of (g : Tbl Nat) (rd l : Nat) : Nat :=
  let f := if l = 0 then 100 else if l = 1 then 60 else if l = 2 then 40 else if l = 3 then 25 else 15
  max (c5Of g rd)
    (f * 1200 * wCodec (codec g rd) * wChroma (cfR g rd Reg.RN_CTRL_CHROMA) * wDepth (cfR g rd Reg.RN_CTRL_DEPTH)
      * wEffort (cfR g rd Reg.RN_CTRL_EFFORT) * unitArea g rd / (650 * 100 * 10 * 100 * 100 * 10))

/-- ĉ_L (R72, R73) over the last 64 rows. -/
def cHat (g : Tbl Nat) (rd : Nat) (x : Rend) (l : Nat) : Nat :=
  let h := tget x.cyc l []
  (sumL h + (64 - h.length) * c0Of g rd l) / 64

/-- The keys of a task by token kind (R223). -/
def keyKind (key : Nat) : Nat := key % 64
/-- The channel of a key (R222). -/
def keyChan (key : Nat) : Nat := bitsOf key 16 7
/-- The generation of a key (R222). -/
def keyGen (key : Nat) : Nat := bitsOf key 24 8
/-- The rendition of a key (R222). -/
def keyRd (key : Nat) : Nat := bitsOf key 32 3
/-- The row of a key (R222). -/
def keyRow (key : Nat) : Nat := bitsOf key 40 8
/-- The frame number of a key (R222). -/
def keyFrame (key : Nat) : Nat := bitsOf key 48 16

/-- The key of a token (R223). -/
def mkKey (kind c gen rd row k : Nat) : Nat :=
  kind % 64 + c % 128 * 2 ^ 16 + gen % 256 * 2 ^ 24 + rd % 8 * 2 ^ 32 + row % 256 * 2 ^ 40 + k % 65536 * 2 ^ 48

/-- The decoding position of frame `k` of a rendition. -/
def posOf (g : Tbl Nat) (rd : Nat) (x : Rend) (stop : Option Nat) (k : Nat) : Nat :=
  let n := k - x.firstK
  if ladder g then (((List.range 32).map (fun e => n + e - 15)).find? (fun p => (displayOf g rd x stop p).1 == k)).getD n else n

/-- The number that FRAME gives frame `k` (R223): k itself, and in the ladder class its number in coding order. -/
def frameNo (g : Tbl Nat) (rd : Nat) (x : Rend) (stop : Option Nat) (k : Nat) : Nat :=
  if ladder g then x.firstK + posOf g rd x stop k else k

/-- The frame number in the tokens of a picture (R222). -/
def Dev.tokFrame (d : Dev) (c rd k : Nat) : Nat := frameNo (d.chan c).cfg rd (d.rend c rd) (stopFor (d.chan c) (d.rend c rd)) k

/-- Whether frame `k` is the one that a key names. -/
def Dev.keyIs (d : Dev) (c rd key k : Nat) : Bool := d.tokFrame c rd k % 65536 == keyFrame key

/-- The region that codes a row of frame `k`: that of its band in a span (R140). -/
def Dev.rowRegion (d : Dev) (c rd k row : Nat) : Nat :=
  let ch := d.chan c
  if d.codeRegion c k = d.lead c then
    ((bandRegions ch.regions)[bandOf ch.cfg rd ch.regions.length row]?).getD (d.lead c)
  else d.codeRegion c k

/-- The key of a coding engine's job. -/
def ceKey (r ce : Nat) : Nat := r * 8 + ce

/-- The deadline of the coding job of a tick slice in ns (R67): the arrival of its last input line plus L_in + L_enc, and for a ladder
picture the fixed departure of the slice less L_out and L_prot; what a standby resumes is due one slice period before its departure
(R280). -/
def Dev.jobDeadline (d : Dev) (c : Nat) (x : Rend) (s : Slot4) : Nat :=
  let g := (d.chan c).cfg
  let due := d.departAt c s.k x.firstK s.pos s.j
  let resumed : Bool := match x.resumeI with
    | some m => decide (m.1 ≤ s.i) && !(m.2.any (· ≤ s.i))
    | none => false
  due - ceilDiv (tickTu g (if resumed then 1 else 1 + b2n (d.protectedCh c))) 65536

/-- The luma lines that the vectors of a row may reach in a reference picture (R142, R143): its band with a halo of 192 lines on each
side, less what the boundary rows that have not arrived hold. -/
def Dev.reachLines (d : Dev) (c rd row : Nat) (late : List Nat) : Nat × Nat :=
  let g := (d.chan c).cfg
  let b := (d.chan c).regions.length
  let mine := (List.range (codingRows g rd)).filter (fun r => bandOf g rd b r == bandOf g rd b row)
  let lo := mine.headD 0 * rowLines g rd
  let hi := min (picH g rd) ((mine.getLastD 0 + 1) * rowLines g rd)
  let from_ := (late.filter (fun r => (r + 1) * rowLines g rd ≤ lo)).foldl (fun a r => max a ((r + 1) * rowLines g rd)) (lo - 192)
  let to_ := (late.filter (fun r => hi ≤ r * rowLines g rd)).foldl (fun a r => min a (r * rowLines g rd)) (min (picH g rd) (hi + 192))
  (from_, to_)

/-- A coding engine starts the row that its task's BUDGET_GRANTED key names (R72, R75): the level is the lowest that fits,
never shallower than the slice stands; halo rows that have not arrived are counted (R143). -/
def Dev.rowStart (d : Dev) (r ce idx gen : Nat) (ds : Desc) (missing : List Nat) : Dev :=
  match ds.keys.find? (fun key => keyKind key == 4) with
  | none => d
  | some key =>
    let c := keyChan key
    let rd := keyRd key
    let row := keyRow key
    let x := d.rend c rd
    let g := (d.chan c).cfg
    match x.opens.find? (fun o => d.keyIs c rd key o.k && o.rows.any (fun y => y.row == row && !y.taken)) with
    | none => d
    | some o =>
      let s := slot4 g rd x (stopFor (d.chan c) x) o.i
      let t := d.typeAt c rd x s
      let budget := ((o.rows.find? (fun y => y.row == row)).map (·.budget)).getD 0
      let cycles := (d.jobDeadline c x s - d.tbNs r) * 6 / 5
      let wait := o.rows.filter (fun y => !y.taken && y.row != row)
      let nAll := rowUnits g rd row + sumL (wait.map (fun y => rowUnits g rd y.row))
      let rem : Int := (cycles : Int) - (nAll * c5Of g rd : Nat)
      let fits (l : Nat) : Bool := decide ((((cHat g rd x l * rowUnits g rd row * 9 : Nat) : Int)) ≤ rem * 8)
      let base := if o.rows.any (·.taken) then o.deep
        else (((x.opens.find? (fun y => y.i + 1 == o.i)).map (·.deep)).getD x.deep) - 1
      let least := match x.minimalTo with
        | some k => decide (o.k ≤ k)
        | none => false
      let level := if least then 5 else ((List.range 5).find? (fun l => decide (base ≤ l) && fits l)).getD 5
      let res := rowReserve g rd t row
      let gs := gather ((rowKinds g rd t row).zip (rowCplx g rd x s.pic row))
      let job : CeJob :=
        { task := idx, gen := gen, c := c, rd := rd, k := o.k, j := o.j, i := o.i, row := row, budget := budget,
          level := level, floor := false, minimal := false, x := 0, cycles := 0,
          allow := if level = 5 then nAll * c5Of g rd else cHat g rd x level * rowUnits g rd row * 9 / 8,
          spent := 0, cDone := 0,
          qrow := d.lowestQp c rd gs (min (qpMin g rd) (qpMax g rd)) (qpMax g rd) (budget - res),
          lines := d.reachLines c rd row ((missing.filter (fun key => keyKind key == 7)).map keyRow) }
      let d := d.setRend c rd (fun x => { x with opens := x.opens.map (fun y =>
        if y.i = o.i then
          { y with deep := max y.deep level,
                   rows := y.rows.map (fun z => if z.row = row then { z with taken := true } else z) }
        else y) })
      let late := missing.any (fun key => keyKind key == 7)
      let d := if late then
          let d := d.inc Reg.RN_STATE_HALO_LATE (wLIVE c rd)
          let lim := 0x3000 + c * 8 + rd
          if d.mayRaise lim then (d.markRaised lim).event (blk (d.lead c) ixRGN) 2 (c * 8 + rd) 0 else d
        else d
      { d with ces := tput d.ces (ceKey r ce) job }

end Sys2Proof.Machine
end

