-- ==== Sys2Proof/Machine/Pixels.lean ====
section
/-! DEFINITION. The sample arithmetic of COMPOSE, the colour chain and the scalers (R99 to R109). -/

namespace Sys2Proof.Machine

/-- 8-bit to 10-bit by bit replication (R99). -/
def expand8 (x : Nat) : Nat := x * 4 + x / 64

/-- One component of R100: layer sample `f` and alpha `a` over `b`. -/
def blend1 (premult : Bool) (f b a : Nat) : Nat :=
  if premult then
    let v := b * (1023 - a) + 512
    min 1023 (f + (v + v / 1024) / 1024)
  else
    let u := f * a + b * (1023 - a) + 512
    (u + u / 1024) / 1024

/-! ## Converters (R103) -/

/-- K_R and K_B in ten-thousandths: 1 BT.709, 2 BT.2020. -/
def lumaK (conv : Nat) : Int × Int := if conv = 1 then (2126, 722) else (2627, 593)

/-- CONV_IN of BT.709 or BT.2020: 10-bit Y′CbCr to 16-bit R′G′B′. -/
def convIn (conv : Nat) (y cb cr : Int) : List Int :=
  let k := lumaK conv
  let kg : Int := 10000 - k.1 - k.2
  let scale : Int := 65535 * 8192
  let pY := roundInt scale 876
  let rCr := roundInt (2 * (10000 - k.1) * scale) (10000 * 896)
  let bCb := roundInt (2 * (10000 - k.2) * scale) (10000 * 896)
  let gCb := roundInt (-2 * k.2 * (10000 - k.2) * scale) (10000 * 896 * kg.toNat)
  let gCr := roundInt (-2 * k.1 * (10000 - k.1) * scale) (10000 * 896 * kg.toNat)
  let out (v : Int) : Int := clampInt 0 65535 (floorDiv (pY * (y - 64) + v + 4096) 8192)
  [out (rCr * (cr - 512)), out (gCb * (cb - 512) + gCr * (cr - 512)), out (bCb * (cb - 512))]

/-- CONV_OUT of BT.709 or BT.2020 to `b`-bit codes; `ofs` scales an offset term. -/
def convOut (conv b : Nat) (ofs : Int → Int) (v : List Int) : List Int :=
  let k := lumaK conv
  let kg : Int := 10000 - k.1 - k.2
  let q (num den : Int) (sc : Nat) : Int := roundInt (num * (sc * 2 ^ b * 2 ^ 24 : Nat)) (den.toNat * 65535 * 1024)
  let r := v.getD 0 0
  let g := v.getD 1 0
  let bl := v.getD 2 0
  let code (o : Int) (x : Int) : Int :=
    clampInt 0 ((2 ^ b : Nat) - 1) (ofs (o * (2 ^ b : Nat) / 1024) + floorDiv (x + 2 ^ 23) (2 ^ 24))
  let cbDen := 2 * (10000 - k.2)
  let crDen := 2 * (10000 - k.1)
  [code 64 (q k.1 10000 876 * r + q kg 10000 876 * g + q k.2 10000 876 * bl),
   code 512 (q (-k.1) cbDen 896 * r + q (-kg) cbDen 896 * g + q (10000 - k.2) cbDen 896 * bl),
   code 512 (q (10000 - k.1) crDen 896 * r + q (-kg) crDen 896 * g + q (-k.2) crDen 896 * bl)]

/-- A 10-bit sample in 16 bits. -/
def widen10 (x : Nat) : Nat := x * 64 + x / 16

/-- An ARGB sample of a layer with CHAIN_EN = 0, its components at 10 bits, in the channel's space (R99): a premultiplied one takes
its offset terms scaled by alpha. -/
def argbConv (premult : Bool) (conv a r g b : Nat) : List Int :=
  let ofs (o : Int) : Int :=
    if premult then
      let u := o * (a : Int) + 512
      (u + u / 1024) / 1024
    else o
  convOut conv 10 ofs ([r, g, b].map (fun x => ((widen10 x : Nat) : Int)))

/-- The same of 8-bit components. -/
def argbIn (premult : Bool) (conv a r g b : Nat) : List Int :=
  argbConv premult conv (expand8 a) (expand8 r) (expand8 g) (expand8 b)

/-! ## Chain sets (R102, R104, R105) -/

/-- 16-bit entry `i` of a table of a set, two per word, the low half first. -/
def Dev.half (d : Dev) (row : Row) (base i : Nat) : Nat := d.rd row base (i / 2) / 65536 ^ (i % 2) % 65536

/-- Stages 1, 3 and 5 (R104). -/
def Dev.lut1 (d : Dev) (row : Row) (base x : Nat) : Nat :=
  let i := x / 16
  let l : Int := (d.half row base i : Nat)
  let next : Int := (d.half row base (min 4095 (i + 1)) : Nat)
  (l + floorDiv ((next - l) * (x % 16 : Nat) + 8) 16).toNat

/-- A node of the 3D table: its three components. -/
def Dev.node3 (d : Dev) (base ir ig ib : Nat) : List Int :=
  let n := (ib * 33 + ig) * 33 + ir
  let w0 := d.rd Reg.LUT3D_RG base n
  [((w0 % 65536 : Nat) : Int), ((w0 / 65536 : Nat) : Int), ((d.rd Reg.LUT3D_B base n : Nat) : Int)]

/-- Stage 4, tetrahedral (R104). -/
def Dev.lut3 (d : Dev) (base r g b : Nat) : List Nat :=
  let f (v : Nat) : Nat := v % 2048
  let comps : List (Nat × Nat) := [(0, f r), (1, f g), (2, f b)]
  let order := sortKey (fun c => 2047 - c.2) comps
  let at_ (s : List Nat) : List Int :=
    let st (c v : Nat) : Nat := v / 2048 + (if s.contains c then 1 else 0)
    d.node3 base (st 0 r) (st 1 g) (st 2 b)
  let steps := (List.range 4).map (fun n => at_ ((order.take n).map (·.1)))
  (List.range 3).map (fun comp =>
    let nodeAt (n : Nat) : Int := (steps.getD n []).getD comp 0
    let s := (List.range 3).foldl (fun acc n =>
      acc + ((order.getD n (0, 0)).2 : Int) * (nodeAt (n + 1) - nodeAt n)) (0 : Int)
    (clampInt 0 65535 (nodeAt 0 + floorDiv (s + 1024) 2048)).toNat)

/-- A 10-bit triple through chain set `set` of region `r` to `bits`-bit codes (R102). -/
def Dev.chainRun (d : Dev) (r set x0 x1 x2 bits : Nat) : List Int :=
  let b := wCHAIN r set
  let cin := d.rd Reg.LS_CTRL_CONV_IN b
  let xs := [x0, x1, x2]
  let v : List Nat :=
    if cin = 0 then xs.map widen10 else (convIn cin x0 x1 x2).map Int.toNat
  let tri (l : List Nat) (i : Nat) : Nat := l.getD i 0
  let v := if d.rd Reg.LS_CTRL_IN_EN b = 1 then
      [d.lut1 Reg.IN_LUT_R b (tri v 0), d.lut1 Reg.IN_LUT_G b (tri v 1), d.lut1 Reg.IN_LUT_B b (tri v 2)] else v
  let v := if d.rd Reg.LS_CTRL_MTX_EN b = 1 then
      (List.range 3).map (fun c =>
        let o := d.rdI (if c = 0 then Reg.LS_OFS_R else if c = 1 then Reg.LS_OFS_G else Reg.LS_OFS_B) b
        let s := (List.range 3).foldl (fun (acc : Int) k =>
          let m := if c * 3 + k = 8 then d.rd Reg.LS_MTX_BB b else d.half Reg.LS_MTX b (c * 3 + k)
          acc + signed 16 m * (tri v k : Nat)) 0
        (clampInt 0 65535 (o + floorDiv (s + 4096) 8192)).toNat) else v
  let dom := d.rd Reg.LS_CTRL_TONE_DOMAIN b
  let v := if dom = 1 ∨ dom = 2 then
      let x := if dom = 1 then max (tri v 0) (max (tri v 1) (tri v 2))
        else (d.half Reg.LS_LWT b 0 * tri v 0 + d.half Reg.LS_LWT b 1 * tri v 1 + d.rd Reg.LS_LWT_B b * tri v 2 + 16384) / 32768
      let gain := d.lut1 Reg.TONE_LUT b (min 65535 x)
      v.map (fun y => min 65535 ((y * gain + 2048) / 4096)) else v
  let v := if d.rd Reg.LS_CTRL_LUT3D_EN b = 1 then d.lut3 b (tri v 0) (tri v 1) (tri v 2) else v
  let v := if d.rd Reg.LS_CTRL_OUT_EN b = 1 then
      [d.lut1 Reg.OUT_LUT_R b (tri v 0), d.lut1 Reg.OUT_LUT_G b (tri v 1), d.lut1 Reg.OUT_LUT_B b (tri v 2)] else v
  let cout := d.rd Reg.LS_CTRL_CONV_OUT b
  if cout = 0 then v.map (fun y => ((min (2 ^ bits - 1) ((y + 2 ^ (15 - bits)) / 2 ^ (16 - bits)) : Nat) : Int))
  else convOut cout bits (fun o => o) (v.map Int.ofNat)

/-! ## Chroma and scalers (R107 to R109) -/

/-- A sample of a line, the edge repeated. -/
def edge (l : List Nat) (i : Int) : Nat := l.getD (clampInt 0 ((l.length : Int) - 1) i).toNat 0

/-- The filters of R107 over one line or column. -/
def chromaRun (kind : Nat) (l : List Nat) : List Nat :=
  if kind = 0 then
    (List.range (2 * l.length)).map (fun x =>
      if x % 2 = 0 then edge l (x / 2 : Nat) else (edge l (x / 2 : Nat) + edge l (x / 2 + 1 : Nat) + 1) / 2)
  else if kind = 2 then
    (List.range (ceilDiv l.length 2)).map (fun (m : Nat) => (edge l (2 * m : Nat) + edge l (2 * m + 1 : Nat) + 1) / 2)
  else
    (List.range (ceilDiv l.length 2)).map (fun (m : Nat) =>
      (edge l (2 * (m : Int) - 1) + 2 * edge l (2 * m : Nat) + edge l (2 * m + 1 : Nat) + 2) / 4)

/-- The prefilter of R109. -/
def prefilterRun (dd : Nat) (l : List Nat) : List Nat :=
  if dd ≤ 1 then l
  else (List.range (ceilDiv l.length dd)).map (fun (n : Nat) =>
    (sumL ((List.range dd).map (fun (i : Nat) => edge l (n * dd + i : Nat))) + dd / 2) / dd)

/-- The coefficients of one phase of a stage: S2.8 values of the built-in set, the last of which completes their sum to 256 (R108). -/
def coefRow (vertical : Bool) (nIn nOut phase : Nat) : List Int :=
  let l := (List.range (if vertical then 5 else 7)).map (fun t => clampInt (-512) 511 (Config.scaleTap vertical nIn nOut phase t))
  l ++ [256 - l.foldl (· + ·) 0]

/-- One stage of a scaler (R108, R109): 6 taps vertically, 8 horizontally. Behind the prefilter it scales by ratio / D. -/
def scaleRun (vertical : Bool) (nOut : Nat) (line : List Nat) : List Nat :=
  let dd := prefilter line.length nOut
  let l := prefilterRun dd line
  let step : Nat := if nOut = 0 then 0 else (line.length * 65536 + dd * nOut / 2) / (dd * nOut)
  let first : Int := if vertical then -2 else -3
  let taps := if vertical then 6 else 8
  (List.range nOut).map (fun (k : Nat) =>
    let pos : Int := floorDiv ((step : Int) - 65536) 2 + (k * step : Nat)
    let c := floorDiv pos 65536
    let phase := (pos % 65536 / 1024).toNat
    let row := coefRow vertical line.length nOut phase
    let s := (List.range taps).foldl (fun (acc : Int) (n : Nat) =>
      acc + row.getD n 0 * (edge l (c + first + (n : Int)) : Nat)) 0
    (if vertical then clampInt 0 4095 (floorDiv (s + 32) 64) else clampInt 0 1023 (floorDiv (s + 512) 1024)).toNat)

end Sys2Proof.Machine
end

