-- ==== Sys2Proof/Machine/Pictures.lean ====
section
/-! DEFINITION. Whole pictures: a quad-link frame rebuilt (R90), layers made ready (R99), the composed picture (R94, R100, R101), the
pictures of renditions (R102, R107, R108), and the jobs of COMPOSE and the scalers. -/

namespace Sys2Proof.Machine

/-- A picture without samples. -/
def noPic : Planes := ⟨[], [], []⟩

/-- A sample of a plane, the edge repeated. -/
def planeAt (p : List (List Nat)) (x y : Int) : Nat := edge (p.getD (clampInt 0 ((p.length : Int) - 1) y).toNat []) x

/-- A plane of `w` × `h` samples by column and row. -/
def planeOf (w h : Nat) (f : Nat → Nat → Nat) : List (List Nat) :=
  (List.range h).map (fun y => (List.range w).map (fun x => f x y))

/-- The width of a plane. -/
def planeW (p : List (List Nat)) : Nat := (p.headD []).length

/-- The same change of every plane. -/
def mapPlanes (p : Planes) (f : List (List Nat) → List (List Nat)) : Planes := ⟨f p.y, f p.cb, f p.cr⟩

/-- The rows of a field: 0 the top field, whose first row is row 0 of the frame (R94). -/
def fieldRows (fld : Nat) (p : List (List Nat)) : List (List Nat) :=
  ((List.range p.length).filter (fun y => y % 2 == fld)).map (fun y => p.getD y [])

/-! ## A quad-link frame with one link lost (R90) -/

/-- Rebuilds the sub-image of link `m` (from 0) in a plane with `per` samples of a component in a sample pair. -/
def rebuildPlane (m per : Nat) (p : List (List Nat)) : List (List Nat) :=
  let h := p.length
  let w := planeW p
  planeOf w h (fun x y =>
    let at_ (x y : Nat) : Nat := (p.getD y []).getD x 0
    if y % 2 = m / 2 ∧ x / per % 2 = m % 2 then
      let l := if per ≤ x then x - per else x + per
      let r := if x + per < w then x + per else x - per
      let u := if 1 ≤ y then y - 1 else y + 1
      let b := if y + 1 < h then y + 1 else y - 1
      let hh := (at_ l y + at_ r y + 1) / 2
      let v := (at_ x u + at_ x b + 1) / 2
      (hh + v + 1) / 2
    else at_ x y)

/-- The same of a picture: a pair holds two luma samples, and one of each chroma in 4:2:2. -/
def rebuildPic (samp m : Nat) (p : Planes) : Planes :=
  let k := if samp = 1 then 2 else 1
  ⟨rebuildPlane m 2 p.y, rebuildPlane m k p.cb, rebuildPlane m k p.cr⟩

/-- The samples of a source frame as they go into memory: the sub-image of the only lost link of a quad-link source is rebuilt. -/
def Dev.rebuilt (d : Dev) (c : Nat) (p : Planes) : Planes :=
  match [1, 2, 4, 8].findIdx? (· == (d.chan c).quadSeen) with
  | some m => rebuildPic (d.samp c) m p
  | none => p

/-- The samples of the main video of frame `k`, its source frame decided or only assigned. -/
def Dev.srcPic (d : Dev) (c k : Nat) : Planes :=
  match (d.chan c).srcs.find? (fun y => y.1 == k) with
  | some y => d.rebuilt c y.2.pic
  | none => (tget (d.chan c).info k FrameInfo.init).pic

/-! ## Scaling and sampling -/

/-- A plane through a scaler: the vertical stage first, then the horizontal one (R108). -/
def scalePlane (wOut hOut : Nat) (p : List (List Nat)) : List (List Nat) :=
  let cols := (List.range (planeW p)).map (fun x => scaleRun true hOut (p.map (fun row => row.getD x 0)))
  (List.range hOut).map (fun y => scaleRun false wOut (cols.map (fun col => col.getD y 0)))

/-- A picture of sampling `samp` through a scaler where its size differs; in 4:2:2 chroma on its half-width grid (R108). -/
def scalePic (samp wOut hOut : Nat) (p : Planes) : Planes :=
  if planeW p.y = wOut ∧ p.y.length = hOut then p
  else
    let wc := if samp = 1 then wOut else ceilDiv wOut 2
    ⟨scalePlane wOut hOut p.y, scalePlane wc hOut p.cb, scalePlane wc hOut p.cr⟩

/-- A picture at 4:4:4 (R107). -/
def to444 (samp : Nat) (p : Planes) : Planes :=
  if samp = 1 then p else { p with cb := p.cb.map (chromaRun 0), cr := p.cr.map (chromaRun 0) }

/-- One filter of R107 down the columns of a plane. -/
def chromaCols (kind : Nat) (p : List (List Nat)) : List (List Nat) :=
  let cols := (List.range (planeW p)).map (fun x => chromaRun kind (p.map (fun row => row.getD x 0)))
  (List.range (ceilDiv p.length 2)).map (fun y => cols.map (fun col => col.getD y 0))

/-- A change of three components at once, at every place of a 4:4:4 picture. -/
def mapTriple (p : Planes) (f : Nat → Nat → Nat → List Nat) : Planes :=
  let one (i : Nat) : List (List Nat) := planeOf (planeW p.y) p.y.length (fun x y =>
    (f (planeAt p.y x y) (planeAt p.cb x y) (planeAt p.cr x y)).getD i 0)
  ⟨one 0, one 1, one 2⟩

/-! ## Layers made ready (R99) -/

/-- The converter of a channel's colour space: 1 BT.709, 2 BT.2020. -/
def convOf (g : Tbl Nat) : Nat := if cf g Reg.SRC_RATE_COLOUR = 0 then 1 else 2

/-- Component `i` (3 alpha) of a stored graphics pixel at 10 bits. -/
def gfxPart (fmt : Nat) (bytes : List Byte) (at_ i : Nat) : Nat :=
  if fmt = 1 then expand8 (bytes.getD (at_ + Config.argbByte i % 4) 0).toNat
  else Config.ycbcraPart ((List.range 8).foldl (fun a n => a + (bytes.getD (at_ + n) 0).toNat * 256 ^ n) 0) i % 1024

/-- A layer in the composed picture: its place and size, whether its alpha is premultiplied, its 4:4:4 samples, and alpha. -/
structure Placed where
  x : Nat
  y : Nat
  w : Nat
  h : Nat
  premult : Bool
  pic : Planes
  a : List (List Nat)
  deriving DecidableEq, Repr

/-- Layer `l`, above 0, as it enters composition. DEDUCED: a layer is scaled in its stored components, at 10 bits and with its alpha, before
it is converted (log entry 162). -/
def Dev.placed (d : Dev) (r c l : Nat) (gfx : List Byte) : Placed :=
  let v (row : Row) : Nat := d.actL c l row
  let g := (d.chan c).cfg
  let w := v Reg.LY_DST_SIZE_WIDTH
  let h := v Reg.LY_DST_SIZE_HEIGHT
  let sw := v Reg.LY_SRC_SIZE_WIDTH
  let sh := v Reg.LY_SRC_SIZE_HEIGHT
  let fmt := v Reg.LY_CTRL_FORMAT
  let premult := v Reg.LY_CTRL_PREMULT == 1
  let chain := v Reg.LY_CTRL_CHAIN_EN == 1
  let chained (p : Planes) : Planes :=
    mapTriple p (fun a b e => (d.chainRun r (v Reg.LY_CTRL_LUT_SET) a b e 10).map Int.toNat)
  let z : Planes × List (List Nat) :=
    if v Reg.LY_CTRL_KIND = 3 then
      let gs := (d.chan (v Reg.LY_SRC_SRC_CH)).cfg
      let samp := cf gs Reg.SRC_RATE_SAMPLING
      let cw := if samp = 1 then sw else ceilDiv sw 2
      let s := (d.lay c l).pic
      let s : Planes := ⟨(s.y.take sh).map (List.take sw), (s.cb.take sh).map (List.take cw), (s.cr.take sh).map (List.take cw)⟩
      let s := if cf gs Reg.SRC_RATE_DEPTH = 1 then mapPlanes s (List.map (List.map Config.narrow12)) else s
      let p := to444 samp (scalePic samp w h s)
      (if chain then chained p else p, planeOf w h (fun _ _ => 1023))
    else
      let part (i : Nat) : List (List Nat) :=
        let q := planeOf sw sh (fun x y => gfxPart fmt gfx (y * v Reg.LY_STRIDE_BYTES + x * lyBpp fmt) i)
        if sw = w ∧ sh = h then q else scalePlane w h q
      let p : Planes := ⟨part 0, part 1, part 2⟩
      let a := part 3
      (if chain then chained p
        else if fmt = 1 then
          let at_ (x y i : Nat) : Nat := ((argbConv premult (convOf g) (planeAt a x y) (planeAt p.y x y) (planeAt p.cb x y)
            (planeAt p.cr x y)).getD i 0).toNat
          ⟨planeOf w h (fun x y => at_ x y 0), planeOf w h (fun x y => at_ x y 1), planeOf w h (fun x y => at_ x y 2)⟩
        else p, a)
  ⟨v Reg.LY_DST_POS_X, v Reg.LY_DST_POS_Y, w, h, premult, z.1, z.2⟩

/-- The slot of a graphics layer that composition reads: a static layer always reads slot 0 (R93). -/
def Dev.gfxSlot (d : Dev) (c l : Nat) : Nat := if d.actL c l Reg.LY_CTRL_KIND = 1 then 0 else (d.lay c l).inUse.getD 0

/-- The address of the buffer that a graphics layer reads, and its size in bytes (R92, R93). -/
def Dev.gfxAt (d : Dev) (c l : Nat) : Nat × Nat :=
  let size := d.actL c l Reg.LY_STRIDE_BYTES * d.actL c l Reg.LY_SRC_SIZE_HEIGHT
  (d.actL c l Reg.LY_BASE_LO + d.actL c l Reg.LY_BASE_HI * 2 ^ 32 + d.gfxSlot c l * size, size)

/-! ## Composition (R94, R100, R101) -/

/-- The layers above 0 that are present in frame `k`, in ascending order. -/
def Dev.present (d : Dev) (r c k : Nat) (gfx : Tbl (List Byte)) : List Placed :=
  let st := (tget (d.chan c).info k FrameInfo.init).layers
  ((List.range 7).filter (fun i => st.getD i 0 == 1 || st.getD i 0 == 2)).map (fun i => d.placed r c (i + 1) (tget gfx (i + 1) []))

/-- Whether a layer covers a place of the composed picture; outside its destination rectangle it leaves pixels unchanged (R100). -/
def Placed.covers (p : Placed) (x y : Nat) : Bool := p.x ≤ x && x < p.x + p.w && p.y ≤ y && y < p.y + p.h

/-- The alpha of a placed layer at a place of the picture (R100). -/
def Placed.alpha (p : Placed) (x y : Nat) : Nat := planeAt p.a (x - p.x : Nat) (y - p.y : Nat)

/-- A component of the composed picture at a place, over the background sample `b`; `deep` for a 12-bit channel. -/
def blendOver (ls : List Placed) (deep : Bool) (comp : Planes → List (List Nat)) (b x y : Nat) : Nat :=
  let here := ls.filter (fun p => p.covers x y)
  if here.isEmpty then b
  else
    let v := here.foldl (fun b p => blend1 p.premult (planeAt (comp p.pic) (x - p.x : Nat) (y - p.y : Nat)) b (p.alpha x y))
      (if deep then Config.narrow12 b else b)
    if deep then Config.widen12 v else v

/-- A chroma row of the composed picture at the source's sampling: where no layer with non-zero alpha covers a sample that the
filter reads, the source chroma is kept (R101). `base` is layer 0's row, `w` the luma width. -/
def chromaRow (samp w y : Nat) (ls : List Placed) (deep : Bool) (comp : Planes → List (List Nat)) (base : List Nat) : List Nat :=
  let row (x : Nat) (b : Nat) : Nat := blendOver ls deep comp b x y
  if samp = 1 then (List.range w).map (fun x => row x (base.getD x 0))
  else
    let wide := chromaRun 0 base
    let full := (List.range w).map (fun x => row x (wide.getD x 0))
    let back := chromaRun 1 full
    (List.range base.length).map (fun k =>
      let read := [2 * k - 1, 2 * k, min (w - 1) (2 * k + 1)]
      if read.any (fun x => ls.any (fun p => p.covers x y && p.alpha x y != 0)) then back.getD k 0 else base.getD k 0)

/-- Layer 0 of frame `k`: its source frame, or CMP_BG where R98 leaves it out. -/
def Dev.layer0 (d : Dev) (c k : Nat) : Planes :=
  let g := (d.chan c).cfg
  let fi := tget (d.chan c).info k FrameInfo.init
  if fi.main = 3 then
    let deep (v : Nat) : Nat := if cf g Reg.SRC_RATE_DEPTH = 1 then Config.widen12 v else v
    let bg (row : Row) : Nat := deep (d.rd row (wCMP c))
    let wc := if cf g Reg.SRC_RATE_SAMPLING = 1 then srcW g else srcW g / 2
    ⟨planeOf (srcW g) (srcH g) (fun _ _ => bg Reg.CMP_BG_Y), planeOf wc (srcH g) (fun _ _ => bg Reg.CMP_BG_CB),
     planeOf wc (srcH g) (fun _ _ => bg Reg.CMP_BG_CR)⟩
  else fi.pic

/-- The composed picture of frame `k`, in the source's size and sampling; of a 1080i channel the rows of field `fld` are new. -/
def Dev.composePic (d : Dev) (r c k fld : Nat) (gfx : Tbl (List Byte)) : Planes :=
  let g := (d.chan c).cfg
  let ls := d.present r c k gfx
  let base := d.layer0 c k
  let fi := tget (d.chan c).info k FrameInfo.init
  let old := if fi.comp = noPic then base else fi.comp
  let deep := cf g Reg.SRC_RATE_DEPTH == 1
  let w := planeW base.y
  let samp := cf g Reg.SRC_RATE_SAMPLING
  let mine (y : Nat) : Bool := !(interlaced g) || y % 2 == fld
  let rows (f : Planes → List (List Nat)) (new : Nat → List Nat) : List (List Nat) :=
    (List.range (f base).length).map (fun y => if mine y then new y else (f old).getD y [])
  ⟨rows (·.y) (fun y => (List.range w).map (fun x => blendOver ls deep (·.y) ((base.y.getD y []).getD x 0) x y)),
   rows (·.cb) (fun y => chromaRow samp w y ls deep (·.cb) (base.cb.getD y [])),
   rows (·.cr) (fun y => chromaRow samp w y ls deep (·.cr) (base.cr.getD y []))⟩

/-! ## Rendition pictures (R102, R107, R108) -/

/-- The chroma location of a rendition's 4:2:0 picture: the filter of type 0 for BT.709, of type 2 for the other colours (R107). -/
def chromaKind (g : Tbl Nat) (rd : Nat) : Nat := if cfR g rd Reg.RN_CTRL_COLOUR = 0 then 2 else 3

/-- A 4:4:4 or 4:2:2 picture in a rendition's chroma format. -/
def toFormat (g : Tbl Nat) (rd samp : Nat) (p : Planes) : Planes :=
  let f := cfR g rd Reg.RN_CTRL_CHROMA
  if f = 2 then to444 samp p
  else
    let half := if samp = 1 then { p with cb := p.cb.map (chromaRun 1), cr := p.cr.map (chromaRun 1) } else p
    if f = 1 then half else { half with cb := chromaCols (chromaKind g rd) half.cb, cr := chromaCols (chromaKind g rd) half.cr }

/-- The picture of a rendition, of field `fld` in a 1080i channel: scaled, through its colour chain, in its depth and chroma format. -/
def Dev.rendPic (d : Dev) (r c rd k fld : Nat) : Planes :=
  let g := (d.chan c).cfg
  let samp := cf g Reg.SRC_RATE_SAMPLING
  let comp := (tget (d.chan c).info k FrameInfo.init).comp
  let p := if interlaced g then mapPlanes comp (fieldRows fld) else comp
  let p := scalePic samp (rdW g rd) (if interlaced g then rdH g rd / 2 else rdH g rd) p
  let b := bitDepth g rd
  let sb := if cf g Reg.SRC_RATE_DEPTH = 1 then 12 else 10
  if cfR g rd Reg.RN_CTRL_CHAIN_EN = 1 then
    let p := if sb = 12 then mapPlanes p (List.map (List.map Config.narrow12)) else p
    toFormat g rd 1 (mapTriple (to444 samp p) (fun x y z =>
      (d.chainRun r (cfR g rd Reg.RN_CTRL_LUT_SET) x y z b).map Int.toNat))
  else toFormat g rd samp (if b = sb then p else mapPlanes p (List.map (List.map (Config.redepth sb b))))

/-! ## The jobs of COMPOSE and the scalers -/

/-- All samples of a picture. -/
def flatPic (p : Planes) : List Nat := (p.y ++ p.cb ++ p.cr).flatten

/-- The samples a job makes in region `r`. -/
def Dev.pixels (d : Dev) (r : Nat) (j : Job) : List Int :=
  let nat (l : List Nat) : List Int := l.map Int.ofNat
  match j.data with
  | .none => []
  | .blend p f b a => nat [blend1 p f b a]
  | .argb p conv a x g b => argbIn p conv a x g b
  | .chain set x0 x1 x2 bits => d.chainRun r set x0 x1 x2 bits
  | .chroma kind line => nat (chromaRun kind line)
  | .scale v n line => nat (scaleRun v n line)
  | .compose c k fld => nat (flatPic (d.composePic r c k fld j.gfx))
  | .rendition c rd k fld => nat (flatPic (d.rendPic r c rd k fld))
  | .decode _ => []

/-- What a job leaves: its samples, and a composed picture in memory. -/
def Dev.runJob (d : Dev) (r inst : Nat) (j : Job) : Dev :=
  let px := d.pixels r j
  let d := match j.data with
    | .compose c k fld => d.setInfo c k (fun x => { x with comp := d.composePic r c k fld j.gfx })
    | _ => d
  if px.isEmpty then d else d.emit (.samples r inst px)

/-- A job with the graphics buffers that it reads, as region memory holds them. DESIGN CHOICE: they are read when the core asks for work
(log entry 163). -/
def State.loadJob (s : State) (r : Nat) (j : JobData) : Job :=
  match j with
  | .compose c _ _ => ⟨j, ((List.range 7).filter (fun i =>
      s.dev.actL c (i + 1) Reg.LY_CTRL_KIND == 1 || s.dev.actL c (i + 1) Reg.LY_CTRL_KIND == 2)).map (fun i =>
      (i + 1, s.memGet r (s.dev.gfxAt c (i + 1)).1 (s.dev.gfxAt c (i + 1)).2))⟩
  | _ => ⟨j, []⟩

end Sys2Proof.Machine
end

