-- ==== Sys2Proof/Machine/Rachis.lean ====
section
/-! DEFINITION. Rachis (R219 to R240): posts, tokens, ready and delay lists, dispatch, completions, fences (R16 to R18),
back-pressure and modes. -/

namespace Sys2Proof.Machine

/-! ## Descriptors (R220, R223) -/

/-- COUNT and the reserved bits of a key (R223). -/
def keyJunk (key : Nat) : Bool :=
  bitsOf key 6 10 != 0 || bitsOf key 23 1 != 0 || bitsOf key 35 5 != 0

/-- A token's key: bits 63:0 with COUNT and the reserved bits read as 0 (R223). -/
def keyOf (tok : Nat) : Nat :=
  mkKey (tok % 64) (bitsOf tok 16 7) (bitsOf tok 24 8) (bitsOf tok 32 3) (bitsOf tok 40 8) (bitsOf tok 48 16)

/-- The instances of a class (R220). -/
def classSize (cls : Nat) : Nat := if cls = 0 then 8 else if cls = 1 ∨ cls = 3 then 2 else if cls = 5 ∨ cls = 7 then 4 else 1

/-- The rules of R220 on the fields of a descriptor. -/
def Desc.good (ds : Desc) : Bool :=
  ds.nslot ≤ 4 && ds.opt < 2 ^ ds.nslot && ds.aff != 0 && ds.aff < 2 ^ classSize ds.cls && ds.cost != 0 && ds.cost < 65536
    && !(ds.noch && (ds.chan != 0 || ds.gen != 0 || ds.rd != 0)) && !(ds.keys.any keyJunk)

/-- A descriptor from its sixteen 32-bit words; none where it breaks a rule of R220. -/
def parseDesc (ws : List Nat) : Option Desc :=
  let w (i : Nat) : Nat := ws.getD i 0
  let w0 := w 0
  let w1 := w 1
  let ns := bitsOf w0 16 3
  let keys := (List.range ns).map (fun i => w (8 + 2 * i) + w (9 + 2 * i) * 2 ^ 32)
  let ds : Desc :=
    { cls := w0 % 8, aff := bitsOf w0 8 8, nslot := ns, opt := bitsOf w0 20 4, chan := bitsOf w0 24 7,
      noch := bitOf w0 31, gen := w1 % 256, rd := bitsOf w1 8 3, cost := bitsOf w1 16 16, deadline := w 2 + w 3 * 2 ^ 32,
      wake := w 4 + w 5 * 2 ^ 32, ctx := w 6 + w 7 * 2 ^ 32, keys := keys }
  if bitsOf w0 3 5 == 0 && bitsOf w0 19 1 == 0 && bitsOf w1 11 5 == 0 && ds.good then some ds else none

/-- Word 0 of a descriptor (R220, R229). -/
def Desc.word0 (ds : Desc) : Nat :=
  ds.cls + ds.aff * 2 ^ 8 + ds.nslot * 2 ^ 16 + ds.opt * 2 ^ 20 + ds.chan * 2 ^ 24 + b2n ds.noch * 2 ^ 31 + ds.gen * 2 ^ 32
    + ds.rd * 2 ^ 40 + ds.cost * 2 ^ 48

/-- Whether `gen` is the current generation of channel `c` (R220, R226, R238): a channel in QUARANTINE, or FREE after a
use, has none. -/
def Dev.genCurrent (d : Dev) (c gen : Nat) : Bool :=
  gen == d.chGen c && (d.live c || (d.chState c == 0 && gen == 0))

/-! ## The store (R219, R221, R235) -/

/-- The lowest of the `n` indexes from `k` on that the table does not list. -/
def lowestFrom (ents : Tbl Entry) : Nat → Nat → Option Nat
  | 0, _ => none
  | n + 1, k => if (tget? ents k).isNone then some k else lowestFrom ents n (k + 1)

/-- The lowest index of 4,096 that the table does not list. -/
def lowestFree (ents : Tbl Entry) : Option Nat := lowestFrom ents 4096 0

/-- The free entries of a descriptor store (R220). -/
def Rachis.freeN (x : Rachis) : Nat := 4096 - x.ents.length

/-- Whether class or kind of a request is a firmware one (R234, R235). -/
def fwClass (cls : Nat) : Bool := cls == 5 || cls == 7

/-- RA_CFG.FREE_LOW (R235). -/
def Dev.freeLow (d : Dev) (r : Nat) : Nat := d.rd Reg.RA_CFG_FREE_LOW (blk r ixRACHIS)

/-- Whether a post stalls (R235). -/
def Dev.postStalls (d : Dev) (r : Nat) (ds : Desc) : Bool :=
  let f := (d.rach r).freeN
  f == 0 || (f ≤ d.freeLow r && fwClass ds.cls && decide (d.tbNs r + 1000000 < ds.deadline))

/-- Whether a token that would park stalls (R235). -/
def Dev.parkStalls (d : Dev) (r key : Nat) : Bool :=
  let f := (d.rach r).freeN
  f == 0 || (f ≤ d.freeLow r && 0x20 ≤ keyKind key)

/-- A stall is counted, with its event (R234). -/
def Dev.stallCount (d : Dev) (r : Nat) (fw : Bool) : Dev :=
  let b := blk r ixRACHIS
  let d := d.inc (if fw then Reg.RA_CNT_BP_FW else Reg.RA_CNT_BP_MEDIA) b
  let key := 0x600 + r
  if d.mayRaise key then (d.markRaised key).event b 0 0 (d.rd Reg.RA_BP_MAX_US b) else d

/-! ## Affinity (R228, R231) -/

/-- The block of an instance of a class (R25). -/
def classBlock (cls inst : Nat) : Nat :=
  if cls = 0 then ixCE + inst else if cls = 1 then ixDE + inst else if cls = 2 then ixCOMPOSE
  else if cls = 3 then ixSCALER + inst else if cls = 4 then ixEGRESS else if cls = 6 then ixMIRROR else ixCTL + inst

/-- The affinity left when fenced, disabled and resetting instances are taken out; every instance in service where none
is left (R231). -/
def Dev.effAff (d : Dev) (r cls aff : Nat) : Nat :=
  let up (i : Nat) : Bool := !(d.outOf r (classBlock cls i))
  let sum (p : Nat → Bool) : Nat := (List.range (classSize cls)).foldl (fun a i => a + b2n (p i) * 2 ^ i) 0
  let e := sum (fun i => bitOf aff i && up i)
  if e = 0 then sum up else e

/-- Whether instance `inst` of a class holds a task; control cores run CTLCORE and SPARE tasks. -/
def Dev.busyInst (d : Dev) (r cls inst : Nat) : Bool :=
  (d.rach r).ents.any (fun e => match e.2 with
    | .task ds _ (.held i _) _ => i == inst && (ds.cls == cls || (fwClass ds.cls && fwClass cls))
    | _ => false)

/-- The first ready task of one list that `inst` may take (R228). -/
def Dev.pickList (d : Dev) (r cls inst : Nat) : Option Nat :=
  let cand := (d.rach r).ents.filterMap (fun e => match e.2 with
    | .task ds _ (.ready n) eff => if ds.cls == cls && bitOf eff inst then some (e.1, ds.deadline, n) else none
    | _ => none)
  let key (x : Nat × Nat × Nat) : Nat := (x.2.1 * 2 ^ 64 + x.2.2) * 4096 + x.1
  (cand.foldl (fun b x => match b with
    | none => some x
    | some y => if key x < key y then some x else some y) none).map (·.1)

/-- The task an instance of a class would take: a SPARE task only while no CTLCORE task is ready for it (R228). -/
def Dev.pick (d : Dev) (r cls inst : Nat) : Option Nat :=
  if cls = 5 then (match d.pickList r 5 inst with
    | some i => some i
    | none => d.pickList r 7 inst)
  else d.pickList r cls inst

/-! ## Taking work (R229, R233, R239) -/

/-- An entry of a region's store. -/
def Dev.setEnt (d : Dev) (r idx : Nat) (e : Entry) : Dev :=
  d.setRach r (fun x => { x with ents := tput x.ents idx e })

/-- The generation of an entry (R220). -/
def Dev.entGen (d : Dev) (r idx : Nat) : Nat := tget (d.rach r).gens idx 0

/-- The key of a decode engine's job. -/
def deKey (r de : Nat) : Nat := r * 2 + de

/-- The stream slot that a decode task names (R193, R217). -/
def Dev.deSlot (r : Nat) (d : Dev) (ds : Desc) : Option Nat :=
  match ds.keys.find? (fun key => keyKind key == 8 || keyKind key == 9 || keyKind key == 10) with
  | none => none
  | some key =>
    let slot := if keyKind key = 10 then 1024 + keyChan key else keyChan key * 8 + keyRd key
    if (tget? d.strms (slotKey r slot)).isSome then some slot else none

/-- The deadline of a decode unit released at `t`, in ns (R193): the picture of a ladder channel departs with its first slice. -/
def Dev.unitDeadline (d : Dev) (r slot key t : Nat) : Nat :=
  let c := keyChan key
  let rd := keyRd key
  let g := (d.chan c).cfg
  let p := ceilDiv (pTu g) 65536
  let use := ((tget? d.strms (slotKey r slot)).map (·.use)).getD 0
  let x := d.rend c rd
  if use = 2 then
    t + (if (tget d.slots (slotKey r slot) DecSlot.init).fieldCoded then ceilDiv (pTu g) 131072 else p)
  else if ladder g then
    match use, x.dus.find? (fun u => d.keyIs c rd key u.k) with
    | 0, some u =>
      let s := slot4 g rd x (stopFor (d.chan c) x) (u.i / picSlices g * picSlices g)
      d.departAt c s.k x.firstK s.pos s.j + p
    | _, _ => t + p
  else t + ceilDiv (tickTu g 2) 65536

/-- A decode engine takes a unit (R193, R204): its last token released it, and firmware loads the descriptors. -/
def Dev.deStart (d : Dev) (r inst idx gen : Nat) (ds : Desc) (slot : Nat) (bufs : List (Nat × Nat)) : Dev :=
  let x := tget d.slots (slotKey r slot) DecSlot.init
  let keys := ds.keys.filter (fun key => keyKind key == 8 || keyKind key == 9 || keyKind key == 10)
  let key := keys.headD 0
  let t := (keys.filterMap (tget? x.handed)).foldl max 0
  let t := if t = 0 then d.now else t
  let pg := blk r (ixDE + inst)
  let d := d.each (List.range 8) (fun d n =>
    let b := bufs.getD n (0, 0)
    (((d.wr Reg.DE_BUF_BASE_LO pg b.1 n).wr Reg.DE_BUF_BASE_HI pg (b.1 / 2 ^ 32) n).wr Reg.DE_BUF_LIMIT_LO pg b.2 n).wr
      Reg.DE_BUF_LIMIT_HI pg (b.2 / 2 ^ 32) n)
  let b := bufs.getD 0 (0, 0)
  { d with slots := tput d.slots (slotKey r slot) { x with input := b.2 - b.1 },
           des := tput d.des (deKey r inst) ⟨idx, gen, slot, key, t, d.unitDeadline r slot key t, none⟩ }

/-- The 160 bytes of a record (R271), the last 8 of them the commit word. -/
def MirRec.bytes (y : MirRec) (c rd : Nat) : List Nat :=
  let v (w i : Nat) : List Nat := leBytes w (unsignedOf (8 * w) (y.fields.getD i 0))
  let body := leBytes 2 1 ++ [c, y.gen, rd, y.kind] ++ v 2 0 ++ v 8 1 ++ v 4 2 ++ v 4 3 ++ v 4 4 ++ v 4 5 ++ v 8 6 ++ v 8 7
    ++ v 4 8 ++ v 4 9 ++ v 4 10 ++ v 4 11 ++ v 4 12 ++ v 1 13 ++ v 1 14 ++ v 1 15 ++ v 1 16 ++ v 2 17 ++ [0, 0] ++ v 4 18 ++ v 4 19
    ++ v 1 20 ++ v 1 21 ++ [0, 0] ++ v 8 22 ++ v 8 23 ++ v 4 24 ++ leBytes 4 0 ++ v 4 25 ++ v 4 26 ++ v 4 27 ++ v 4 28
    ++ List.replicate 24 0 ++ leBytes 4 y.seq
  body ++ leBytes 4 (crc32c body)

/-- MIRROR writes the body of a slice record into the standby's ring (R270, R271): the record of a tick slice whose state
is known, once the slice two before it has been fully emitted. It is not valid before its commit word. -/
def Dev.mirrorBody (d : Dev) (c rd seq : Nat) : Dev :=
  let x := d.rend c rd
  match tget? x.snaps seq, x.dus.find? (fun u => u.i == seq) with
  | some fs, some u =>
    let ours : List Int := [(u.seq0 : Int), (u.ts : Int), (d.rd Reg.OS_SSRC (wOS c rd) : Int), (u.cc : Int),
      ((u.psi * 17 : Nat) : Int), (u.pcrNs : Int), (u.patNs : Int)]
    if d.protectedCh c && decide (seq ≤ x.sent + 1) then
      let rec_ : MirRec := ⟨seq, d.chGen c, 1, fs.take 17 ++ ours ++ fs.drop 17, false⟩
      ({ d with mirs := tmod d.mirs (c * 8 + rd) Mirror.init (fun m =>
          if seq % 2 = 0 then { m with rec0 := some rec_ } else { m with rec1 := some rec_ }) } : Dev).emit
        (.mirrorWrite c rd seq 0 ((rec_.bytes c rd).take 0x98))
    else d
  | _, _ => d

/-- The records that a MIRROR task writes: one per rendition whose SLICE_CODED key it carries (R237, R270). -/
def Dev.mirrorTask (d : Dev) (ds : Desc) : Dev :=
  d.each (ds.keys.filter (fun key => keyKind key == 8)) (fun d key =>
    let c := keyChan key
    let rd := keyRd key
    match (d.rend c rd).dus.find? (fun u => d.keyIs c rd key u.k && u.j == keyRow key) with
    | some u => d.mirrorBody c rd u.i
    | none => d)

/-- What starts in the core that takes a task (R72, R99 to R109, R193, R270). -/
def Dev.startTask (d : Dev) (r inst idx gen : Nat) (ds : Desc) (missing : List Nat) (job : Job) : Dev :=
  if ds.cls = 0 then
    match ds.keys.find? (fun key => keyKind key == 4) with
    | none => d
    | some key =>
      let c := keyChan key
      let rd := keyRd key
      let ch := d.chan c
      let has (x : Rend) : Option Nat :=
        (x.opens.find? (fun o => frameNo ch.cfg rd x (stopFor ch x) o.k % 65536 == keyFrame key)).map (·.k)
      let k := (((tget? d.olds (c * 8 + rd)).bind (fun o => has o.1)).orElse (fun _ => has (d.rend c rd))).getD 0
      d.asOf c rd k (fun d => d.rowStart r inst idx gen ds missing)
  else if ds.cls = 1 then
    match d.deSlot r ds with
    | some slot => d.deStart r inst idx gen ds slot (match job.data with
      | .decode bufs => bufs
      | _ => [])
    | none => d
  else if ds.cls = 2 ∨ ds.cls = 3 then
    d.runJob r inst job
  else if ds.cls = 6 then d.mirrorTask ds
  else d

/-- Gives entry `idx` to an instance (R229): its tag, slots and missing flags; a control task after its deadline is late
(R236). -/
def Dev.give (d : Dev) (r idx inst : Nat) (job : Job) : Dev :=
  match tget? (d.rach r).ents idx with
  | some (.task ds vals _ eff) =>
    let gen := d.entGen r idx
    let d := d.setEnt r idx (.task ds vals (.held inst none) eff)
    let slots := (List.range 4).map (fun i => (vals.getD i none).getD (0, 0))
    let mask := (List.range 4).foldl (fun a i => a + b2n ((vals.getD i none).isSome) * 2 ^ i) 0
    let d := d.emit (.work r inst idx gen ds.word0 ds.ctx slots mask)
    let d := if fwClass ds.cls && decide (ds.deadline < d.tbNs r) then
        let b := blk r ixRACHIS
        let d := d.inc Reg.RA_CNT_LATE_LATE b
        let key := 0x610 + r
        if d.mayRaise key then (d.markRaised key).event b 1 0 0 else d
      else d
    let missing := ((List.range ds.nslot).filter (fun i => (vals.getD i none).isNone)).map (fun i => ds.keys.getD i 0)
    (d.startTask r inst idx gen ds missing job).syncRach r
  | _ => d

/-- Whether an instance takes part in dispatch: its region runs and its block is in service (R229, R231). -/
def Dev.instUp (d : Dev) (r cls inst : Nat) : Bool :=
  d.active r && decide (inst < classSize cls) && !(d.outOf r (classBlock cls inst))

/-- Serves one blocked request, if a task is ready for it. -/
def Dev.serveReq (d : Dev) (r : Nat) (q : Req) : Dev :=
  if !(d.instUp r q.cls q.inst) then d
  else match d.pick r q.cls q.inst with
  | some idx =>
    (d.setRach r (fun x => { x with reqs := x.reqs.filter (fun y => !(y.cls == q.cls && y.inst == q.inst)) })).give r idx q.inst q.job
  | none => d

/-- Pushes ready tasks of the given classes to idle instances (R239). -/
def Dev.pushIdle (d : Dev) (r : Nat) (classes : List Nat) : Dev :=
  d.each (classes.flatMap (fun c => (List.range (classSize c)).map (fun i => (c, i)))) (fun d ci =>
    if d.instUp r ci.1 ci.2 && !(d.busyInst r ci.1 ci.2) then
      let job := (((d.rach r).reqs.find? (fun q => q.cls == ci.1 && q.inst == ci.2)).map (·.job)).getD ⟨.none, []⟩
      match d.pick r ci.1 ci.2 with
      | some idx =>
        (d.setRach r (fun x => { x with reqs := x.reqs.filter (fun y => !(y.cls == ci.1 && y.inst == ci.2)) })).give r idx ci.2 job
      | none => d
    else d)

/-- Dispatch after a change of the ready lists or the requests (R229, R239): BOOT pushes control tasks only, TEST pushes
every class, NORMAL and RECOVERY answer requests in the order in which they came. -/
def Dev.pump (d : Dev) (r : Nat) : Dev :=
  let m := d.raMode r
  if m = 0 then d.pushIdle r [5]
  else if m = 2 then d.pushIdle r [0, 1, 2, 3, 4, 5, 6]
  else d.each (d.rach r).reqs (fun d q => d.serveReq r q)

/-- Pre-emption when task `idx` has become ready (R239). -/
def Dev.preempt (d : Dev) (r idx : Nat) : Dev :=
  let m := d.raMode r
  if m ≠ 2 ∧ m ≠ 3 then d
  else match tget? (d.rach r).ents idx with
  | some (.task b _ (.ready _) eff) =>
    if fwClass b.cls then
      let margin := d.rd Reg.RA_PREEMPT_PREEMPT_NS (blk r ixRACHIS) * 100
      let cand := (d.rach r).ents.filterMap (fun e => match e.2 with
        | .task a _ (.held i none) _ =>
          if fwClass a.cls && bitOf eff i && decide (b.deadline + margin ≤ a.deadline) && b.deadline < a.deadline then
            some (e.1, i, a.deadline) else none
        | _ => none)
      let best := cand.foldl (fun x y => match x with
        | none => some y
        | some z => if z.2.2 * 8 + z.2.1 < y.2.2 * 8 + y.2.1 then some y else some z) none
      match best with
      | some (j, i, _) =>
        (match tget? (d.rach r).ents j with
         | some (.task a va (.held i' _) ea) =>
           let d := d.setEnt r j (.task a va (.held i' (some idx)) ea)
           (d.inc Reg.RA_CNT_PRE_PREEMPT (blk r ixRACHIS)).emit (.preempt r i idx)
         | _ => d)
      | none => d
    else d
  | _ => d

/-- A task joins its ready list (R228): requests are served first, and one still waiting may pre-empt. -/
def Dev.toReady (d : Dev) (r idx : Nat) : Dev :=
  match tget? (d.rach r).ents idx with
  | some (.task ds vals _ eff) =>
    let n := (d.rach r).ord + 1
    let d := (d.setEnt r idx (.task ds vals (.ready n) eff)).setRach r (fun x => { x with ord := n })
    (d.pump r).preempt r idx
  | _ => d

/-- The delay list of a class (R232). -/
def delayList (cls : Nat) : Nat := if cls ≤ 1 then 0 else if cls ≤ 3 then 1 else if cls = 4 ∨ cls = 6 then 2 else 3

/-- The tasks on delay list `n` in the order of WAKE and INDEX, or those that wait for room on it. -/
def Dev.delayed (d : Dev) (r n : Nat) (full : Bool) : List (Nat × Nat) :=
  let l := (d.rach r).ents.filterMap (fun e => match e.2 with
    | .task ds _ (.delayed f) _ => if delayList ds.cls == n && f == full then some (e.1, ds.wake) else none
    | _ => none)
  sortKey (fun x => x.2 * 4096 + x.1) l

/-- A task whose required slots are all matched is armed (R225): it joins its ready list, or its delay list (R232). -/
def Dev.armIf (d : Dev) (r idx : Nat) : Dev :=
  match tget? (d.rach r).ents idx with
  | some (.task ds vals .waiting eff) =>
    if (List.range ds.nslot).all (fun i => bitOf ds.opt i || (vals.getD i none).isSome) then
      if ds.wake ≤ d.tbNs r then d.toReady r idx
      else if (d.delayed r (delayList ds.cls) false).length < 1024 then d.setEnt r idx (.task ds vals (.delayed false) eff)
      else
        let d := d.setEnt r idx (.task ds vals (.delayed true) eff)
        d.inc (if fwClass ds.cls then Reg.RA_CNT_BP_FW else Reg.RA_CNT_BP_MEDIA) (blk r ixRACHIS)
    else d
  | _ => d

/-! ## Posts and tokens (R221, R226, R233) -/

/-- The oldest parked token with a key. -/
def Rachis.parked (x : Rachis) (key : Nat) : Option (Nat × Nat × Nat × Nat × Nat × Nat) :=
  let l := x.ents.filterMap (fun e => match e.2 with
    | .token k n v a u o => if k == key then some (e.1, n, v, a, u, o) else none
    | _ => none)
  l.foldl (fun b y => match b with
    | none => some y
    | some z => if y.2.2.2.2.2 < z.2.2.2.2.2 then some y else some z) none

/-- Slot `i` of a new task takes a delivery from a parked token (R226). -/
def Rachis.fill (key : Nat) (x : Rachis) : Rachis × Option (Nat × Nat) :=
  match x.parked key with
  | none => (x, none)
  | some (i, n, v, a, u, o) =>
    ({ x with ents := if n ≤ 1 then tdel x.ents i else tput x.ents i (.token key (n - 1) v a u o) }, some (v, a))

/-- A task enters at an index (R221, R226). -/
def Dev.storePost (d : Dev) (r idx : Nat) (ds : Desc) : Dev :=
  let g := d.entGen r idx
  let gen := if 255 ≤ g then 1 else g + 1
  let step (acc : Rachis × List (Option (Nat × Nat))) (key : Nat) : Rachis × List (Option (Nat × Nat)) :=
    let f := acc.1.fill key
    (f.1, acc.2 ++ [f.2])
  let x0 := d.rach r
  let x1 := { x0 with gens := tput x0.gens idx gen, ents := tput x0.ents idx .retired }
  let f := ds.keys.foldl step (x1, [])
  let eff := d.effAff r ds.cls ds.aff
  let d := d.setRach r (fun _ => { f.1 with ents := tput f.1.ents idx (.task ds f.2 .waiting eff) })
  (d.armIf r idx).syncRach r

/-- The result of a post: told to its producer, and in RA_POST_RESULT where it came through the window (R240). -/
def Dev.postResult (d : Dev) (r idx gen code : Nat) (window : Bool) : Dev :=
  let b := blk r ixRACHIS
  let d := if window then
      let d := (d.wr Reg.RA_POST_RESULT_INDEX b idx).wr Reg.RA_POST_RESULT_GEN b gen
      (d.wr Reg.RA_POST_RESULT_CODE b code).wr Reg.RA_POST_RESULT_BUSY b 0
    else d
  d.emit (.posted r idx gen code)

/-- Takes a post that has an entry: at the named index, or at the lowest free one (R221). -/
def Dev.takePost (d : Dev) (r : Nat) (ds : Desc) (fixed : Option Nat) (window : Bool) : Dev :=
  match fixed.orElse (fun _ => lowestFree (d.rach r).ents) with
  | some idx => (d.storePost r idx ds).postResult r idx
      (let g := d.entGen r idx; if 255 ≤ g then 1 else g + 1) 0 window
  | none => d

/-- A request that finds no entry stalls (R234). -/
def Dev.stall (d : Dev) (r : Nat) (x : Stall) (fw : Bool) : Dev :=
  let n := (d.rach r).ord + 1
  let d := d.setRach r (fun y => { y with ord := n, stalls := y.stalls ++ [{ x with ord := n }] })
  let d := if x.fw then d.wr Reg.RA_POST_RESULT_BUSY (blk r ixRACHIS) 1 else d
  d.stallCount r fw

/-- A post of a descriptor, none where it breaks a rule of R220 (R221, R235, R240). -/
def Dev.post (d : Dev) (r : Nat) (x : Option Desc) (fixed : Option Nat) (window : Bool) : Dev :=
  match x with
  | none => d.postResult r 0 0 0x38 window
  | some ds =>
    if !ds.noch && !(d.genCurrent ds.chan ds.gen) then d.postResult r 0 0 0x11 window
    else
      let taken := fixed.bind (fun i => tget? (d.rach r).ents i)
      match taken with
      | some (.quar _) => (d.inc Reg.RA_CNT_TAG_REUSE (blk r ixRACHIS)).postResult r 0 0 0x10 window
      | some _ => (d.inc Reg.RA_CNT_TAG_REUSE (blk r ixRACHIS)).postResult r 0 0 0x0F window
      | none =>
        if d.postStalls r ds then
          d.stall r ⟨some (ds, fixed), none, window, ds.deadline, 0, d.now⟩ (fwClass ds.cls)
        else d.takePost r ds fixed window

/-- The unmatched slots with a key, in ascending order of task index and slot (R225, R226). -/
def Rachis.openSlots (x : Rachis) (key : Nat) : List (Nat × Nat) :=
  x.ents.flatMap (fun e => match e.2 with
    | .task _ _ (.held _ _) _ => []
    | .task ds vals _ _ =>
      ((List.range ds.nslot).filter (fun i => ds.keys.getD i 0 == key && (vals.getD i none).isNone)).map (fun i => (e.1, i))
    | _ => [])

/-- Delivers a value to a slot. -/
def Dev.deliver (d : Dev) (r : Nat) (at_ : Nat × Nat) (v : Nat × Nat) : Dev :=
  match tget? (d.rach r).ents at_.1 with
  | some (.task ds vals st eff) =>
    let padded := (List.range ds.nslot).map (fun i => vals.getD i none)
    (d.setEnt r at_.1 (.task ds (padded.set at_.2 (some v)) st eff)).armIf r at_.1
  | _ => d

/-- Parks a token (R226). -/
def Dev.park (d : Dev) (r tok left : Nat) : Dev :=
  match lowestFree (d.rach r).ents with
  | some idx =>
    let hold := bitsOf tok 64 16
    let us := if hold = 0 then d.rd Reg.RA_CFG_TOKEN_HOLD (blk r ixRACHIS) else hold
    let n := (d.rach r).ord + 1
    let e : Entry := .token (keyOf tok) left (bitsOf tok 96 32) (bitsOf tok 80 7) (d.now + us * 1000) n
    (d.setEnt r idx e).setRach r (fun x => { x with ord := n })
  | none => d

/-- A token kind that R224 defines, or one free for firmware. -/
def kindKnown (k : Nat) : Bool := (1 ≤ k && k ≤ 0xC) || 0x20 ≤ k

/-- A token reaches the store (R226). -/
def Dev.tokenIn (d : Dev) (r tok deadline : Nat) : Dev :=
  let b := blk r ixRACHIS
  let count := bitsOf tok 6 4
  let key := keyOf tok
  if count = 0 ∨ kindKnown (tok % 64) = false then d.inc Reg.RA_CNT_TOK_BAD b
  else if !(d.genCurrent (keyChan key) (keyGen key)) then d.inc Reg.RA_CNT_TOK_STALE_CH b
  else
    let dest := ((d.rach r).openSlots key).take count
    let d := d.each dest (fun d x => d.deliver r x (bitsOf tok 96 32, bitsOf tok 80 7))
    let left := count - dest.length
    let d := if left = 0 then d
      else if d.parkStalls r key then
        d.stall r ⟨none, some (tok, left), false, deadline, 0, d.now⟩ (0x20 ≤ keyKind key)
      else d.park r tok left
    d.syncRach r

/-- The key of a token about frame `k` of a channel; of FEED_AU, about an access unit. -/
def Dev.tokenKey (d : Dev) (kind c rd row k : Nat) : Nat :=
  mkKey kind c (d.chGen c) rd row (if kind = 0x0A then k else d.tokFrame c rd k)

/-- A token that a unit of region `r` sends (R224): COUNT is the number of slots that wait for it, at least 1; `due` is the deadline of the
task that posted it (R235), 0 where no task did. -/
def Dev.sendToken (d : Dev) (r kind c rd row k value : Nat) (aux : Int) (due : Nat := 0) : Dev :=
  let key := d.tokenKey kind c rd row k
  let n := max 1 (min 15 ((d.rach r).openSlots key).length)
  let tok := key + n * 64 + unsignedOf 7 aux * 2 ^ 80 + min value (2 ^ 32 - 1) * 2 ^ 96
  (d.emit (.token r tok)).tokenIn r tok due

/-- The deadline of the task at an index. -/
def Dev.dueOf (d : Dev) (r idx : Nat) : Nat :=
  match tget? (d.rach r).ents idx with
  | some (.task ds _ _ _) => ds.deadline
  | _ => 0

/-- A unit of a decoder is released (R193): SLICE_CODED, UNIT_ARRIVED or FEED_AU, kept for a stream placed in the region. -/
def Dev.releaseUnit (d : Dev) (r kind c rd row k value : Nat) : Dev :=
  let slot := if kind = 0x0A then 1024 + c else c * 8 + rd
  let key := slotKey r slot
  let d := if (tget? d.strms key).isSome then
      { d with slots := tmod d.slots key DecSlot.init (fun x =>
          { x with handed := (tput x.handed (d.tokenKey kind c rd row k) d.now).drop (x.handed.length - 127) }) }
    else d
  d.sendToken r kind c rd row k value 0

/-- Serves the stalled requests that now find an entry, in order of deadline, then of arrival (R233, R235). -/
def Dev.serveStalls (d : Dev) (r : Nat) : Dev :=
  d.each (sortKey (fun (x : Stall) => x.deadline * 2 ^ 32 + x.ord) (d.rach r).stalls) (fun d x =>
    let b := blk r ixRACHIS
    let done (d : Dev) : Dev :=
      let d := d.setRach r (fun y => { y with stalls := y.stalls.filter (fun z => z.ord != x.ord) })
      d.wr Reg.RA_BP_MAX_US b (min 0xFFFF (max (d.rd Reg.RA_BP_MAX_US b) ((d.now - x.since) / 1000)))
    match x.post, x.tok with
    | some (ds, fixed), _ =>
      if !ds.noch && !(d.genCurrent ds.chan ds.gen) then (done d).postResult r 0 0 0x11 x.fw
      else if d.postStalls r ds then d
      else (match fixed.bind (fun i => tget? (d.rach r).ents i) with
        | some (.quar _) => ((done d).inc Reg.RA_CNT_TAG_REUSE b).postResult r 0 0 0x10 x.fw
        | some _ => ((done d).inc Reg.RA_CNT_TAG_REUSE b).postResult r 0 0 0x0F x.fw
        | none => (done d).takePost r ds fixed x.fw)
    | none, some (tok, left) =>
      let key := keyOf tok
      let dest := ((d.rach r).openSlots key).take left
      if !(d.genCurrent (keyChan key) (keyGen key)) then (done d).inc Reg.RA_CNT_TOK_STALE_CH b
      else if dest.length < left ∧ d.parkStalls r key = true then d
      else
        let d := (done d).each dest (fun d y => d.deliver r y (bitsOf tok 96 32, bitsOf tok 80 7))
        if dest.length < left then d.park r tok (left - dest.length) else d
    | none, none => done d)

/-- The staged words of a window of the RACHIS page. -/
def Dev.raWords (d : Dev) (r : Nat) (row : Row) (n : Nat) : List Nat :=
  (List.range n).map (fun i => d.rd row (blk r ixRACHIS) i)

/-- A post through the RA_POST window (R234, R240): none is taken while one stalls. -/
def Dev.windowPost (d : Dev) (w r : Nat) (fixed : Option Nat) : Dev :=
  d.locked w (blk r ixRACHIS) (fun d =>
    if d.rd Reg.RA_POST_RESULT_BUSY (blk r ixRACHIS) = 1 then d
    else if fixed.isSome && isHost w then d.postResult r 0 0 cOpInvalid true
    else d.post r (parseDesc (d.raWords r Reg.RA_POST 16)) fixed true)

/-- A task of class `cls` for a channel: its slots' keys, the first `opt` of the last ones optional. -/
def Dev.taskOf (d : Dev) (cls c rd aff cost ctx deadline : Nat) (keys late : List Nat) : Desc :=
  let ks := (keys ++ late).take 4
  { cls := cls, aff := aff, nslot := ks.length, opt := 2 ^ ks.length - 2 ^ keys.length, chan := c, noch := false, gen := d.chGen c, rd := rd,
    cost := cost, deadline := deadline, wake := 0, ctx := ctx, keys := ks }

/-- A media task as firmware posts it for tick slice `j` of frame `k` in region `r`: the slots and the DEADLINE of the table of R237. A
decode task's DEADLINE is that of a unit released as it is posted (log entry 171). -/
def Dev.mediaTask (d : Dev) (r cls c rd k j row : Nat) (halo : List (Nat × Nat)) (aff cost ctx : Nat) : Desc :=
  let ch := d.chan c
  let g := ch.cfg
  let x := d.rend c rd
  let s := slot4 g rd x (stopFor ch x) (posOf g rd x (stopFor ch x) k * slices g + j)
  let key (kind rd row : Nat) : Nat := d.tokenKey kind c rd row k
  let granted : Nat := ((d.arriveAt c k (if ladder g then picSlices g * (j / picSlices g + 1) - 1 else j) + ((tsTu g : Nat) : Int)).toNat) / 65536
  let departs := d.departAt c s.k x.firstK s.pos s.j
  let unit := key (if ch.regions.contains r then 8 else 9) rd j
  let task := d.taskOf cls c rd aff cost ctx
  if cls = 0 then
    task (d.jobDeadline c x s)
      ([key 4 rd row, key 3 rd j]
        ++ (if row ≠ 0 ∧ (sliceRowList g rd s.jj).contains (row - 1) = true then [key 5 rd (row - 1)] else []))
      (halo.map (fun h => d.tokenKey 7 c rd h.1 h.2))
  else if cls = 1 then task (d.unitDeadline r (c * 8 + rd) unit (d.tbNs r)) [unit] []
  else if cls = 2 then task granted [key 1 0 j] []
  else if cls = 3 then task granted [key 3 0 j] []
  else if cls = 4 then task (departs - 10000) [key 8 rd j] []
  else task departs (((List.range 4).filter (fun n => rd + n < numRend g)).map (fun n => key 8 (rd + n) j)) []

/-- What a post brings to the dispatcher of region `r`. -/
def Dev.posted (d : Dev) (r : Nat) (x : PostBy) : Option Desc :=
  let checked (y : Desc) : Option Desc := if y.good then some y else none
  match x with
  | .window => none
  | .words ws => parseDesc ws
  | .media cls c rd k j row halo aff cost ctx => checked (d.mediaTask r cls c rd k j row halo aff cost ctx)
  | .feed c au aff cost ctx =>
    let key := d.tokenKey 0x0A c 0 0 au
    checked (d.taskOf 1 c 0 aff cost ctx (d.unitDeadline r (1024 + c) key (d.tbNs r)) [key] [])

/-- RA_POST (R220, R221, R226, R233 to R235, R237): by the window, with a descriptor that a block posts, or of a media task. -/
def execRaPost (r w : Nat) (by_ : PostBy) (s : State) : Host.Outcome State Fault Refusal :=
  s.onDev (fun d =>
    match by_ with
    | .window => d.windowPost w r none
    | _ => if d.active r then (d.post r (d.posted r by_) none false).syncRach r else d)

/-- RA_POST_FIXED (R221, R240). -/
def execRaPostFixed (r w idx : Nat) (s : State) : Host.Outcome State Fault Refusal :=
  s.onDev (fun d => d.windowPost w r (some (idx % 4096)))

/-- STALLED_POST_ACCEPT (R233 to R235). -/
def execStalledPostAccept (r t : Nat) (s : State) : Host.Outcome State Fault Refusal :=
  s.onDev (fun d => ((d.advanceTo t).serveStalls r).syncRach r)

/-- A token through the RA_TOKEN window. -/
def Dev.windowToken (d : Dev) (w r : Nat) : Dev :=
  d.locked w (blk r ixRACHIS) (fun d =>
    let ws := d.raWords r Reg.RA_TOKEN 4
    d.tokenIn r (ws.foldr (fun x acc => x + acc * 2 ^ 32) 0) 0)

/-- RA_TOKEN_SEND (R226, R240). -/
def execRaTokenSend (r w : Nat) (s : State) : Host.Outcome State Fault Refusal := s.onDev (fun d => d.windowToken w r)

/-- TOKEN_ARRIVE (R223 to R228, R233 to R235, R239). -/
def execTokenArrive (r tok deadline : Nat) (s : State) : Host.Outcome State Fault Refusal :=
  s.onDev (fun d => if d.active r then d.tokenIn r tok deadline else d)

/-- TOKEN_HOLD_EXPIRY (R226): a parked token whose hold time has passed is discarded and counted. -/
def execTokenHoldExpiry (r idx t : Nat) (s : State) : Host.Outcome State Fault Refusal :=
  s.onDev (fun d0 =>
    let d := d0.advanceTo t
    match tget? (d.rach r).ents idx with
    | some (.token _ _ _ _ u _) =>
      if u ≤ d.now then
        let d := d.setRach r (fun x => { x with ents := tdel x.ents idx })
        ((d.inc Reg.RA_CNT_TOK_ORPHAN (blk r ixRACHIS)).serveStalls r).syncRach r
      else d
    | _ => d)

/-- DELAY_LIST_JOIN (R232): waiting tasks join the list in order of WAKE while it has room. -/
def execDelayListJoin (r list : Nat) (s : State) : Host.Outcome State Fault Refusal :=
  s.onDev (fun d =>
    let room := 1024 - (d.delayed r list false).length
    (d.each ((d.delayed r list true).take room) (fun d x =>
      match tget? (d.rach r).ents x.1 with
      | some (.task ds vals _ eff) => d.setEnt r x.1 (.task ds vals (.delayed false) eff)
      | _ => d)).syncRach r)

/-- The delay lists on a Rachis tick (R44, R232). -/
def Dev.raTick (d : Dev) (r : Nat) : Dev :=
  (d.each [0, 1, 2, 3] (fun d n =>
    let due := (d.delayed r n false).filter (fun x => x.2 ≤ d.tbNs r / 1000 * 1000)
    let d := d.each (due.take 32) (fun d x => d.toReady r x.1)
    d.incBy Reg.RA_DLY_SPILL (blk r ixRACHIS) (due.length - 32) n)).syncRach r

/-- GET_WORK (R229, R233): the request is answered at once where a task is ready for the core, and blocks otherwise; a
fenced block's is not answered. -/
def execGetWork (r cls inst t : Nat) (job : JobData) (s : State) : Host.Outcome State Fault Refusal :=
  let job := s.loadJob r job
  s.onDev (fun d0 =>
    let d := d0.advanceTo t
    if 7 ≤ cls ∨ d.instUp r cls inst = false ∨ d.busyInst r cls inst = true
        ∨ (d.rach r).reqs.any (fun q => q.cls == cls && q.inst == inst) = true then d
    else
      let d := d.setRach r (fun x =>
        { x with reqs := sortKey (fun (q : Req) => q.since * 8 + q.inst) (x.reqs ++ [⟨cls, inst, d.now, job⟩]) })
      d.pump r)

/-- GET_WORK_TIMEOUT (R229): a control core's request returns empty. -/
def execGetWorkTimeout (r inst t : Nat) (s : State) : Host.Outcome State Fault Refusal :=
  s.onDev (fun d0 =>
    let d := d0.advanceTo t
    let limit := d.rd Reg.RA_PREEMPT_GW_TIMEOUT (blk r ixRACHIS) * 1000
    if (d.rach r).reqs.any (fun q => q.cls == 5 && q.inst == inst && decide (q.since + limit ≤ d.now)) then
      (d.setRach r (fun x => { x with reqs := x.reqs.filter (fun q => !(q.cls == 5 && q.inst == inst)) })).emit
        (.noWork r inst)
    else d)

/-! ## Completions (R222, R230, R231) -/

/-- How long a task's entry stays in quarantine (R222). -/
def Dev.taskQuar (d : Dev) (ds : Desc) : Nat := if ds.noch then 1000000 else d.quarFor ds.chan

/-- A completion of a tag: its task while an instance holds it; a stale tag is counted (R222). -/
def Dev.onTag (d : Dev) (r idx gen : Nat) (f : Dev → Desc → List (Option (Nat × Nat)) → Nat → Option Nat → Nat → Dev) : Dev :=
  if d.active r = false then d
  else if d.entGen r idx ≠ gen then d.inc Reg.RA_CNT_TAG_STALE (blk r ixRACHIS)
  else match tget? (d.rach r).ents idx with
  | some (.task ds vals (.held inst intr) eff) => f d ds vals inst intr eff
  | some (.task _ _ _ _) => d
  | _ => d.inc Reg.RA_CNT_TAG_STALE (blk r ixRACHIS)

/-- A coding engine's job of a task is over; `redo` leaves its row to be coded again. -/
def Dev.endJob (d : Dev) (r idx inst : Nat) (ds : Desc) (redo : Bool) : Dev :=
  if ds.cls = 0 then
    match tget? d.ces (ceKey r inst) with
    | some j =>
      if j.task = idx then
        let d := { d with ces := tdel d.ces (ceKey r inst) }
        if redo then
          d.asOf j.c j.rd j.k (fun d => d.setRend j.c j.rd (fun x => { x with opens := x.opens.map (fun o =>
            if o.i = j.i then { o with rows := o.rows.map (fun y =>
              if y.row = j.row && y.done.isNone then { y with taken := false } else y) } else o) }))
        else d
      else d
    | none => d
  else if ds.cls = 1 then
    match tget? d.des (deKey r inst) with
    | some j => if j.task = idx then { d with des := tdel d.des (deKey r inst) } else d
    | none => d
  else d

/-- The entry goes to quarantine (R222, R230). -/
def Dev.freeEnt (d : Dev) (r idx : Nat) (ds : Desc) : Dev := d.setEnt r idx (.quar (d.now + d.taskQuar ds))

/-- R16: whether a held task still has slack for its estimated cost. -/
def Dev.hasSlack (d : Dev) (r : Nat) (ds : Desc) : Bool := decide (d.tbNs r + ds.cost * 1000 ≤ ds.deadline)

/-- The Culm requesters of a block (R289). -/
def blockReqs (ix : Nat) : List Nat :=
  if ix = ixCAPTURE then [0, 27] else if ix = ixCOMPOSE then [1, 28] else if ix = ixEGRESS then [2]
  else if ix = ixMIRROR then [3] else if ixCE ≤ ix ∧ ix < ixCE + 8 then [4 + (ix - ixCE)]
  else if ix = ixDE ∨ ix = ixDE + 1 then [12 + (ix - ixDE)]
  else if ix = ixSCALER ∨ ix = ixSCALER + 1 then [14 + (ix - ixSCALER)]
  else if ix = ixRCU then [16] else if ix = ixPOLICER then [17] else if ix = ixSTOLON then [18, 19, 20]
  else if ixCTL ≤ ix ∧ ix < ixCTL + 4 then [21 + (ix - ixCTL)] else if ix = ixRACHIS then [25] else []

/-- The page of a Culm. -/
def cuPage (r : Nat) : Nat := blk r ixCULM

/-- The arbiter of target `t` of region `r`; those of the outbound links are targets 8 to 10. -/
def Dev.arb (d : Dev) (r t : Nat) : Arb := tget d.arbs (r * 16 + t) Arb.init

/-- A change of an arbiter. -/
def Dev.setArb (d : Dev) (r t : Nat) (f : Arb → Arb) : Dev := { d with arbs := tmod d.arbs (r * 16 + t) Arb.init f }

/-- Whether a requester's block is masked (R17, R295). -/
def Dev.reqMasked (d : Dev) (r q : Nat) : Bool :=
  d.rd Reg.CU_REQ_SIDEBAND (cuPage r) q == 1 || d.rd Reg.CU_REQ_FENCED (cuPage r) q == 1

/-- The mask of some requesters rises (R295, R297): their requests are withdrawn at every target, and a grant that one of them got on
the target's last cycle is cancelled. -/
def Dev.maskRise (d : Dev) (r : Nat) (qs : List Nat) : Dev :=
  d.each (List.range 8) (fun d t =>
    let x := d.arb r t
    let lost := match x.owner with
      | some (q, beats, at_) => if qs.contains q && at_ == x.seen then [(q, beats)] else []
      | none => []
    let gone := (x.reqs.filter (fun y => qs.contains y.1)).map (fun y => (y.1, y.2.1))
    if lost.isEmpty && gone.isEmpty then d
    else
      let d := d.setArb r t (fun x =>
        { x with reqs := x.reqs.filter (fun y => !(qs.contains y.1)), back := x.back ++ gone ++ lost,
                 owner := if lost.isEmpty then x.owner else none })
      if lost.isEmpty then d else d.inc Reg.CU_ARB_CANCEL (cuPage r) t)

/-- The mask of some requesters falls (R295): those that no other mask holds present their withdrawn requests again. -/
def Dev.maskFall (d : Dev) (r : Nat) (qs : List Nat) : Dev :=
  let free := qs.filter (fun q => !(d.reqMasked r q))
  d.each (List.range 8) (fun d t =>
    let mine := (d.arb r t).back.filter (fun y => free.contains y.1)
    if mine.isEmpty then d
    else d.setArb r t (fun x =>
      { x with reqs := x.reqs ++ mine.map (fun y => (y.1, y.2, x.seen)), back := x.back.filter (fun y => !(free.contains y.1)) }))

/-- DETAIL of a loss of capacity (R484): the region's CLU capacity and ceiling in 0.1 CLU, and the channels stopped. -/
def Dev.lossDetail (d : Dev) (r stopped : Nat) : List Nat :=
  leBytes 4 (6500 * d.inCount r ixCE 8) ++ leBytes 4 (d.cluOne r) ++ leBytes 2 stopped

/-- The channels of a region that are STOPPING with CAPACITY_LOST. -/
def Dev.lostOn (d : Dev) (r : Nat) : Nat :=
  ((d.chansOn r).filter (fun c => d.chState c == 3 && d.rd Reg.CH_STATE_STOP_REASON (wCHSTAT c) == 0x21)).length

/-- A block is fenced (R17, R18, R231): it gets no more work, its Culm requests are masked, queued tasks lose its bit, a
held task is reposted or failed, and the region re-admits its channels. -/
def Dev.fence (d : Dev) (r ix : Nat) : Dev :=
  if d.rd Reg.STATUS_FENCED (blk r ix) = 1 then d
  else
    let d := d.wr Reg.STATUS_FENCED (blk r ix) 1
    let d := (d.each (blockReqs ix) (fun d q => d.wr Reg.CU_REQ_FENCED (cuPage r) 1 q)).maskRise r (blockReqs ix)
    let mine (cls inst : Nat) : Bool := classBlock cls inst == ix
    let d := d.setRach r (fun x =>
      { x with
        reqs := x.reqs.filter (fun q => !(mine q.cls q.inst)),
        ents := tmap (fun _ e => match e with
          | .task ds vals (.held i b) eff => .task ds vals (.held i b) eff
          | .task ds vals st eff => .task ds vals st (d.effAff r ds.cls eff)
          | e => e) x.ents })
    let held := (d.rach r).ents.filterMap (fun e => match e.2 with
      | .task ds _ (.held i _) _ => if mine ds.cls i then some (e.1, ds, i) else none
      | _ => none)
    let d := d.each held (fun d x =>
      let d := d.endJob r x.1 x.2.2 x.2.1 true
      match tget? (d.rach r).ents x.1 with
      | some (.task ds vals _ _) =>
        if d.hasSlack r ds then
          (d.setEnt r x.1 (.task ds vals .waiting (d.effAff r ds.cls ds.aff))).toReady r x.1
        else d.freeEnt r x.1 ds
      | _ => d)
    let before := d.lostOn r
    let d := d.readmit r
    let d := d.err (blk r ixRGN) 0x56 2 ix false (d.lossDetail r (d.lostOn r - before)) ix
    let d := d.event (blk r ixRGN) 4 ix 0
    (d.pgEvalAll.pump r).syncRach r

/-- One uncorrectable job failure of a block (R17): its fourth within 1,000 ms fences it. -/
def Dev.jobFailure (d : Dev) (r ix : Nat) : Dev :=
  let l := (tget (d.rach r).fails ix []).filter (fun x => d.now ≤ x + 1000000000) ++ [d.now]
  let d := d.setRach r (fun x => { x with fails := tput x.fails ix l })
  if 4 ≤ l.length then d.fence r ix else d

/-- Whether a failed job does not count toward R17: an abort in RECOVERY of a channel stopped with PREEMPTED (R239). -/
def Dev.aborted (d : Dev) (r : Nat) (ds : Desc) : Bool :=
  d.raMode r == 3 && !ds.noch && d.rd Reg.CH_STATE_STOP_REASON (wCHSTAT ds.chan) == 0x22

/-- The COMPOSED token of a rendition, or of the channel: in the region that composed or scaled, and in those that code a row of the
slice (R224, R237). -/
def Dev.composedTok (d : Dev) (r c rd j k due : Nat) : Dev :=
  let g := (d.chan c).cfg
  let homes := (r :: (sliceRowList g rd (j % picSlices g)).map (d.rowRegion c rd k)).eraseDups
  d.each homes (fun d s => d.sendToken s 0x03 c rd j k 0 0 due)

/-- What the end of a task of COMPOSE or a scaler tells (R224): COMPOSED of the channel and of each rendition that needs no scaling, or of
the rendition that was scaled. -/
def Dev.composed (d : Dev) (r : Nat) (ds : Desc) : Dev :=
  let c := ds.chan
  let ch := d.chan c
  match ds.keys.find? (fun key => keyKind key == (if ds.cls = 2 then 1 else 3)) with
  | none => d
  | some key =>
    let k := ((ch.info.map (·.1)).find? (fun k => d.keyIs c 0 key k)).getD (keyFrame key)
    let due := ds.deadline
    if ds.cls = 3 then d.composedTok r c ds.rd (keyRow key) k due
    else if ds.cls = 2 then
      d.each ((rdList ch.cfg).filter (fun rd => rd == 0 || !(scaledRd ch.cfg rd))) (fun d rd => d.composedTok r c rd (keyRow key) k due)
    else d

/-- DONE_OK (R222, R224, R230): the entry enters quarantine. -/
def execDoneOk (r idx gen : Nat) (s : State) : Host.Outcome State Fault Refusal :=
  s.onDev (fun d => d.onTag r idx gen (fun d ds _ inst _ _ =>
    let d := (d.endJob r idx inst ds false).freeEnt r idx ds
    let d := if (ds.cls = 2 ∨ ds.cls = 3) ∧ ds.noch = false then d.composed r ds else d
    (d.pump r).syncRach r))

/-- A held task ends FAILED (R16, R17, R206, R222, R230, R231): a coding job's failure counts for its block, and a decode job's
counted when BUF_BOUND ended it. -/
def Dev.failTask (d : Dev) (r idx gen : Nat) (ds : Desc) (inst : Nat) : Dev :=
  let d := ((d.endJob r idx inst ds true).freeEnt r idx ds).syncRach r
  let ix := classBlock ds.cls inst
  let d := d.err (blk r ix) 0x55 1 (idx + gen * 4096)
  let d := if ds.cls = 0 ∧ d.aborted r ds = false then d.jobFailure r ix else d
  (d.pump r).syncRach r

/-- In RECOVERY the task of a channel stopped with PREEMPTED ends as FAILED at its row boundary, which is no failure of its block
(R239). -/
def Dev.abortAt (d : Dev) (r idx : Nat) : Dev :=
  match tget? (d.rach r).ents idx with
  | some (.task ds _ (.held inst _) _) =>
    if d.aborted r ds then (((d.endJob r idx inst ds true).freeEnt r idx ds).pump r).syncRach r else d
  | _ => d

/-- DONE_FAILED (R16, R17, R206, R222, R230, R231, R478): a coding or decode job's failure is reported and counted. -/
def execDoneFailed (r idx gen : Nat) (s : State) : Host.Outcome State Fault Refusal :=
  s.onDev (fun d => d.onTag r idx gen (fun d ds _ inst _ _ => d.failTask r idx gen ds inst))

/-- A held task that returns to its ready list with its tag, slots and deadline unchanged (R230). -/
def Dev.repost (d : Dev) (r idx inst : Nat) (ds : Desc) (vals : List (Option (Nat × Nat))) (eff : Nat) : Dev :=
  let d := d.endJob r idx inst ds true
  ((d.setEnt r idx (.task ds vals .waiting eff)).toReady r idx).syncRach r

/-- The coding job of a task goes on one step lower on the ladder (R16); none where no coding job belongs to it. -/
def Dev.lowerStep (d : Dev) (r idx inst : Nat) (ds : Desc) : Option Dev :=
  match tget? d.ces (ceKey r inst) with
  | some j =>
    if ds.cls = 0 ∧ j.task = idx then some { d with ces := tput d.ces (ceKey r inst) { j with level := min 5 (j.level + 1) } } else none
  | none => none

/-- A failure that its cell passes up to the job of a held task (R15, R16, R480): the job is retried while it has slack, else a coding
job goes on one ladder step lower, and another fails. An injected error does not count toward R17. -/
def Dev.jobFails (d : Dev) (r idx : Nat) (inj : Bool) : Dev :=
  match tget? (d.rach r).ents idx with
  | some (.task ds vals (.held inst _) eff) =>
    let ix := classBlock ds.cls inst
    let count (d : Dev) : Dev :=
      let d := d.err (blk r ix) 0x55 1 (idx + d.entGen r idx * 4096) inj
      if ds.cls = 0 ∧ inj = false then d.jobFailure r ix else d
    if d.hasSlack r ds then (count (d.repost r idx inst ds vals eff)).syncRach r
    else
      match d.lowerStep r idx inst ds with
      | some d => count d
      | none => ((count ((d.endJob r idx inst ds true).freeEnt r idx ds)).pump r).syncRach r
  | _ => d

/-- DONE_REPOST (R16, R230): where the slack rule allows it, the task returns to its ready list; a coding job that has too little slack
is completed at a lower ladder step, and another job ends FAILED. -/
def execDoneRepost (r idx gen : Nat) (s : State) : Host.Outcome State Fault Refusal :=
  s.onDev (fun d => d.onTag r idx gen (fun d ds vals inst _ eff =>
    if d.hasSlack r ds then d.repost r idx inst ds vals eff
    else (d.lowerStep r idx inst ds).getD (d.failTask r idx gen ds inst)))

/-- DONE_YIELD (R239): an interrupted task returns to the head of its deadline order, and the core receives the task it was interrupted
for, or the first one where another core has taken that. -/
def execDoneYield (r idx gen : Nat) (s : State) : Host.Outcome State Fault Refusal :=
  s.onDev (fun d => d.onTag r idx gen (fun d ds vals inst intr eff =>
    match intr with
    | none => d
    | some b =>
      let d := d.setEnt r idx (.task ds vals (.ready 0) eff)
      let still : Bool := match tget? (d.rach r).ents b with
        | some (.task y _ (.ready _) _) => fwClass y.cls
        | _ => false
      match if still then some b else d.pick r 5 inst with
      | some j => (d.give r j inst ⟨.none, []⟩).syncRach r
      | none => d.syncRach r))

/-- TASK_QUARANTINE_END (R222, R233): the entry is free; a stalled post takes it. -/
def execTaskQuarantineEnd (r idx t : Nat) (s : State) : Host.Outcome State Fault Refusal :=
  s.onDev (fun d0 =>
    let d := d0.advanceTo t
    match tget? (d.rach r).ents idx with
    | some (.quar u) =>
      if u ≤ d.now then
        ((d.setRach r (fun x => { x with ents := tdel x.ents idx })).serveStalls r).syncRach r
      else d
    | _ => d)

/-! ## Modes (R239, R240) -/

/-- ADM_STATUS.INTERNAL (R57): the device is re-placing while any region is in RECOVERY. -/
def Dev.syncInternal (d : Dev) : Dev := d.wrB Reg.ADM_STATUS_INTERNAL pSHM (regions.any (fun r => d.raMode r == 3))

/-- Leaving TEST clears the armed injections (R481). -/
def Dev.disarm (d : Dev) (r : Nat) : Dev :=
  (d.each [0, 1, 2, 3] (fun d p => d.wr Reg.MP_INJ_ARM (blk r (ixMEMPORT + p)) 0)).wr Reg.RGN_SRAM_INJ_ARM (blk r ixRGN) 0

/-- A change of dispatch mode. -/
def Dev.setMode (d : Dev) (r m : Nat) : Dev :=
  let d := if d.raMode r = 2 ∧ m ≠ 2 then d.disarm r else d
  ((d.wr Reg.RA_MODE_MODE (blk r ixRACHIS) m).syncInternal.pump r).syncRach r

/-- The channels of the CL-4 personality and the openings of R447: admission opens when a region's firmware first enters
NORMAL. -/
def Dev.modeNormal (d : Dev) (r : Nat) : Dev :=
  if d.active r = false ∨ d.raMode r = 1 then d
  else
    let d := d.setMode r 1
    { d with sys := { d.sys with admOpen := true } }

/-- Whether a region carries a channel, a band or a protection role (R239). -/
def Dev.inService (d : Dev) (r : Nat) : Bool :=
  !((d.chansOn r).isEmpty) || (d.slotOf r).isSome || (d.stbyOf r).isSome

/-- RA_MODE_TEST (R239, R240): on a host request; refused and counted where the region is in service. -/
def execRaModeTest (r : Nat) (s : State) : Host.Outcome State Fault Refusal :=
  s.onDev (fun d =>
    let b := blk r ixRACHIS
    if d.active r = false ∨ d.raMode r ≠ 1 ∨ d.rd Reg.RA_MODE_REQ_TEST b = 0 then d
    else
      let d := d.wr Reg.RA_MODE_REQ_TEST b 0
      if d.inService r then d.countErr b else d.setMode r 2)

/-- RA_MODE_RECOVERY (R239). -/
def execRaModeRecovery (r : Nat) (s : State) : Host.Outcome State Fault Refusal :=
  s.onDev (fun d => if d.active r = true ∧ d.raMode r = 1 then d.setMode r 3 else d)

/-- A host's request for TEST needs no page lock (R240, R398). -/
def Dev.reqTest (d : Dev) (w r : Nat) : Dev :=
  if isHost w && d.pageAnswers w (blk r ixRACHIS) then d.wr Reg.RA_MODE_REQ_TEST (blk r ixRACHIS) 1 else d

/-- RA_REQ_TEST (R240, R398). -/
def execRaReqTest (w r : Nat) (s : State) : Host.Outcome State Fault Refusal := s.onDev (fun d => d.reqTest w r)

end Sys2Proof.Machine
end

