-- ==== Sys2Proof/Machine/Flows.lean ====
section
/-! DEFINITION. Ethernet ports as lanes form them (R325, R327), and flows: ranks and departure offsets (R255),
discards (R256), the moves of a port that goes down or comes up (R330, R331), and what follows the emission of a
tick slice (R78, R119, R270). -/

namespace Sys2Proof.Machine

/-! ## Committed values (R395) -/

/-- The RWS fields of a table at a base with their copies. -/
def rwsSlots (rows : List Row) : List (Row × Nat) :=
  (rows.filter (fun row => row.acc == .rws)).flatMap (fun row => (List.range (max 1 row.count)).map (fun i => (fixReset row i, i)))

/-- The shadows of a table as a pending set holds them. -/
def Dev.takeRows (d : Dev) (rows : List Row) (base : Nat) : Tbl Nat :=
  (rwsSlots rows).foldl (fun m x => tput m (x.1.key base x.2) (d.rdS x.1 base x.2)) []

/-- Makes the values of a pending set active, for one table. -/
def Dev.loadRows (d : Dev) (rows : List Row) (base : Nat) (vals : Tbl Nat) : Dev :=
  d.each (rwsSlots rows) (fun d x =>
    match tget? vals (x.1.key base x.2) with
    | some v => d.wr x.1 base v x.2
    | none => d)

/-! ## Ports (R325, R327) -/

/-- The lanes of the port that starts at `p`. -/
def Dev.portLanes (d : Dev) (r p : Nat) : List Nat :=
  let o := d.owners r
  (List.range 16).filter (fun n => o.getD n n == p)

/-- The line rate of an Ethernet port in Gb/s. -/
def Dev.lineGb (d : Dev) (r p : Nat) : Nat :=
  let g := r * 16 + p
  (if d.lnRate g = 0 then 25 else if d.lnRate g = 1 then 50 else 100) * widthOf (d.rd Reg.LN_PORT_WIDTH (lanePage g))

/-- Whether a port is up (R329). -/
def Dev.pUp (d : Dev) (r p : Nat) : Bool := d.isEth r p && d.rd Reg.LN_STAT_PORT_UP (lanePage (r * 16 + p)) == 1

/-! ## Flows and ranks (R255) -/

/-- A flow's state. -/
def Dev.flow (d : Dev) (r f : Nat) : Flow := tget d.flows (slotKey r f) Flow.init

/-- A change of a flow's state. -/
def Dev.setFlow (d : Dev) (r f : Nat) (g : Flow → Flow) : Dev :=
  { d with flows := tmod d.flows (slotKey r f) Flow.init g }

/-- A field of a flow (R248). -/
def Dev.flF (d : Dev) (r f : Nat) (row : Row) : Nat := d.rd row (wFLOW r f)

/-- The flows of a region that are ACTIVE or SUSPENDED. -/
def Dev.liveFlows (d : Dev) (r : Nat) : List Nat := d.flowsOf r (fun _ => true)

/-- Whether a flow is real-time (R252). -/
def Dev.isRt (d : Dev) (r f : Nat) : Bool := d.flF r f Reg.FL_CTRL_RT == 1

/-- OFS of a rank on a port: the wire time of 1,582 bytes per rank, rounded up to a ns. -/
def Dev.ofsOf (d : Dev) (r p rank : Nat) : Nat := ceilDiv (rank * 1582 * 8) (d.lineGb r p)

/-- OFS_f ≤ min(64 µs, T_s / 8) for a channel's slices. -/
def ofsFits (g : Tbl Nat) (ofs : Nat) : Bool :=
  ofs ≤ 64000 && ofs * 8 * slices g * (period g).2 ≤ (period g).1 * 1000000000

/-- The ranks held on a port: by its own real-time flows, moved away or not, and by those moved onto it. -/
def Dev.ranksOn (d : Dev) (r p : Nat) (skip : Option Nat) : List Nat :=
  (d.liveFlows r).flatMap (fun f =>
    if some f == skip || !(d.isRt r f) then []
    else (if d.flF r f Reg.FL_CTRL_PORT = p then [(d.flow r f).rank] else [])
      ++ (if (d.flow r f).port = p ∧ d.flF r f Reg.FL_CTRL_PORT ≠ p then [(d.flow r f).prank] else []))

/-- The lowest rank that none holds (R255). -/
def lowestRank (held : List Nat) : Nat := ((List.range (held.length + 1)).find? (fun i => !(held.contains i))).getD 0

/-- The real-time PIR sum of a port in kb/s, over the flows that send on it. -/
def Dev.rtOn (d : Dev) (r p : Nat) (skip : Option Nat) : Nat :=
  ((d.liveFlows r).filter (fun f => some f != skip && d.isRt r f && (d.flow r f).port == p)).foldl
    (fun a f => a + d.flF r f Reg.SH_PIR) 0

/-- The 90 % rule of R255. -/
def Dev.portFits (d : Dev) (r p kbps : Nat) : Bool := decide (kbps * 10 ≤ d.lineGb r p * 1000000 * 9)

/-- Reports FL_DEP.OFS_NS for the port a flow sends on; a best-effort flow has no departure offset. -/
def Dev.syncOfs (d : Dev) (r f : Nat) : Dev :=
  let x := d.flow r f
  d.wr Reg.FL_DEP_OFS_NS (wFLOW r f) (if d.isRt r f then d.ofsOf r x.port x.prank else 0)

/-- A flow's departure offset (R255). -/
def Dev.ofs (d : Dev) (r f : Nat) : Nat := d.flF r f Reg.FL_DEP_OFS_NS

/-! ## Discards (R256) -/

/-- Discards queued packets: each counts in FL_STATE.DROP, and in EG_CNT.LATE with its event where it is late. -/
def Dev.dropPkts (d : Dev) (r f : Nat) (late : Bool) (which : QPkt → Bool) : Dev :=
  let gone := (d.flow r f).queue.filter which
  if gone.isEmpty then d
  else
    let d := d.setFlow r f (fun x => { x with queue := x.queue.filter (fun q => !(which q)) })
    let d := d.incBy Reg.FL_STATE_DROP (wFLOW r f) gone.length
    let d := d.each gone (fun d q => d.emit (.drop r f q.seq))
    if late then
      let d := d.incBy Reg.EG_CNT_LATE (blk r ixEGRESS) gone.length
      let key := 0x8000 + slotKey r f
      if d.mayRaise key then
        (d.markRaised key).event (blk r ixEGRESS) 0 f (d.flF r f Reg.FL_STATE_GEN + d.flF r f Reg.FL_STATE_STATE * 256)
      else d
    else d

/-- The departure instant of a packet on its flow. -/
def Dev.pktAt (d : Dev) (r f : Nat) (q : QPkt) : Nat := q.dep + d.ofs r f

/-- T_s of a flow's channel in ns, times `n`, rounded up. -/
def Dev.flowTs (d : Dev) (r f n : Nat) : Nat := ceilDiv (tickTu (d.chan (d.flF r f Reg.FL_CTRL_CHANNEL)).cfg n) 65536

/-- A DELETE takes effect at the first tick slice that begins after it (R250, R251): the flow enters QUARANTINE, and the pair
partner is paired no more. -/
def Dev.flowEnds (d : Dev) (r f : Nat) : Dev :=
  match (d.flow r f).del with
  | none => d
  | some t =>
    if d.now < t + d.flowTs r f 1 ∧ (d.flow r f).queue.any (fun q => decide (t < q.dep) && decide (q.dep ≤ d.now)) = false then d
    else
      let d := d.setFlow r f (fun x => { x with del := none })
      let d := d.each (d.liveFlows r) (fun d y =>
        if d.flF r y Reg.FL_PAIR_EN = 1 ∧ d.flF r y Reg.FL_PAIR_FLOW = f then d.wr Reg.FL_PAIR_EN (wFLOW r y) 0 else d)
      d.flowQuar r f (d.now + d.quarFor (d.flF r f Reg.FL_CTRL_CHANNEL))

/-- Late packets of an ACTIVE flow (R256): a real-time packet still queued 2 × T_s after its slice's departure instant, a
best-effort packet queued for longer than 1 s. -/
def Dev.lateNow (d : Dev) (r f : Nat) : Dev :=
  if d.flF r f Reg.FL_STATE_STATE ≠ 1 then d
  else if d.isRt r f then d.dropPkts r f true (fun q => decide (d.pktAt r f q + d.flowTs r f 2 ≤ d.now))
  else d.dropPkts r f true (fun q => decide (q.enq + 1000000000 < d.now))

/-- Brings a flow to the present: packets of an earlier generation are stale; a MODIFY or DELETE applies at the first tick
slice that begins after it; a flow returns to its own port, or from SUSPENDED, at the first slice that its return allows, and what
is due before is discarded, as is what is late (R250, R251, R256, R330, R331). -/
def Dev.flowNow (d : Dev) (r f : Nat) : Dev :=
  let d := d.flowEnds r f
  let st := d.flF r f Reg.FL_STATE_STATE
  if st ≠ 1 ∧ st ≠ 2 then d
  else
    let gen := d.flF r f Reg.FL_STATE_GEN
    let stale := (d.flow r f).queue.filter (fun q => q.gen != gen)
    let d := if stale.isEmpty then d
      else (d.setFlow r f (fun x => { x with queue := x.queue.filter (fun q => q.gen == gen) })).incBy Reg.EG_CNT_STALE
        (blk r ixEGRESS) stale.length
    let due (d : Dev) (q : QPkt) : Bool := decide (d.pktAt r f q ≤ d.now)
    -- a waiting MODIFY
    let d : Dev := match (d.flow r f).pend with
      | some (t, vals) =>
        if (d.flow r f).queue.any (fun q => decide (t < q.dep) && due d q) then
          let x := d.flow r f
          let d := d.loadRows (Reg.rows_flow ++ Reg.rows_shaper) (wFLOW r f) vals
          let d := d.setFlow r f (fun _ =>
            { x with pend := none, sh := { x.sh with tc := min x.sh.tc (d.flF r f Reg.SH_CBS * 65536),
                                                     tp := min x.sh.tp ((d.flF r f Reg.SH_PBS * 65536 : Nat) : Int) } })
          d.syncOfs r f
        else d
      | none => d
    -- back on its own port
    let d : Dev := match (d.flow r f).back with
      | some t =>
        let x := d.flow r f
        let home := d.flF r f Reg.FL_CTRL_PORT
        let o := if d.isRt r f then d.ofsOf r home x.rank else 0
        if (x.queue.head?).any (fun (q : QPkt) => decide (t ≤ q.dep + o) && decide (q.dep + o ≤ d.now)) then
          (d.setFlow r f (fun x => { x with port := home, prank := x.rank, back := none })).syncOfs r f
        else d
      | none => d
    if d.flF r f Reg.FL_STATE_STATE = 2 then
      let x := d.flow r f
      if d.pUp r x.port then
        let d := d.dropPkts r f false (fun q => due d q && decide (d.pktAt r f q < x.resume))
        if (d.flow r f).queue.any (due d) then d.setFlState r f 1 else d
      else d.dropPkts r f false (due d)
    else
      let x := d.flow r f
      (d.dropPkts r f false (fun q => due d q && decide (d.pktAt r f q < x.resume))).lateNow r f

/-! ## After the emission of a tick slice (R78, R119, R270) -/

/-- The TS packets of a packetised slice. -/
def Du.tsPkts (u : Du) : List TsPkt :=
  (u.pkts.getD []).flatMap (fun p => match p.body with
    | .ts l => l
    | _ => [])

/-- Whether the ASI output of a CL-4 channel still has a packet of a slice to send (R423). -/
def Dev.asiWaits (d : Dev) (c : Nat) (u : Du) : Bool :=
  let cur := tget d.sys.tsOut c (0, 0, 0)
  d.cl4On && decide (c < 4) && bitOf (d.rd Reg.ASI_CTRL_EN cl4B) c && d.lnMode (4 + c) == 4 && !(d.region 0).killed
    && (decide (cur.1 < u.dep) || (cur.1 == u.dep && decide (cur.2.1 < u.tsPkts.length)))

/-- Whether a packet of slice `i` of a rendition still waits on a flow, or on the channel's ASI output. -/
def Dev.waitsFor (d : Dev) (c rd i : Nat) : Bool :=
  let r := d.lead c
  (d.rend c rd).dus.any (fun u => u.i == i && d.asiWaits c u) ||
  (d.liveFlows r).any (fun f => d.flowRd r f c rd && (d.flow r f).queue.any (fun q => q.du == i))

/-- Whether a stopping channel has emitted its last packet: every frame before the stop is captured, granted, coded and
sent in every rendition. -/
def Dev.drained (d : Dev) (c : Nat) : Bool :=
  let ch := d.chan c
  match ch.stopK with
  | none => false
  | some k =>
    let all (x : Rend) : Bool :=
      let e := (x.ended.map (fun e => min e k)).getD k
      decide ((e - x.firstK) * slices ch.cfg ≤ x.sent)
    let rends := (List.range 8).filterMap (fun rd => tget? d.rends (c * 8 + rd))
    let olds := (List.range 8).filterMap (fun rd => (tget? d.olds (c * 8 + rd)).map (·.1))
    let last := d.tickAt c k + ((latTu ch.cfg (b2n (d.protectedCh c)) : Nat) : Int)
    if (rends ++ olds).isEmpty then decide (last ≤ (d.nowTu : Int)) else (rends ++ olds).all all

/-- A channel that is STOPPING leaves for QUARANTINE when its last packet has departed (R78). -/
def Dev.stopCheck (d : Dev) (c : Nat) : Dev :=
  if d.chState c = 3 ∧ d.drained c = true then d.toQuarantine c else d

/-- Slices of a rendition whose departure instant has come and of which no packet waits are fully emitted, in order: the
emission word goes to the standby (R270), and a rendition that has emitted its last slice ends (R119). What a protected
channel's killed region discards has not been emitted. -/
def Dev.emittedOne (d : Dev) (c rd : Nat) : Dev :=
  let x := d.rend c rd
  let done := x.dus.filter (fun u => decide (x.sent ≤ u.i) && u.pkts.isSome && decide (u.dep ≤ d.now))
  let step (acc : Nat × Bool) (u : Du) : Nat × Bool :=
    if acc.2 && u.i == acc.1 && !(d.waitsFor c rd u.i) then (acc.1 + 1, true) else (acc.1, false)
  let sent := (done.foldl step (x.sent, true)).1
  if sent = x.sent ∨ (d.protectedCh c = true ∧ (d.region (d.lead c)).killed = true) then d
  else
    let gone := x.dus.filter (fun u => u.i < sent)
    let pcr := gone.foldl (fun a u => max a u.dep) x.pcrNs
    let d := d.setRend c rd (fun x =>
      { x with sent := sent, pcrNs := pcr, dus := x.dus.filter (fun u => sent ≤ u.i + 2),
               snaps := tkeep (fun k _ => sent ≤ k + 2) x.snaps })
    let d := if d.protectedCh c then
        ({ d with mirs := tmod d.mirs (c * 8 + rd) Mirror.init (fun m =>
            { m with emit := some (sent - 1, d.chGen c), dus := m.dus.filter (fun u => sent ≤ u.i + slices (d.chan c).cfg + 2),
                     got := m.got.filter (fun i => sent ≤ i) }) }).emit
          (.emission c rd ((sent - 1) % 2 ^ 32) (d.chGen c))
      else d
    match (d.rend c rd).ended with
    | some e =>
      let g := (d.chan c).cfg
      if (e - x.firstK) * slices g ≤ sent then d.endRend c rd (some ((d.tickAt c e).toNat / 65536)) else d
    | none => d

/-- STARTING becomes RUNNING when the start frame's first packet has departed (R78); where nothing is coded, at its
departure instant. -/
def Dev.runCheck (d : Dev) (c : Nat) : Dev :=
  let ch := d.chan c
  let first := d.tickAt c ch.startK + ((latTu ch.cfg (b2n (d.protectedCh c)) : Nat) : Int)
  let gone : Bool := if numRend ch.cfg = 0 then decide (first ≤ (d.nowTu : Int))
    else (rdList ch.cfg).any (fun rd => decide (1 ≤ (d.rend c rd).sent))
  if d.chState c = 1 ∧ gone = true then d.setChState c 2 else d

/-- The emission of a channel's renditions brought to the present. -/
def Dev.emitted (d : Dev) (c : Nat) : Dev :=
  let d := d.each (List.range 8) (fun d rd =>
    let d := match tget? d.olds (c * 8 + rd) with
      | some o => d.asOf c rd (o.1.ended.getD 0 - 1) (fun d => d.emittedOne c rd)
      | none => d
    if (tget? d.rends (c * 8 + rd)).isSome then d.emittedOne c rd else d)
  (d.runCheck c).stopCheck c

/-- A region's flows and the emission of its channels brought to the present. -/
def Dev.egressNow (d : Dev) (r : Nat) : Dev :=
  let d := d.each (d.liveFlows r) (fun d f => d.flowNow r f)
  d.each (d.liveChans.filter (fun c => d.lead c == r)) (fun d c => d.emitted c)

/-! ## Ports down and up (R330, R331, R346) -/

/-- The partner port that may take flows of port `p`: up, in the group, at the same line rate. -/
def Dev.partnerOf (d : Dev) (r p : Nat) : Option Nat :=
  let b := lanePage (r * 16 + p)
  let q := d.rd Reg.LN_PORT_PARTNER b
  if d.rd Reg.LN_PORT_PARTNER_EN b = 1 ∧ d.pUp r q = true ∧ q ≠ p ∧ q / 8 = p / 8 ∧ d.lineGb r q = d.lineGb r p then some q
  else none

/-- One ACTIVE flow of a port that has gone down: it moves to the partner, or is SUSPENDED. Tells whether it moved. -/
def Dev.flowLeaves (d : Dev) (r p f : Nat) : Dev × Bool :=
  let x := d.flow r f
  let susp := (d.setFlState r f 2, false)
  let paired := d.flF r f Reg.FL_PAIR_EN == 1 &&
    (d.flow r (d.flF r f Reg.FL_PAIR_FLOW)).port == d.rd Reg.LN_PORT_PARTNER (lanePage (r * 16 + p))
  match d.partnerOf r p with
  | none => susp
  | some q =>
    if paired || x.port != d.flF r f Reg.FL_CTRL_PORT then susp
    else
      let held := d.ranksOn r q (some f)
      let rank := if held.contains x.rank then lowestRank held else x.rank
      let g := (d.chan (d.flF r f Reg.FL_CTRL_CHANNEL)).cfg
      let fits := !(d.isRt r f) ||
        (ofsFits g (d.ofsOf r q rank) && d.portFits r q (d.rtOn r q (some f) + d.flF r f Reg.SH_PIR))
      if fits then
        let d := d.setFlow r f (fun x => { x with port := q, prank := rank, resume := d.now + 20000, back := none })
        (d.syncOfs r f, true)
      else susp

/-- Ports of a region that have gone down together: no flow moves to one of them (R330, R346). -/
def Dev.portsDown (d : Dev) (r : Nat) (ps : List Nat) : Dev :=
  let d := d.each ps (fun d p => d.wr Reg.LN_STAT_PORT_UP (lanePage (r * 16 + p)) 0)
  d.each ps (fun d p =>
    let mine := (d.liveFlows r).filter (fun f => (d.flow r f).port == p && d.flF r f Reg.FL_STATE_STATE == 1)
    let step (a : Dev × Nat × Nat) (f : Nat) : Dev × Nat × Nat :=
      let x := a.1.flowLeaves r p f
      if x.2 then (x.1, a.2.1 + 1, a.2.2) else (x.1, a.2.1, a.2.2 + 1)
    let z := mine.foldl step (d, 0, 0)
    let b := lanePage (r * 16 + p)
    let d := (z.1.incBy Reg.LN_MOVE_MOVED b z.2.1).incBy Reg.LN_MOVE_SUSP b z.2.2
    d.event b 3 (r * 16 + p) (z.2.1 % 65536 + z.2.2 % 65536 * 65536))

/-- A port has come up: the flows moved from it and those SUSPENDED on it return at the first tick slice that departs 20 µs
later or more (R331), and the memberships of the sources on it are reported (R328). -/
def Dev.portComesUp (d : Dev) (r p : Nat) : Dev :=
  let b := lanePage (r * 16 + p)
  let d := d.wr Reg.LN_STAT_PORT_UP b 1
  let d := d.each (d.liveFlows r) (fun d f =>
    let x := d.flow r f
    let home := d.flF r f Reg.FL_CTRL_PORT
    if home = p ∧ x.port ≠ p then
      if d.flF r f Reg.FL_STATE_STATE = 2 then
        (d.setFlow r f (fun x => { x with port := p, prank := x.rank, back := none, resume := d.now + 20000 })).syncOfs r f
      else d.setFlow r f (fun x => { x with back := some (d.now + 20000) })
    else if x.port = p ∧ d.flF r f Reg.FL_STATE_STATE = 2 then d.setFlow r f (fun x => { x with resume := d.now + 20000 })
    else d)
  let d := d.each d.liveChans (fun d c => d.reports c (· == r * 16 + p) true)
  d.event b 4 (r * 16 + p) 0

end Sys2Proof.Machine
end

