-- ==== Sys2Proof/Machine/Lanes.lean ====
section
/-! DEFINITION. Serial lanes (R325 to R346): configuration, equalisation, detectors, power states, port states, and the
legacy link (R334 to R339, R424). -/

namespace Sys2Proof.Machine

/-! ## Lanes -/

/-- A lane's state. -/
def Dev.lane (d : Dev) (g : Nat) : LaneSt := tget d.lanes g LaneSt.init

/-- A change of a lane's state. -/
def Dev.setLane (d : Dev) (g : Nat) (f : LaneSt → LaneSt) : Dev := { d with lanes := tmod d.lanes g LaneSt.init f }

/-- The global lanes of a port. -/
def Dev.gLanes (d : Dev) (g : Nat) : List Nat := (d.portLanes (g / 16) (g % 16)).map (fun n => g / 16 * 16 + n)

/-- The global lanes that carry the source of an admitted channel, its second feed included (R86, R267). -/
def Dev.sourceLanes (d : Dev) : List Nat :=
  d.liveChans.flatMap (fun c =>
    let g := (d.chan c).cfg
    if feedOn g || cf g Reg.SRC_CTRL_IF == 2 then (d.sourcePorts c).flatMap d.gLanes
    else
      let n := if cf g Reg.SRC_CTRL_IF = 1 then 4 else 1
      (List.range n).map (fun i => cf g Reg.SRC_CTRL_LANE + i)
        ++ (if d.protectedCh c then (List.range n).map (fun i => cf g Reg.SRC_CTRL_STBY_LANE + i) else []))

/-- The power state of a lane (R344): off while the region core does not run. -/
def Dev.pstateOf (d : Dev) (srcs : List Nat) (g : Nat) : Nat :=
  let b := lanePage g
  let m := d.lnMode g
  let pw := (d.region (g / 16)).pwr
  if m = 0 then 3
  else if pw = .park then 2
  else if (d.region (g / 16)).core ≠ .run then 3
  else if pw = .nap then (if d.rd Reg.LN_CFG_PSTATE_NAP b = 1 then 2 else 1)
  else if m = 1 then
    (if d.rd Reg.LN_PORT_ADMIN_UP (lanePage (g / 16 * 16 + d.owner (g / 16) (g % 16))) = 1 then 0 else 1)
  else if m = 2 then (if d.rd Reg.LN_CFG_SDI_LOOP b = 1 ∨ srcs.contains g = true then 0 else 1)
  else 0

/-! ## Equalisation (R341, R342) -/

/-- The rate class of a lane's mode and rate; `sdi` is the SDI rate that the lane receives. -/
def eqClass (mode rate sdi : Nat) : Nat :=
  let x := if rate = 0 then sdi else rate
  if mode = 1 then rate
  else if mode = 2 then (if x ≤ 2 then 3 else x + 1)
  else if mode = 3 then (if rate ≤ 2 then 7 else 8)
  else 9

/-- Groups of four numbers: global lane, class, seeds, adapted entry, as record 3 is kept. -/
def adaptEntries : List Nat → List (Nat × Nat × Nat × Nat)
  | g :: k :: e :: v :: t => (g, k, e, v) :: adaptEntries t
  | _ => []

/-- The stored adapted entry of a lane and class, where its seeds equal the table's. -/
def Dev.storedAdapt (d : Dev) (g k entry : Nat) : Option Nat :=
  match d.newest 3 with
  | some (_, c) => ((adaptEntries c.body).find? (fun x => x.1 == g && x.2.1 == k && x.2.2.1 == entry)).map (fun x => x.2.2.2)
  | none => none

/-- Puts an entry's settings into LN_EQ and LN_DFE; fields that the lane ignores read 0: the transmit taps of an SDI lane without
loop-through, the receive fields of ASI, and DFE seeds outside classes 0 to 2, 5 and 6. -/
def Dev.useEq (d : Dev) (g k v : Nat) : Dev :=
  let b := lanePage g
  let tx := if d.lnMode g = 2 ∧ d.rd Reg.LN_CFG_SDI_LOOP b = 0 then 0 else v % 2 ^ 15
  let rx := if k = 9 then 0 else bitsOf v 16 8
  let dfe := if k ≤ 2 ∨ k = 5 ∨ k = 6 then bitsOf v 24 32 else 0
  (d.wr Reg.LN_EQ b (tx + bitsOf v 15 1 * 2 ^ 15 + rx * 2 ^ 16 + dfe % 256 * 2 ^ 24)).wr Reg.LN_DFE b dfe

/-- Loads a lane's table entry, or the built-in setting of the class, whose values the spec does not give. -/
def Dev.loadEq (d : Dev) (g : Nat) : Dev :=
  let b := lanePage g
  let k := eqClass (d.lnMode g) (d.lnRate g) (d.rd Reg.LN_STAT_SDI_RATE b)
  let v := match d.nvm.eqTable with
    | some t => fromLE ((t.drop (d.sys.boardId % 16 * 16384 + (g * 16 + k) * 8)).take 8)
    | none => 0
  let d := d.wr Reg.LN_STAT_ADAPT_LIMIT b 0
  if bitOf v 15 && k < 10 && bitsOf v 0 4 + bitsOf v 4 6 + bitsOf v 10 5 ≤ 63 then
    let d := (d.wr Reg.LN_STAT_EQ_DEFAULT b 0).setLane g (fun x => { x with entry := v })
    d.useEq g k (if k = 1 ∨ k = 2 then (d.storedAdapt g k v).getD v else v)
  else
    let x := d.freeVal
    let d := ((d.freeNext.wr Reg.LN_STAT_EQ_DEFAULT b 1).setLane g (fun x => { x with entry := 0 })).useEq g k x
    d.event b 5 g 0

/-! ## The legacy link (R334 to R339) -/

/-- The page of the legacy link's first lane (R334). -/
def ll11 : Nat := lanePage 11

/-- Whether the legacy link's lanes are in LEGACY mode. -/
def Dev.llMode (d : Dev) : Bool := d.lnMode 11 == 3

/-- The legacy link's width (R334). -/
def Dev.llWidth (d : Dev) : Nat := d.rd Reg.LN_STAT_LL_WIDTH ll11

/-- A change of the legacy link's state. -/
def Dev.setLeg (d : Dev) (f : LegSt → LegSt) : Dev := { d with leg := f d.leg }

/-- Whether the link's transmitters run. -/
def Dev.llSends (d : Dev) : Bool := d.llMode && !(d.region 0).killed && (!(d.cl4On) || d.rd Reg.LL_CTRL_EN cl4B == 1)

/-- The lane rates of the LEGACY mode in Mb/s (R325). -/
def legMbps : Nat → Nat
  | 0 => 1250
  | 1 => 2500
  | 2 => 3125
  | 3 => 4250
  | 4 => 5000
  | _ => 6250

/-- The ns that a frame of `n` bytes takes on the lanes in use: SOF, its slots and EOF, of 10 bits each (R335, R336). -/
def Dev.llSpan (d : Dev) (n : Nat) : Nat :=
  let lanes := if d.llWidth = 0 then 4 else 2
  ceilDiv ((ceilDiv n lanes + 2) * 10000) (legMbps (d.lnRate 11))

/-- The frame in progress, if one is. -/
def Dev.llBusy (d : Dev) : Option (Nat × Nat × List Byte) :=
  match d.leg.last with
  | some (q, e) => if d.now < e then some q else none
  | none => none

/-- Sends the frames whose turn has come, one after the other, unless XOFF or a width change holds them (R337, R338). -/
def Dev.llFlush (d : Dev) : Dev :=
  if d.leg.xoff || d.leg.sent.isSome || d.llWidth == 3 || !d.llSends then d
  else
    d.each d.leg.queue (fun d q =>
      let start := max q.1 (max d.leg.openAt ((d.leg.last.map (·.2)).getD 0))
      if d.leg.queue.head? = some q ∧ start ≤ d.now then
        let e := start + d.llSpan q.2.2.length
        (d.setLeg (fun x => { x with queue := x.queue.tail, last := some (q, e) })).emit (.llFrame (if d.llWidth = 0 then 4 else 2) q.2.2)
      else d)

/-- Frames may go from now on. -/
def Dev.llOpen (d : Dev) : Dev := (d.setLeg (fun x => { x with openAt := d.now })).llFlush

/-- The frame in progress ends with ABORT, and waits to be sent again in full where `again` says so (R338, R345). -/
def Dev.llCut (d : Dev) (again : Bool) : Dev :=
  match d.llBusy with
  | some q =>
    let d := d.setLeg (fun x => { x with queue := if again then q :: x.queue else x.queue, last := none })
    (d.emit (.llSym 3 0)).inc Reg.LN_LL_ABORTS ll11
  | none => d

/-- The link goes down (R339): LL_DOWN, and the CL-4's alarm; the frame in progress and those that wait are lost. -/
def Dev.llDown (d : Dev) : Dev :=
  if d.llWidth = 3 then d
  else
    let d := d.llFlush
    let n := d.leg.queue.length + b2n d.llBusy.isSome
    let d := (d.wr Reg.LN_STAT_LL_WIDTH ll11 3).incBy Reg.LN_LL_ABORTS ll11 n
    let d := d.setLeg (fun x => { x with sent := none, rcvd := none, queue := [], last := none })
    (d.event ll11 7 11 0).cl4Alarm Reg.ALARM_LL_DOWN 1

/-- Egress-kill on the legacy link (R345, R346): the frame in progress ends with ABORT, and a change of width is abandoned. -/
def Dev.llKill (d : Dev) : Dev := ((d.llFlush).llCut false).setLeg (fun x => { x with sent := none, rcvd := none })

/-- A change of width, which begins with ALIGN (R338). -/
def Dev.llChange (d : Dev) (w : Nat) : Dev :=
  if d.llWidth = w then d
  else
    let d := ((d.emit (.llSym 4 w)).wr Reg.LN_STAT_LL_WIDTH ll11 w).inc Reg.LN_LL_FALLBACKS ll11
    d.event ll11 6 11 w

/-- Both sides have named the pair: the link runs on it (R338). -/
def Dev.llSettle (d : Dev) : Dev :=
  match d.leg.sent, d.leg.rcvd with
  | some a, some b =>
    if a = b then ((d.setLeg (fun x => { x with sent := none, rcvd := none })).llChange a).llOpen else d.llDown
  | _, _ => d

/-- Names a pair to the peer (R338): the frame in progress ends with ABORT, and WIDTH is sent 8 times. -/
def Dev.llName (d : Dev) (pair : Nat) : Dev :=
  let d := d.llFlush.llCut true
  let d := d.each (List.range 8) (fun d _ => d.emit (.llSym 2 pair))
  (d.setLeg (fun x => { x with sent := some pair, failAt := d.now })).llSettle

/-- The link after a change of its lanes (R338, R339). -/
def Dev.llCheck (d : Dev) : Dev :=
  if !d.llMode || d.llWidth = 3 then d
  else
    let b15 := lanePage 15
    let bad := [11, 12, 13, 14].filter d.laneFailed
    let low := bad.any (fun g => g < 13)
    let high := bad.any (fun g => 13 ≤ g)
    if d.rd Reg.LN_STAT_LOS b15 = 1 ∨ d.rd Reg.LN_STAT_LOL b15 = 1 ∨ (low = true ∧ high = true)
        ∨ (d.cl4On = true ∧ bad.isEmpty = false) then d.llDown
    else
      let want := if low then 2 else if high then 1 else d.llWidth
      if want = d.llWidth ∨ d.leg.sent = some want ∨ (d.region 0).killed = true then d
      else d.llName want

/-! ## Port states (R329) -/

/-- Whether none of the causes of R329 holds. -/
def Dev.portClear (d : Dev) (r p : Nat) : Bool :=
  let g := r * 16 + p
  d.rd Reg.LN_PORT_ADMIN_UP (lanePage g) == 1 && !(d.lane g).fail && !(d.region r).killed &&
    (d.gLanes g).all (fun x =>
      d.rd Reg.LN_STAT_PSTATE (lanePage x) == 0 && d.rd Reg.LN_STAT_LOS (lanePage x) == 0 && d.rd Reg.LN_STAT_LOL (lanePage x) == 0)

/-- The first lane of a channel's SDI source: in a region that took the channel over, the standby's (R86). -/
def Dev.srcLane (d : Dev) (c : Nat) : Nat :=
  let a := cf (d.chan c).cfg Reg.SRC_CTRL_LANE
  if a / 16 = d.lead c ∨ d.protectedCh c = false then a else cf (d.chan c).cfg Reg.SRC_CTRL_STBY_LANE

/-- The links of an SDI source whose lanes are not in sync, by bit. -/
def Dev.linksLost (d : Dev) (c : Nat) : Nat :=
  (List.range (if cf (d.chan c).cfg Reg.SRC_CTRL_IF = 1 then 4 else 1)).foldl (fun a i =>
    a + b2n (d.rd Reg.LN_STAT_SYNC (lanePage (d.srcLane c + i)) == 0) * 2 ^ i) 0

/-- The lost links of a quad-link source (R90, R91): a link that is lost is so at once, and rejoins only at a source frame at which it
is aligned with the others (`aligned` by bit, 0 where no source frame starts); QUAD_LANE_LOST tells of the only link lost. -/
def Dev.quadSync (d : Dev) (c aligned : Nat) : Dev :=
  let ch := d.chan c
  if cf ch.cfg Reg.SRC_CTRL_IF ≠ 1 ∨ feedOn ch.cfg = true then d
  else
    let m := Nat.lor (Nat.land ch.quadSeen (15 - aligned % 16)) (d.linksLost c)
    let d := (d.setChan c (fun x => { x with quadSeen := m })).wr Reg.CMP_QUAD_LOST (wCMP c) m
    match [1, 2, 4, 8].findIdx? (· == m) with
    | some i => if bitOf ch.quadSeen i then d else d.event (blk (d.lead c) ixCAPTURE) 3 c (i + 1)
    | none => d

/-- The state of a lane's transmitter, as `Out.laneTx` gives it (R333, R344, R345): an SDI lane sends only what it loops through, and not
while it shows LOS or LOL; egress-kill idles every transmitter. -/
def Dev.txOf (d : Dev) (g : Nat) : Nat :=
  let b := lanePage g
  let ps := d.rd Reg.LN_STAT_PSTATE b
  let sdi := d.lnMode g == 2
  if 2 ≤ ps ∨ (sdi = true ∧ d.rd Reg.LN_CFG_SDI_LOOP b = 0) then 0
  else if ps = 1 ∨ (d.region (g / 16)).killed = true ∨ (d.lnMode g = 3 ∧ d.llSends = false) then 1
  else if sdi then (if d.rd Reg.LN_STAT_LOS b = 1 ∨ d.rd Reg.LN_STAT_LOL b = 1 then 1 else 3)
  else 2

/-- A lane's transmitter goes to its state. -/
def Dev.laneTx (d : Dev) (g : Nat) : Dev :=
  let x := d.txOf g
  if (d.lane g).tx = x then d else (d.setLane g (fun y => { y with tx := x })).emit (.laneTx g x)

/-- A region's lanes and ports brought to the present after a change: power states with the detectors that read 0 in P2 and
P3 (R343, R344), the entry loaded on leaving them (R342), the transmitters (R333), ports that go down (R329, R330), and the legacy
link. -/
def Dev.lanesNow (d : Dev) (r : Nat) : Dev :=
  let srcs := d.sourceLanes
  let d := d.each ((List.range 16).map (fun n => r * 16 + n)) (fun d g =>
    let b := lanePage g
    let was := d.rd Reg.LN_STAT_PSTATE b
    let ps := d.pstateOf srcs g
    let d := d.wr Reg.LN_STAT_PSTATE b ps
    let d := if 2 ≤ ps then
        let d := ((d.wr Reg.LN_STAT_LOS b 0).wr Reg.LN_STAT_LOL b 0).wr Reg.LN_STAT_SYNC b 0
        (d.wr Reg.LN_STAT_SDI_RATE b 0).wr Reg.LN_STAT_SDI_FRAC b 0
      else if 2 ≤ was then d.loadEq g
      else d
    let d := d.laneTx g
    d.setLane g (fun x => { x with okAt := if d.laneFailed g then none else some (x.okAt.getD d.now) }))
  let ps := List.range 16
  let d := d.each ps (fun d p =>
    if d.isEth r p && d.portClear r p then
      d.setLane (r * 16 + p) (fun x => { x with clear := some (x.clear.getD d.now) })
    else d.setLane (r * 16 + p) (fun x => { x with clear := none }))
  let down := ps.filter (fun p => d.rd Reg.LN_STAT_PORT_UP (lanePage (r * 16 + p)) == 1 && !(d.isEth r p && d.portClear r p))
  let d := d.portsDown r down
  let d := d.each (d.liveChans.filter (fun c => d.lead c == r)) (fun d c => d.quadSync c 0)
  if r = 0 then d.llCheck else d

/-! ## Detectors (R332, R343) -/

/-- LANE_LOS, LANE_LOL or LANE_SYNC, at most once per TB second per lane. -/
def Dev.laneEvent (d : Dev) (g kind : Nat) : Dev :=
  let key := 0x1000000 + kind * 0x100 + g
  if d.mayRaise key then (d.markRaised key).event (lanePage g) kind g 0 else d

/-- Loss of lock of a lane: shown, counted and raised once (R329, R343). -/
def Dev.declareLol (d : Dev) (g : Nat) : Dev :=
  let b := lanePage g
  if d.rd Reg.LN_STAT_LOL b = 1 then d
  else ((d.wr Reg.LN_STAT_LOL b 1).inc Reg.LN_CNT0_LOL b).laneEvent g 1

/-- LN_STAT.PPM, in tens of ppm (R347). -/
def Dev.setPpm (d : Dev) (g : Nat) (ppm : Int) : Dev :=
  d.wrI Reg.LN_STAT_PPM (lanePage g) (clampInt (-128) 127 (floorDiv ppm 10))

/-- LANE_LOS (R343): LOL holds always while LOS does. -/
def execLaneLos (g t : Nat) (s : State) : Host.Outcome State Fault Refusal :=
  s.onDev (fun d0 =>
    let d := d0.advanceTo t
    let b := lanePage g
    if d.detects g = false ∨ d.rd Reg.LN_STAT_LOS b = 1 ∨ d.lnMode g = 4 then d
    else
      let d := ((d.wr Reg.LN_STAT_LOS b 1).inc Reg.LN_CNT0_LOS b).laneEvent g 0
      (d.declareLol g).lanesNow (g / 16))

/-- LANE_LOS_CLEAR (R343). -/
def execLaneLosClear (g t : Nat) (s : State) : Host.Outcome State Fault Refusal :=
  s.onDev (fun d0 =>
    let d := d0.advanceTo t
    if d.detects g then (d.wr Reg.LN_STAT_LOS (lanePage g) 0).lanesNow (g / 16) else d)

/-- LANE_LOL (R343). -/
def execLaneLol (g t : Nat) (ppm : Int) (s : State) : Host.Outcome State Fault Refusal :=
  s.onDev (fun d0 =>
    let d := d0.advanceTo t
    if d.detects g = false ∨ d.lnMode g = 4 then d else ((d.setPpm g ppm).declareLol g).lanesNow (g / 16))

/-- LANE_LOL_CLEAR (R343): the error within 500 ppm and no LOS. -/
def execLaneLolClear (g t : Nat) (ppm : Int) (s : State) : Host.Outcome State Fault Refusal :=
  s.onDev (fun d0 =>
    let d := d0.advanceTo t
    if d.detects g then
      let d := d.setPpm g ppm
      if ppm.natAbs ≤ 500 ∧ d.rd Reg.LN_STAT_LOS (lanePage g) = 0 then
        (d.wr Reg.LN_STAT_LOL (lanePage g) 0).lanesNow (g / 16)
      else d
    else d)

/-- LANE_SYNC_GAIN (R332, R343): an SDI lane locks at its RATE only, or at any with RATE 0x0, and reports the rate and the
payload identifier it receives. -/
def execLaneSyncGain (g rate frac pid t : Nat) (s : State) : Host.Outcome State Fault Refusal :=
  s.onDev (fun d0 =>
    let d := d0.advanceTo t
    let b := lanePage g
    let m := d.lnMode g
    let quiet : Bool := d.rd Reg.LN_STAT_LOS b == 0 && d.rd Reg.LN_STAT_LOL b == 0
    let fits : Bool := if m = 2 then
        quiet && decide (1 ≤ rate ∧ rate ≤ 5) && (d.lnRate g == 0 || (d.lnRate g == rate && d.rd Reg.LN_CFG_SDI_FRAC b == frac % 2))
      else if m = 3 then quiet else m == 1
    if d.detects g && fits then
      let d := d.wr Reg.LN_STAT_SYNC b 1
      let d := if m = 2 then
          let d := ((d.wr Reg.LN_STAT_SDI_RATE b rate).wr Reg.LN_STAT_SDI_FRAC b frac).wr Reg.LN_SDI_PID b pid
          if d.lnRate g = 0 then d.loadEq g else d
        else d
      let p := d.owner (g / 16) (g % 16)
      let all := (d.gLanes (g / 16 * 16 + p)).all (fun x => d.rd Reg.LN_STAT_SYNC (lanePage x) == 1)
      let d := if m = 1 ∧ all = true then d.setLane (g / 16 * 16 + p) (fun x => { x with fail := false }) else d
      d.lanesNow (g / 16)
    else d)

/-- LANE_SYNC_LOSS (R332, R343): the rate fields read 0, and without its lanes' lock the PCS of a port reports FAIL. -/
def execLaneSyncLoss (g t : Nat) (s : State) : Host.Outcome State Fault Refusal :=
  s.onDev (fun d0 =>
    let d := d0.advanceTo t
    let b := lanePage g
    if d.detects g && d.rd Reg.LN_STAT_SYNC b == 1 then
      let d := ((d.wr Reg.LN_STAT_SYNC b 0).wr Reg.LN_STAT_SDI_RATE b 0).wr Reg.LN_STAT_SDI_FRAC b 0
      let d := (d.inc Reg.LN_CNT1_SYNC_LOSS b).laneEvent g 2
      let p := g / 16 * 16 + d.owner (g / 16) (g % 16)
      let d := if d.lnMode g = 1 then d.setLane p (fun x => { x with fail := true }) else d
      d.lanesNow (g / 16)
    else d)

/-- PCS_LINK_FAIL (R329): the port goes down. -/
def execPcsLinkFail (g t : Nat) (s : State) : Host.Outcome State Fault Refusal :=
  s.onDev (fun d0 =>
    let d := d0.advanceTo t
    if d.isEth (g / 16) (g % 16) then (d.setLane g (fun x => { x with fail := true })).lanesNow (g / 16) else d)

/-- PORT_UP (R329, R331): the port has been clear for UP_HOLD × 10 ms. -/
def execPortUp (g t : Nat) (s : State) : Host.Outcome State Fault Refusal :=
  s.onDev (fun d0 =>
    let d := d0.advanceTo t
    let hold := d.rd Reg.LN_PORT_UP_HOLD (lanePage g) * 10000000
    match (d.lane g).clear with
    | some c =>
      if d.isEth (g / 16) (g % 16) && d.rd Reg.LN_STAT_PORT_UP (lanePage g) == 0 && decide (c + hold ≤ d.now) then
        d.portComesUp (g / 16) (g % 16)
      else d
    | none => d)

/-! ## Configuration (R348) -/

/-- The rules of R337 for the LL_MAP entries that a commit would make active. -/
def Dev.llMapOk (d : Dev) (mode rate : Nat) : Bool :=
  let ens := (List.range 8).filter (fun i => d.rdS Reg.LL_MAP_EN ll11 i == 1)
  let inside := (List.range 8).all (fun i => decide (d.rdS Reg.LL_MAP_CHANNEL ll11 i ≤ 7))
  let chOf (i : Nat) : Nat := d.rdS Reg.LL_MAP_CHANNEL ll11 i
  let rdOf (i : Nat) : Nat := d.rdS Reg.LL_MAP_RENDITION ll11 i
  let ok (i : Nat) : Bool :=
    let g := (d.chan (chOf i)).cfg
    let e := cfR g (rdOf i) Reg.OUT_CTRL_ENCAP
    d.live (chOf i) && d.lead (chOf i) == 0 && rdOf i < numRend g && (e == 1 || e == 2)
  let sum := ens.foldl (fun a i =>
    let g := (d.chan (chOf i)).cfg
    a + rSig g (rdOf i) * cfR g (rdOf i) Reg.RC_CTRL_PEAK) 0
  inside && (ens.isEmpty ||
    (d.sys.mode == 0 && mode == 3 && ens.all ok && decide (sum * 10 ≤ 2 * legMbps rate * 1000000 * 8 * 9 * 16 / 10)))

/-- A MODE, RATE and width that R325 and R327 define for lane `n`. -/
def laneCombo (mode rate width n : Nat) : Bool :=
  if mode = 1 then
    let l := widthOf width
    [(0, 1), (0, 4), (1, 1), (1, 2), (1, 4), (1, 8), (2, 1), (2, 2), (2, 4)].contains (rate, l) && n % l == 0
  else width == 0 && (mode == 0 || (mode == 2 && rate ≤ 5) || (mode == 3 && rate ≤ 5) || (mode == 4 && rate == 0))

/-- Whether lane `n` of region 0 belongs to the legacy link of lane 11 (R334). -/
def Dev.inLink (d : Dev) (r n : Nat) : Bool := r == 0 && 12 ≤ n && n ≤ 15 && d.llMode

/-- The lanes that a commit of MODE and width at lane `n` configures. -/
def configLanes (r n mode width : Nat) : List Nat :=
  if mode = 1 then (List.range (widthOf width)).map (· + n)
  else if mode = 3 ∧ r = 0 ∧ n = 11 then [11, 12, 13, 14, 15]
  else [n]

/-- The checks of R348 on the shadows of lane `n`, among them where each mode may stand (R326): the code of the first that fails. -/
def Dev.laneCheck (d : Dev) (r n : Nat) : Nat :=
  let b := lanePage (r * 16 + n)
  let link := d.inLink r n
  let mode := if link then 3 else d.rdS Reg.LN_CFG_MODE b
  let rate := if link then d.lnRate (r * 16 + n) else d.rdS Reg.LN_CFG_RATE b
  let width := d.rdS Reg.LN_PORT_WIDTH b
  let hold := d.rdS Reg.LN_PORT_UP_HOLD b
  let los := d.rdS Reg.LN_DET_LOS_MV b
  let part := d.rdS Reg.LN_PORT_PARTNER b
  let o := d.owners r
  let new_ := configLanes r n mode width
  let taken (x : Nat) : Bool :=
    (o.getD x x != n && d.lnMode (r * 16 + o.getD x x) == 1) || (x != n && !(d.lnMode (r * 16 + x) == 0) && o.getD x x != n
      && !(d.inLink r x))
  let where_ : Bool :=
    (mode != 3 || (r == 0 && 11 ≤ n)) && (mode != 4 || (r == 0 && 4 ≤ n && n ≤ 7 && d.cl4On))
      && !(d.sys.mode == 1 && r != 0 && mode != 0)
  let partner : Bool := mode != 1 || d.rdS Reg.LN_PORT_PARTNER_EN b == 0 || (part != n && part / 8 == n / 8)
  let maps : Bool := !(r == 0 && n == 11) || d.llMapOk mode rate
  if !(laneCombo mode rate width n) || hold = 0 || los < 40 || 200 < los || new_.any taken || !where_ || !partner || !maps then 0x44
  else
    let changed := mode != d.lnMode (r * 16 + n) || rate != d.lnRate (r * 16 + n) || width != d.rd Reg.LN_PORT_WIDTH b
    let lanes := new_ ++ d.portLanes r n
    let srcs := d.sourceLanes
    let flows := d.flows.any (fun x =>
      x.1 / 2048 == r && d.rd Reg.FL_STATE_STATE (wFLOW r (x.1 % 2048)) != 0 &&
        lanes.any (fun y => d.rd Reg.FL_CTRL_PORT (wFLOW r (x.1 % 2048)) == y || x.2.port == y))
    let mapped := r == 0 && n == 11 && d.llMode && (List.range 8).any (fun i => d.rd Reg.LL_MAP_EN ll11 i == 1)
    if changed && (lanes.any (fun x => srcs.contains (r * 16 + x)) || flows || mapped) then 0x45 else 0

/-- The island's standing copy of class C (R454). -/
def Dev.syncCopy (d : Dev) (r : Nat) : Dev :=
  let copy := tkeep (fun k _ => (lanePage (r * 16) * 32 ≤ k && k < (lanePage (r * 16) + 0x10000) * 32) && classOf k == some .c) d.regs
  d.setRegion r (fun x => { x with laneCopy := copy })

/-- The lanes configured together with lane `n`: those of its port, or the legacy link's. -/
def Dev.groupLanes (d : Dev) (r n : Nat) : List Nat :=
  if r = 0 ∧ n = 11 ∧ d.llMode = true then [11, 12, 13, 14, 15] else d.portLanes r n

/-- A lane loads its equalisation entry and its detectors start over. -/
def Dev.restartLane (d : Dev) (g : Nat) : Dev :=
  let q := lanePage g
  let d := ((d.wr Reg.LN_STAT_LOS q 0).wr Reg.LN_STAT_LOL q 0).wr Reg.LN_STAT_SYNC q 0
  let d := (d.wr Reg.LN_STAT_SDI_RATE q 0).wr Reg.LN_STAT_SDI_FRAC q 0
  let d := d.setLane g (fun y => { y with fail := true })
  if d.lnMode g = 0 then d else d.loadEq g

/-- A pending set of lane `n` becomes active (R327, R334, R346, R348): every lane of the port or link takes MODE and RATE, lanes
that leave it are OFF, and the detectors restart under a new setting. -/
def Dev.laneApply (d : Dev) (r n : Nat) (vals : Tbl Nat) : Dev :=
  let g := r * 16 + n
  let b := lanePage g
  let before := (d.lnMode g, d.lnRate g, d.rd Reg.LN_PORT_WIDTH b)
  let link := d.inLink r n
  let old := d.groupLanes r n
  let d := d.loadRows (Reg.rows_lane.filter (fun row =>
    r == 0 && n == 11 || !([Reg.LL_MAP_CHANNEL, Reg.LL_MAP_RENDITION, Reg.LL_MAP_EN, Reg.LL_MAP_STREAM_ID, Reg.LL_MAP_GEN].contains row))) b vals
  let d := if link then (d.wr Reg.LN_CFG_MODE b before.1).wr Reg.LN_CFG_RATE b before.2.1 else d
  let mode := d.lnMode g
  let rate := d.lnRate g
  let new_ := configLanes r n mode (d.rd Reg.LN_PORT_WIDTH b)
  let changed := before != (mode, rate, d.rd Reg.LN_PORT_WIDTH b)
  let d := d.each (old.filter (fun x => !(new_.contains x))) (fun d x => d.wr Reg.LN_CFG_MODE (lanePage (r * 16 + x)) 0)
  let d := d.each new_ (fun d x => (d.wr Reg.LN_CFG_MODE (lanePage (r * 16 + x)) mode).wr Reg.LN_CFG_RATE (lanePage (r * 16 + x)) rate)
  let d := if changed then
      let d := d.each (old ++ new_).eraseDups (fun d x => d.restartLane (r * 16 + x))
      if r = 0 ∧ n = 11 then d.llDown else d
    else d.each (new_.filter (fun x => !(d.lnMode (r * 16 + x) == 0))) (fun d x => d.loadEq (r * 16 + x))
  (d.lanesNow r).syncCopy r

/-! ## Legacy link commands (R335 to R339, R424) -/

/-- A control symbol that the CL-4 personality does not use counts as a code error (R335). -/
def Dev.cl4Symbol (d : Dev) (f : Dev → Dev) : Dev :=
  if !d.llMode then d else if d.cl4On then d.inc Reg.LN_CNT1_CODE_ERR ll11 else f d

/-- LL_WIDTH_RX (R338): the peer names a pair, or four lanes. -/
def execLlWidthRx (dcode : Nat) (s : State) : Host.Outcome State Fault Refusal :=
  s.onDev (fun d => d.cl4Symbol (fun d =>
    if d.llWidth = 3 ∨ 2 < dcode then d
    else if dcode = 0 then
      let d := if d.llWidth = 0 then d else (d.llFlush.llCut true).emit (.llSym 2 0)
      ((d.setLeg (fun x => { x with sent := none, rcvd := none })).llChange 0).llOpen
    else
      let d := d.setLeg (fun x => { x with rcvd := some dcode })
      if d.leg.sent.isSome then d.llSettle
      else if d.llWidth = dcode then d.setLeg (fun x => { x with rcvd := none })
      else d.llName dcode))

/-- LL_WIDTH_TIMEOUT (R338): 8 µs after its own WIDTH without the peer's, the link goes down. -/
def execLlWidthTimeout (sinceUs : Nat) (s : State) : Host.Outcome State Fault Refusal :=
  s.onDev (fun d => if d.leg.sent.isSome && d.leg.rcvd.isNone && decide (8 ≤ sinceUs) then d.llDown else d)

/-- LL_WIDTH_RESTORE (R338): the failed lane has held lock and sync for 1 s. -/
def execLlWidthRestore (heldMs : Nat) (s : State) : Host.Outcome State Fault Refusal :=
  s.onDev (fun d =>
    if d.llMode && !d.cl4On && (d.llWidth == 1 || d.llWidth == 2) && decide (1000 ≤ heldMs)
        && [11, 12, 13, 14].all (fun g => !(d.laneFailed g)) && d.llSends then
      (((d.llFlush.llCut true).emit (.llSym 2 0)).llChange 0).llOpen
    else d)

/-- LL_XOFF (R335, R337): frames are held after the current one. -/
def execLlXoff (s : State) : Host.Outcome State Fault Refusal :=
  s.onDev (fun d => d.cl4Symbol (fun d => d.llFlush.setLeg (fun x => { x with xoff := true })))

/-- LL_XON (R335): frames resume. -/
def execLlXon (s : State) : Host.Outcome State Fault Refusal :=
  s.onDev (fun d => d.cl4Symbol (fun d => if d.leg.xoff then (d.setLeg (fun x => { x with xoff := false })).llOpen else d))

/-- One byte of CRC-16 with polynomial 0x1021 (R424). -/
def crc16Byte (c b : Nat) : Nat :=
  (List.range 8).foldl (fun c _ => if 0x8000 ≤ c then Nat.xor (c * 2 % 65536) 0x1021 else c * 2 % 65536)
    (Nat.xor c (b % 256 * 256))

/-- The CRC-16 of R424 over bytes. -/
def crc16 (bytes : List Nat) : Nat := bytes.foldl crc16Byte 0xFFFF

/-- The bytes of numbers. -/
def toBytes (l : List Nat) : List Byte := l.map (BitVec.ofNat 8)

/-- A CL-4 frame (R424): header, TS packet, CRC-16 with its most significant byte first. -/
def cl4FrameOf (n : Nat) (ts : List Byte) : List Byte :=
  let body := n % 4 :: ts.map (·.toNat)
  toBytes (body ++ [crc16 body / 256, crc16 body % 256])

/-! ## The transport streams of the CL-4 channels (R422 to R424) -/

/-- The TS packets of CL-4 channel `n` that its slices hold, in the order in which they go out: the padded instant of the slice, the packet's
number in it, and the packet. -/
def Dev.cl4Ts (d : Dev) (n : Nat) : List (Nat × Nat × TsPkt) :=
  let olds := match tget? d.olds (n * 8) with
    | some o => o.1.dus
    | none => []
  (olds ++ (d.rend n 0).dus).flatMap (fun u =>
    u.tsPkts.zipIdx.map (fun x => (u.dep, x.2, x.1)))

/-- The next packet of an output: its padded instant, its number, and the packet. -/
def Dev.tsNext (d : Dev) (out n : Nat) : Option (Nat × Nat × TsPkt) :=
  let cur := tget d.sys.tsOut out (0, 0, 0)
  (d.cl4Ts n).find? (fun x => decide (cur.1 < x.1) || (x.1 == cur.1 && decide (cur.2.1 ≤ x.2.1)))

/-- The first four bytes of a TS packet, but for the bits that tell whether it has an adaptation field and a payload (ISO/IEC 13818-1). -/
def TsPkt.headOf (p : TsPkt) (bytes : List Nat) : Bool :=
  bytes.length == 188 && bytes.getD 0 0 == 0x47 && bytes.getD 1 0 == b2n p.start * 64 + p.pid / 256 % 32
    && bytes.getD 2 0 == p.pid % 256 && bytes.getD 3 0 % 16 == p.cc

/-- An output passes the packet `x`, and is free again at `free`. -/
def Dev.tsPass (d : Dev) (out : Nat) (x : Nat × Nat × TsPkt) (free : Nat) : Dev :=
  { d with sys := { d.sys with tsOut := tput d.sys.tsOut out (x.1, x.2.1 + 1, free) } }

/-- A frame of CL-4 channel `n` at its packet's padded instant (R424); while the link is down it is discarded (R426). -/
def Dev.cl4Frame (d : Dev) (n : Nat) (p : List Byte) : Dev :=
  match d.tsNext (4 + n) n with
  | none => d
  | some x =>
    if d.now < x.1 then d
    else if d.llWidth = 3 then d.tsPass (4 + n) x 0
    else if x.2.2.headOf (p.map (·.toNat)) then (d.tsPass (4 + n) x 0).emit (.llFrame 4 (cl4FrameOf n p))
    else d

/-- A native frame (R336): STREAM_ID, the number of TS packets, two zeros, the packets, CRC-32C. -/
def llFrameOf (stream : Nat) (ts : List (List Byte)) : List Byte :=
  let body := [stream, ts.length, 0, 0] ++ (ts.flatMap id).map (·.toNat)
  toBytes (body ++ leBytes 4 (crc32c body))

/-- LL_FRAME_RX (R336, R424): a frame with a code error, a bad CRC or ABORT is discarded and counted; the CL-4 personality
discards every frame after the check. -/
def execLlFrameRx (bytes : List Byte) (codeErr aborted : Bool) (s : State) : Host.Outcome State Fault Refusal :=
  s.onDev (fun d =>
    if !d.llMode || d.llWidth = 3 then d
    else
      let b := bytes.map (·.toNat)
      let d := if codeErr || (aborted && d.cl4On) then d.inc Reg.LN_CNT1_CODE_ERR ll11 else d
      if d.cl4On then
        let body := b.dropLast.dropLast
        let bad := codeErr || b.length < 3 || b.drop (b.length - 2) != [crc16 body / 256, crc16 body % 256]
        if bad then d.inc Reg.LL_ERR cl4B else d
      else
        let body := b.take (b.length - 4)
        let bad := codeErr || aborted || b.length < 8 || b.drop (b.length - 4) != leBytes 4 (crc32c body)
        if bad then d.inc Reg.LN_LL_ABORTS ll11 else d.emit (.llData bytes))

/-- LL_FRAME_SEND (R337, R424): the TS packets of a mapped datagram go out as one frame; they wait under XOFF and during a
change of width, and are discarded while the link is down. In the CL-4 personality `m` is the channel, and the packet is its next one, the
bytes of its payload as the operand has them. -/
def execLlFrameSend (m : Nat) (ts : List (List Byte)) (t : Nat) (s : State) : Host.Outcome State Fault Refusal :=
  s.onDev (fun d0 =>
    let d := d0.advanceTo t
    let sized := ts.all (fun p => p.length == 188)
    if !d.llSends || !sized then d
    else if d.cl4On then
      match ts with
      | [p] => if 4 ≤ m then d else d.cl4Frame m p
      | _ => d
    else
      let c := d.rd Reg.LL_MAP_CHANNEL ll11 m
      let e := cfR (d.chan c).cfg (d.rd Reg.LL_MAP_RENDITION ll11 m) Reg.OUT_CTRL_ENCAP
      if m < 8 && d.rd Reg.LL_MAP_EN ll11 m == 1 && d.live c && d.chGen c == d.rd Reg.LL_MAP_GEN ll11 m && d.lead c == 0
          && (e == 1 || e == 2) && decide (1 ≤ ts.length ∧ ts.length ≤ 7) then
        if d.llWidth = 3 then d.inc Reg.LN_LL_ABORTS ll11
        else
          let f := llFrameOf (d.rd Reg.LL_MAP_STREAM_ID ll11 m) ts
          let d := d.setLeg (fun x => { x with queue := x.queue ++ [(d.now, c, f)] })
          d.llFlush
      else d)

/-- LL_FRAME_EXPIRE (R337): a frame that has waited more than 2 × T_s of its rendition is discarded and counted. -/
def execLlFrameExpire (t : Nat) (s : State) : Host.Outcome State Fault Refusal :=
  s.onDev (fun d0 =>
    let d := (d0.advanceTo t).llFlush
    let old (q : Nat × Nat × List Byte) : Bool := decide (q.1 + d.twoTs q.2.1 < d.now)
    let n := (d.leg.queue.filter old).length
    (d.setLeg (fun x => { x with queue := x.queue.filter (fun q => !(old q)) })).incBy Reg.LN_LL_ABORTS ll11 n)

/-- LL_TRAIN_COMPLETE (R339): the peer's K28.5 aligned on every lane for 1,024 code groups. -/
def execLlTrainComplete (groups : Nat) (s : State) : Host.Outcome State Fault Refusal :=
  s.onDev (fun d =>
    if d.llSends && decide (1024 ≤ groups) && d.llWidth == 3 && [11, 12, 13, 14].all (fun g => !(d.laneFailed g))
        && d.rd Reg.LN_STAT_LOS (lanePage 15) == 0 && d.rd Reg.LN_STAT_LOL (lanePage 15) == 0 then
      (d.wr Reg.LN_STAT_LL_WIDTH ll11 0).setLeg (fun _ => { LegSt.init with openAt := d.now })
    else d)

end Sys2Proof.Machine
end

