-- ==== Sys2Proof/Machine/Packets.lean ====
section
/-! DEFINITION. The added delay of CL-4 channels (R422), the packets of a tick slice
(R241 to R247), and their way onto the flows (R254). -/

namespace Sys2Proof.Machine

/-- PAD of R422, which every packet of a CL-4 channel waits beyond its native instant. -/
def Dev.padNs (d : Dev) (c : Nat) : Nat :=
  let g := (d.chan c).cfg
  if d.cl4On && c < 4 then (frameTu g 3 - arriveOfs g 0 - latTu g 0) / 65536 else 0

/-! ## Packets of a tick slice -/

/-- The fragmentation units of NAL unit `s`, given as its number and size (R243): `nh` header bytes of a NAL unit. -/
def fragments (nh payload : Nat) (s : Nat × Nat) : List Pkt :=
  let room := payload - (nh + 1)
  let n := ceilDiv (s.2 - nh) room
  (List.range n).map (fun i =>
    ⟨if i + 1 = n then s.2 - nh - (n - 1) * room + nh + 1 else payload, .frag s.1 (i == 0) (i + 1 == n)⟩)

/-- The size of a packet of whole NAL units: one as it is, several as an aggregation packet. -/
def aggSize (nh : Nat) : List Nat → Nat
  | [] => 0
  | [s] => s
  | l => nh + sumL (l.map (· + 2))

/-- A packet of whole NAL units. -/
def wholePkt (nh : Nat) (l : List (Nat × Nat)) : Pkt :=
  ⟨aggSize nh (l.map (·.2)), match l with
    | [s] => .nal s.1
    | _ => .agg (l.map (·.1))⟩

/-- A NAL unit that does not join a packet: whole where it fits, else in fragmentation units. -/
def alonePkts (nh payload : Nat) (s : Nat × Nat) : List Pkt := if s.2 ≤ payload then [wholePkt nh [s]] else fragments nh payload s

/-- The RTP packets of the NAL units of a tick slice (R243): `cur` is the packet being filled. -/
def rtpPkts (nh payload : Nat) : List (Nat × Nat) → List (Nat × Nat) → List Pkt
  | cur, [] => if cur.isEmpty then [] else [wholePkt nh cur]
  | cur, s :: rest =>
    if cur.isEmpty then
      if s.2 ≤ payload then rtpPkts nh payload [s] rest else fragments nh payload s ++ rtpPkts nh payload [] rest
    else if aggSize nh ((cur ++ [s]).map (·.2)) ≤ payload then rtpPkts nh payload (cur ++ [s]) rest
    else wholePkt nh cur :: (alonePkts nh payload s ++ rtpPkts nh payload [] rest)

/-- floor(90,000 × (t_k − E)) for frame `k`, exact from the frame tick with ρ (R155, R246). -/
def Dev.ticks90 (d : Dev) (c k : Nat) : Int :=
  let g := (d.chan c).cfg
  let dd := (period g).2
  let x : Int := d.rho c * (dd : Int) + ((k * (period g).1 * tuSec : Nat) : Int)
  floorDiv (x * 90000) (dd * tuSec)

/-- T90_k of R155 for frame `k`. -/
def Dev.t90 (d : Dev) (c k : Nat) : Nat := (d.ticks90 c k % (2 ^ 32 : Nat)).toNat

/-! ## The transport stream (R246) -/

/-- stream_type of a codec (R196). -/
def streamType (cod : Nat) : Nat := if cod = 0 then 0x1B else if cod = 1 then 0x24 else 0x33

/-- ceil(90,000 × (P + L + T_cpb)). -/
def ptsLead (g : Tbl Nat) (rd p : Nat) : Nat :=
  let s := slices g
  let l := if ladder g then 2 + p + lEnc g * s else 2 + lEnc g + p
  ceilDiv ((s + l) * (period g).1 * 90000) ((period g).2 * s) + nCpb g rd

/-- PTS or DTS with the frame tick of frame `k`; of a CL-4 channel with 3P in place of L (R422). -/
def Dev.stampAt (d : Dev) (c rd k : Nat) : Nat :=
  let g := (d.chan c).cfg
  let lead := if d.cl4On && c < 4 then ceilDiv (4 * (period g).1 * 90000) (period g).2 + nCpb g rd else ptsLead g rd (b2n (d.protectedCh c))
  ((d.ticks90 c k + ((lead : Nat) : Int) + signed 32 (cfR g rd Reg.OUT_PTS_OFS)) % (2 ^ 33 : Nat)).toNat

/-- The video packets of a tick slice of `bytes` bytes of stream: a PES header of 14 bytes, or 19 with DTS, opens an access unit; an adaptation
field of 8 bytes carries the PCR of the first packet, and its discontinuity where a take-over resumes with it (R281); the last packet is
stuffed. -/
def tsVideo (pid cc0 pcr bytes : Nat) (head : Option (Nat × Option Nat)) (disc : Bool) : List TsPkt :=
  let hb := match head with
    | none => 0
    | some h => if h.2.isSome then 19 else 14
  let total := bytes + hb + 8
  let n := ceilDiv total 184
  (List.range n).map (fun i =>
    let used := if i + 1 = n then total - (n - 1) * 184 else 184
    { pid := pid, start := i == 0 && head.isSome, cc := (cc0 + i) % 16, pcr := if i = 0 then some pcr else none, disc := disc && i == 0,
      stuff := 184 - used,
      body := .pes (if i = 0 then head else none) (if i = 0 then used - 8 else used) })

/-- PAT and PMT with their continuity counter. -/
def psiPkts (g : Tbl Nat) (rd cc : Nat) : List TsPkt :=
  let pg := cfR g rd Reg.OUT_PROG_PROGRAM
  let pm := cfR g rd Reg.OUT_PID_PMT_PID
  let v := cfR g rd Reg.OUT_PID_VIDEO_PID
  [⟨0, true, cc % 16, none, false, 0, .pat (cfR g rd Reg.OUT_PROG_TSID) pg pm⟩, ⟨pm, true, cc % 16, none, false, 0, .pmt pg v (streamType (codec g rd)) v⟩]

/-- Datagrams of `per` TS packets; the last of a tick slice may carry fewer. -/
def datagrams (per : Nat) (l : List TsPkt) : List Pkt :=
  (List.range (ceilDiv l.length per)).map (fun i =>
    let mine := (l.drop (i * per)).take per
    ⟨188 * mine.length, .ts mine⟩)

/-- T90 of an instant in ns. -/
def t90At (ns : Nat) : Nat := ns * 90000 / 1000000000 % 2 ^ 32

/-- 27 MHz PCR of an instant in ns (R246). -/
def pcrAt (ns : Nat) : Nat := ns * 27000000 / 1000000000 % (2 ^ 33 * 300)

/-! ## Onto the flows -/

/-- The node of a service and of a port in `Dev.nodes`. -/
def svNode (r s : Nat) : Nat := r * 256 + s

/-- The key of a port's shaper. -/
def ptNode (r p : Nat) : Nat := 0x1000 + r * 16 + p

/-- A shaper's tokens (R252). -/
def Dev.node (d : Dev) (k : Nat) : Shp := tget d.nodes k ⟨0, 0, 0⟩

/-- A change of a shaper's tokens. -/
def Dev.setNode (d : Dev) (k : Nat) (f : Shp → Shp) : Dev := { d with nodes := tmod d.nodes k ⟨0, 0, 0⟩ f }

/-- Puts packets on a flow; a flow or service that becomes active takes the lowest VT of its active siblings where its own
is lower (R254). -/
def Dev.enqueue (d : Dev) (r f : Nat) (qs : List QPkt) : Dev :=
  let x := d.flow r f
  let sv := d.flF r f Reg.FL_CTRL_SERVICE
  let lives := (d.liveFlows r).filter (fun y => y != f && (d.flow r y).port == x.port && !((d.flow r y).queue.isEmpty))
  let raise (own : Nat) (vts : List Nat) : Nat := max own (vts.min?.getD 0)
  let d := if qs.isEmpty || !(x.queue.isEmpty) then d
    else
      let sibs := lives.filter (fun y => d.flF r y Reg.FL_CTRL_SERVICE == sv)
      let others := ((lives.map (fun y => d.flF r y Reg.FL_CTRL_SERVICE)).filter (· != sv)).map (fun y => (d.node (svNode r y)).vt)
      let vts := sibs.map (fun y => (d.flow r y).sh.vt)
      let d := d.setFlow r f (fun x => { x with sh := { x.sh with vt := raise x.sh.vt vts } })
      if sibs.isEmpty then d.setNode (svNode r sv) (fun n => { n with vt := raise n.vt others }) else d
  d.setFlow r f (fun x => { x with queue := x.queue ++ qs })

/-- Whether a flow of a rendition's index takes the packets of the rendition at hand: flows created before a replacement's
apply frame belong to the rendition that was replaced (R119). -/
def Dev.flowMine (d : Dev) (c rd r f : Nat) : Bool :=
  let at_ (k : Nat) : Nat := (d.tickAt c k).toNat / 65536
  d.flowRd r f c rd &&
    (match tget? d.olds (c * 8 + rd) with
     | none => true
     | some o =>
       match (d.rend c rd).ended with
       | some e => decide ((d.flow r f).since < at_ e)
       | none => decide (at_ (o.1.ended.getD 0) ≤ (d.flow r f).since))

/-- The packets of a packetised slice as a flow holds them. -/
def Dev.queueOf (d : Dev) (c rd r f : Nat) (u : Du) : List QPkt :=
  let g := cfgAt (d.chan c) u.k
  let enc := cfR g rd Reg.OUT_CTRL_ENCAP
  let ps := u.pkts.getD []
  let ssrc := d.rd Reg.OS_SSRC (wOS c rd)
  let rtp := if enc = 0 then some (cfR g rd Reg.OUT_CTRL_PT, ssrc) else if enc = 1 then some (33, ssrc) else none
  (List.range ps.length).map (fun i =>
    { du := u.i, dep := u.dep, seq := (u.seq0 + i) % 65536, ts := u.ts, bytes := ((ps[i]?).map (·.bytes)).getD 0,
      marker := enc == 0 && i + 1 == ps.length && u.j % picSlices g + 1 == picSlices g,
      first := i == 0, enq := d.now, gen := d.flF r f Reg.FL_STATE_GEN, rtp := rtp,
      body := ((ps[i]?).map (·.body)).getD (.agg []) })

/-- Packetises the next slice of a rendition, and puts its packets on every flow (R241 to R247). -/
def Dev.packOne (d : Dev) (c rd : Nat) (u : Du) : Dev :=
  let r := d.lead c
  let g := cfgAt (d.chan c) u.k
  let x := d.rend c rd
  let o := wOS c rd
  let enc := cfR g rd Reg.OUT_CTRL_ENCAP
  let opens := u.j % picSlices g == 0
  let psi := enc != 0 && opens && (u.ps || (match x.patNs with
    | none => true
    | some t => decide (t + 90000000 ≤ u.dep)))
  let sizes := u.nals.map (·.2)
  let head : Option (Nat × Option Nat) := if opens then
      some (d.stampAt c rd u.k, if ladder g then some (d.stampAt c rd (x.firstK + u.i / slices g)) else none) else none
  let video := if enc = 0 then [] else tsVideo (cfR g rd Reg.OUT_PID_VIDEO_PID) (d.rd Reg.OS_TS_CC o) (pcrAt u.dep) (sumL sizes) head
      (x.resumeI.any (fun z => z.1 == u.i))
  let ps := if enc = 0 then rtpPkts (nalHead (codec g rd)) (cfR g rd Reg.OUT_CTRL_PAYLOAD) [] ((List.range sizes.length).zip sizes)
    else datagrams (cfR g rd Reg.OUT_CTRL_TS_PKTS) ((if psi then psiPkts g rd x.psi else []) ++ video)
  let pcr := match x.dus.find? (fun y => y.i + 1 == u.i) with
    | some y => max y.dep x.pcrNs
    | none => x.pcrNs
  let u : Du :=
    { u with pkts := some ps, seq0 := d.rd Reg.OS_SEQ_NEXT_SEQ o, cc := d.rd Reg.OS_TS_CC o, psi := x.psi, pcrNs := pcr,
             patNs := x.patNs.getD 0, ts := if enc = 0 then d.t90 c u.k else t90At u.dep }
  let d := d.wr Reg.OS_SEQ_NEXT_SEQ o (u.seq0 + ps.length)
  let d := d.wr Reg.OS_PKTS o (d.rd Reg.OS_PKTS o + ps.length)
  let d := d.wr Reg.OS_TS_CC o (u.cc + video.length)
  let d := d.setRend c rd (fun x =>
    { x with pk := u.i + 1, psi := if psi then (x.psi + 1) % 16 else x.psi, patNs := if psi then some u.dep else x.patNs,
             dus := x.dus.map (fun y => if y.i = u.i then u else y) })
  d.each ((d.liveFlows r).filter (fun f => d.flowMine c rd r f)) (fun d f => d.enqueue r f (d.queueOf c rd r f u))

/-- Packetises, in slice order, the slices of a rendition that have been handed over. -/
def Dev.packAll : Nat → Dev → Nat → Nat → Dev
  | 0, d, _, _ => d
  | n + 1, d, c, rd =>
    let x := d.rend c rd
    match x.dus.find? (fun u => u.i == x.pk && u.pkts.isNone) with
    | none => d
    | some u => (d.packOne c rd u).packAll n c rd

/-- Every unit of a rendition that can be packed is packed (R243). -/
def Dev.packetise (d : Dev) (c rd : Nat) : Dev := d.packAll (d.rend c rd).dus.length c rd

end Sys2Proof.Machine
end

