-- ==== Sys2Proof/Machine/Compose.lean ====
section
/-! DEFINITION. Layer commits, posts and lateness (R92 to R98), chain sets in service (R106), regions of interest (R147 to
R150) and the statistics ring (R156 to R160). -/

namespace Sys2Proof.Machine

/-! ## Layer commits (R95 to R97) -/

/-- A layer field as a commit gives it; layer 0 is always enabled (R92). -/
def layerVal (c : Nat) (vals : Tbl Nat) (l : Nat) (row : Row) : Nat :=
  if l = 0 ∧ row = Reg.LY_CTRL_ENABLE then 1 else tget vals (row.key (wLY c l) 0) row.reset

/-- The shadows of the eight layer entries and of CMP_BG. -/
def Dev.takeLayers (d : Dev) (c : Nat) : Tbl Nat :=
  (List.range 8).foldl (fun m l => (d.takeRows Reg.rows_layer (wLY c l)).foldl (fun m e => tput m e.1 e.2) m)
    (d.takeRows Reg.rows_cmp (wCMP c))

/-- A source-to-destination ratio from 1/8 to 16. -/
def ratioOk (src dst : Nat) : Bool := dst ≤ 8 * src && src ≤ 16 * dst && 0 < dst

/-- The first check of R97 that enabled layer `l` fails; the chain sets are checked in the standby as well (R272). -/
def Dev.layerFail (d : Dev) (c : Nat) (ly : Nat → Row → Nat) (l : Nat) : Option Nat :=
  let ch := d.chan c
  let g := ch.cfg
  let v (row : Row) : Nat := ly l row
  let k := v Reg.LY_CTRL_KIND
  let src := v Reg.LY_SRC_SRC_CH
  if !(lyOn ly l) then none
  else if !(lyFormatOk ly l) then some 0x08
  else if k = 1 ∨ k = 2 then
    (if v Reg.LY_BASE_LO % 64 ≠ 0 ∨ v Reg.LY_STRIDE_BYTES % 64 ≠ 0
        ∨ v Reg.LY_STRIDE_BYTES < v Reg.LY_SRC_SIZE_WIDTH * lyBpp (v Reg.LY_CTRL_FORMAT) then some 0x31
     else none).orElse (fun _ => tail v k src ch g)
  else tail v k src ch g
where
  /-- The checks after ALIGN_INVALID. -/
  tail (v : Row → Nat) (k src : Nat) (ch : Chan) (g : Tbl Nat) : Option Nat :=
    if l ≠ 0 ∧ (ratioOk (v Reg.LY_SRC_SIZE_WIDTH) (v Reg.LY_DST_SIZE_WIDTH)
        && ratioOk (v Reg.LY_SRC_SIZE_HEIGHT) (v Reg.LY_DST_SIZE_HEIGHT)) = false then some 0x32
    else if l ≠ 0 ∧ (srcW g < v Reg.LY_DST_POS_X + v Reg.LY_DST_SIZE_WIDTH
        ∨ srcH g < v Reg.LY_DST_POS_Y + v Reg.LY_DST_SIZE_HEIGHT) then some 0x30
    else if v Reg.LY_CTRL_CHAIN_EN = 1 ∧
        (ch.regions ++ (if d.protectedCh c then (d.stbyFor (d.lead c)).toList else [])).all (fun r => bitOf (d.rd Reg.LUT_VALID (blk r ixCOMPOSE)) (v Reg.LY_CTRL_LUT_SET)) = false then some 0x33
    else if k = 3 ∧ (d.live src && (d.chan src).regions.contains (d.lead c)
        && cf (d.chan src).cfg Reg.SRC_RATE_RATE == cf g Reg.SRC_RATE_RATE) = false then some 0x34
    else if 0 < lyLineShort d.samp ly l then some 0x14
    else none

/-- The first failure of a layer commit (R97): its code, and the layer where it concerns one. -/
def Dev.cmpCheck (d : Dev) (c : Nat) (ly : Nat → Row → Nat) : Option (Nat × Option Nat) :=
  let ch := d.chan c
  if d.chState c ≠ 1 ∧ d.chState c ≠ 2 then some (0x36, none)
  else match (List.range 8).findSome? (fun l => (d.layerFail c ly l).map (fun e => (e, some l))) with
  | some e => some e
  | none =>
    let above (r : Nat) : Bool :=
      let ld := (d.regionLoad r (some c)).add (loadOf ch.cfg ly ch.regions r)
      d.compCeil r < ld.comp || d.scaleCeil r < ld.scale
    if ch.regions.any above then some (0x03, none) else none

/-- Checks a commit and posts CMP_RESULT (R96, R97). -/
def Dev.cmpServe (d : Dev) (c id : Nat) (vals : Tbl Nat) : Dev :=
  let w := wCMP c
  let fail := d.cmpCheck c (layerVal c vals)
  let e := fail.getD (0, none)
  let d := (d.wr Reg.CMP_RESULT_CODE w e.1).wr Reg.CMP_RESULT_LAYER w (e.2.getD 0)
  let d := d.wrB Reg.CMP_RESULT_LAYER_VALID w e.2.isSome
  if fail.isSome then d
  else (d.wr Reg.CMP_RESULT_PENDING w 1).setChan c (fun x => { x with lyPend := some (id, vals), lyAt := d.nowTu })

/-- Whether layer checks wait for admission or a re-placement (R96). -/
def Dev.layerWaits (d : Dev) : Bool :=
  d.rd Reg.ADM_STATUS_BUSY pSHM == 1 || d.rd Reg.ADM_STATUS_INTERNAL pSHM == 1

/-- A CMP_COMMIT of the lock holder: a commit that waits for admission is replaced by a later one. -/
def Dev.cmpCommit (d : Dev) (w pg c id : Nat) : Dev :=
  d.locked w pg (fun d =>
    let vals := d.takeLayers c
    if d.layerWaits && (d.chState c == 1 || d.chState c == 2) then
      d.setChan c (fun x => { x with lyWait := some (id % 256, vals, d.nowTu) })
    else d.cmpServe c (id % 256) vals)

/-- CMP_COMMIT (R95 to R97). -/
def execCmpCommit (w c id t : Nat) (s : State) : Host.Outcome State Fault Refusal :=
  s.onDev (fun d => let d := d.advanceTo t; d.cmpCommit w (blk (d.lead (c % 128)) ixCOMPOSE) (c % 128) id)

/-- The commits of a region's channels that waited for admission are served (R96). -/
def Dev.serveLayers (d : Dev) (r : Nat) : Dev :=
  if d.layerWaits then d
  else d.each (d.liveChans.filter (fun c => d.lead c == r)) (fun d c =>
    match (d.chan c).lyWait with
    | some (id, vals, _) => (d.setChan c (fun x => { x with lyWait := none })).cmpServe c id vals
    | none => d)

/-- A pending layer set becomes active at the first frame tick strictly after its posting (R41, R96, R98). -/
def Dev.layerApply (d : Dev) (c : Nat) : Dev :=
  let ch := d.chan c
  match ch.lyPend with
  | some (id, vals) =>
    if d.tickAt c ch.k ≤ (ch.lyAt : Int) then d
    else
      let d := d.each (List.range 8) (fun d l => d.loadRows Reg.rows_layer (wLY c l) vals)
      let d := (d.loadRows Reg.rows_cmp (wCMP c) vals).wr Reg.LY_CTRL_ENABLE (wLY c 0) 1
      let d := (d.wr Reg.CMP_RESULT_PENDING (wCMP c) 0).wr Reg.CMP_RESULT_APPLIED_ID (wCMP c) id
      d.setChan c (fun x => { x with lyPend := none, lays := tmap (fun _ y => { y with hidden := false }) x.lays })
  | none => d

/-! ## Posts of stream graphics (R93) -/

/-- A change of a layer's state. -/
def Dev.setLay (d : Dev) (c l : Nat) (f : LaySt → LaySt) : Dev :=
  d.setChan c (fun x => { x with lays := tmod x.lays l LaySt.init f })

/-- A post of a buffer slot: ignored and counted while four are queued. -/
def Dev.layerPost (d : Dev) (w c l slot : Nat) : Dev :=
  let pg := blk (d.lead c) ixCOMPOSE
  d.locked w pg (fun d =>
    if !(d.live c) || d.actL c l Reg.LY_CTRL_KIND != 2 then d
    else if 4 ≤ (d.lay c l).queue.length then d.countErr pg
    else
      let d := d.setLay c l (fun x => { x with queue := x.queue ++ [(slot % 4, d.nowTu)] })
      d.wr Reg.LY_STAT_QUEUE (wLY c l) (d.lay c l).queue.length)

/-- LY_POST (R92, R93). -/
def execLyPost (w c l slot : Nat) (s : State) : Host.Outcome State Fault Refusal :=
  s.onDev (fun d => d.layerPost w (c % 128) (l % 8) slot)

/-! ## Late layers (R98) -/

/-- Whether the last line of a decided frame's source frame has still to arrive. -/
def Dev.arrivingStill (d : Dev) (c k : Nat) : Bool :=
  decide ((d.nowTu : Int) < d.arriveAt c k (slices (d.chan c).cfg - 1)) && (d.chan c).undecided != some k

/-- Main-video frames that a channel has completed: the last line of the newest has arrived. -/
def Dev.mainDone (d : Dev) (c : Nat) : Nat :=
  let ch := d.chan c
  ch.frames - (ch.info.filter (fun e => !e.2.rep && d.arrivingStill c e.1)).length

/-- The samples of the newest main-video frame that a channel has completed. -/
def Dev.donePic (d : Dev) (c : Nat) : Planes :=
  let ch := d.chan c
  ((ch.info.filter (fun e => !e.2.rep && ch.undecided != some e.1 && !(d.arrivingStill c e.1))).getLast?.map
    (fun e => e.2.pic)).getD noPic

/-- Layer `l` is late for frame `k`: it is counted, and its policy tells how it is composed. -/
def Dev.layerLate (d : Dev) (c k l : Nat) : Dev × Nat :=
  let x := d.lay c l
  let p := d.actL c l Reg.LY_CTRL_LATE_POLICY
  let d := d.inc Reg.LY_STAT_LATE (wLY c l)
  let d := d.setInfo c k (fun y => { y with late := setBit y.late l true })
  if !x.shown then (d, 3)
  else if p = 0 then (d, if x.hidden then 3 else 2)
  else if p = 2 then (d.setLay c l (fun y => { y with hidden := true }), 3)
  else (d, 3)

/-- A layer has a complete frame. -/
def Dev.layerFresh (d : Dev) (c l : Nat) : Dev × Nat :=
  let hidden := (d.lay c l).hidden
  (d.setLay c l (fun y => { y with shown := true }), if hidden then 3 else 1)

/-- What frame `k` takes of layer `l`, above 0, at the frame tick. -/
def Dev.layerTick (d : Dev) (c k l : Nat) : Dev × Nat :=
  let kind := d.actL c l Reg.LY_CTRL_KIND
  let x := d.lay c l
  if d.actL c l Reg.LY_CTRL_ENABLE = 0 then (d, 0)
  else if kind = 1 then d.layerFresh c l
  else if kind = 2 then
    match x.queue with
    | (slot, at_) :: rest =>
      if (at_ : Int) < d.tickAt c k then
        let d := d.setLay c l (fun y => { y with queue := rest, inUse := some slot })
        (d.wr Reg.LY_STAT_QUEUE (wLY c l) rest.length).layerFresh c l
      else d.layerLate c k l
    | [] => d.layerLate c k l
  else
    let src := d.actL c l Reg.LY_SRC_SRC_CH
    let done := d.mainDone src
    let id := (src, d.chGen src)
    let used := if x.src = id then x.used else 0
    if done ≤ used then d.layerLate c k l
    else (d.setLay c l (fun y => { y with src := id, used := done, pic := d.donePic src })).layerFresh c l

/-- The late-layer decisions of frame `k` for layers 1 to 7. -/
def Dev.layersTick (d : Dev) (c k : Nat) : Dev :=
  let z := (List.range 7).foldl (fun (a : Dev × List Nat) l =>
    let y := a.1.layerTick c k (l + 1)
    (y.1, a.2 ++ [y.2])) (d, [])
  z.1.setInfo c k (fun y => { y with layers := z.2 })

/-- A layer of the frame being composed whose data was lost on the way is late for that frame (R308). -/
def Dev.layerLost (d : Dev) (c l : Nat) : Dev :=
  let k := (d.chan c).k - 1
  if l = 0 ∨ d.actL c l Reg.LY_CTRL_ENABLE = 0 ∨ bitOf (tget (d.chan c).info k FrameInfo.init).late l = true then d
  else
    let z := d.layerLate c k l
    z.1.setInfo c k (fun y => { y with layers := y.layers.set (l - 1) z.2 })

/-- The layers of the composed picture of frame `k`, once the main video is decided. -/
def Dev.composeOut (d : Dev) (c k main : Nat) : Dev :=
  (d.setInfo c k (fun x => { x with main := main })).emit (.composed c k (main :: (tget (d.chan c).info k FrameInfo.init).layers))

/-! ## Chain sets in service (R106) -/

/-- A write of LUT_VALID: a set in use keeps its bit, and each such write is counted. -/
def Dev.lutValid (d : Dev) (w r v : Nat) : Dev :=
  let pg := blk r ixCOMPOSE
  d.locked w pg (fun d =>
    let old := d.rd Reg.LUT_VALID pg
    let used := (d.lutInUse r).filter (fun s => bitOf old s && !(bitOf v s))
    let d := d.wr Reg.LUT_VALID pg ((List.range 32).foldl (fun a s =>
      a + b2n (bitOf v s || used.contains s) * 2 ^ s) 0)
    if used.isEmpty then d else d.countErr pg)

/-- COMPOSE_LUT_VALID_WRITE (R106). -/
def execComposeLutValidWrite (w r v : Nat) (s : State) : Host.Outcome State Fault Refusal :=
  s.onDev (fun d => d.lutValid w (r % 8) v)

/-! ## Regions of interest (R147, R148, R150) -/

/-- The first check of R148 that a committed entry fails, and the rectangle at fault. -/
def Dev.roiCheck (d : Dev) (c : Nat) (vals : Tbl Nat) : Option (Nat × Option Nat) :=
  let g := (d.chan c).cfg
  let v (row : Row) (i : Nat) : Nat := tget vals (row.key (wROI c) i) row.reset
  let on := (List.range 16).filter (fun i => v Reg.RECT_CTRL_EN i == 1)
  if d.chState c ≠ 1 ∧ d.chState c ≠ 2 then some (0x36, none)
  else if v Reg.ROI_MAP_LO 0 % 64 ≠ 0 then some (0x31, none)
  else match on.find? (fun i => decide (12 < (signed 5 (v Reg.RECT_CTRL_QP_OFS i)).natAbs)) with
  | some i => some (0x37, some i)
  | none =>
    match on.find? (fun i => srcW g < v Reg.RECT_POS_X i + v Reg.RECT_SIZE_W i
        || srcH g < v Reg.RECT_POS_Y i + v Reg.RECT_SIZE_H i) with
    | some i => some (0x30, some i)
    | none => none

/-- An ROI_COMMIT of the lock holder (R148). -/
def Dev.roiCommit (d : Dev) (w pg c id : Nat) : Dev :=
  d.locked w pg (fun d =>
    let b := wROI c
    let vals := d.takeRows Reg.rows_roi b
    let fail := d.roiCheck c vals
    let e := fail.getD (0, none)
    let d := (d.wr Reg.ROI_RESULT_CODE b e.1).wr Reg.ROI_RESULT_RECT b (e.2.getD 0)
    let d := d.wrB Reg.ROI_RESULT_RECT_VALID b e.2.isSome
    if fail.isSome then d
    else (d.wr Reg.ROI_RESULT_PENDING b 1).setChan c (fun x => { x with roiPend := some (id % 256, vals), roiAt := d.nowTu }))

/-- ROI_COMMIT (R147, R148). -/
def execRoiCommit (w c id t : Nat) (s : State) : Host.Outcome State Fault Refusal :=
  s.onDev (fun d => let d := d.advanceTo t; d.roiCommit w (blk (d.lead (c % 128)) ixRCU) (c % 128) id)

/-- A pending ROI entry becomes active at the first frame tick strictly after its posting, under the next version; slices
captured before are still coded under the old one (R148, R150). -/
def Dev.roiApply (d : Dev) (c : Nat) : Dev :=
  let ch := d.chan c
  let b := wROI c
  match ch.roiPend with
  | some (_, vals) =>
    if d.tickAt c ch.k ≤ (ch.roiAt : Int) then d
    else
      let ver := d.rd Reg.ROI_RESULT_VERSION b
      let old := (rwsSlots Reg.rows_roi).foldl (fun m x => tput m (x.1.key b x.2) (d.rd x.1 b x.2)) []
      let d := (d.loadRows Reg.rows_roi b vals).wr Reg.ROI_RESULT_VERSION b (ver + 1)
      let d := d.wr Reg.ROI_RESULT_PENDING b 0
      d.setChan c (fun x => { x with roiPend := none, rois := x.rois ++ [(ver, old)] })
  | none => d

/-- A field of the ROI entry under which frame `k` is coded. -/
def Dev.roiAtFrame (d : Dev) (c k : Nat) (row : Row) (i : Nat) : Nat :=
  let ch := d.chan c
  let ver := (tget ch.info k FrameInfo.init).roi
  match ch.rois.find? (fun x => x.1 == ver) with
  | some x => tget x.2 (row.key (wROI c) i) row.reset
  | none => d.rd row (wROI c) i

/-- An older version is retired once no frame coded under it has a slice left in any rendition. DEDUCED: ROI_RETIRED then reads the version
that the later commit created, as R150 has it, which R147's description does not say (log entry 62). -/
def Dev.roiRetire (d : Dev) (c : Nat) : Dev :=
  let ch := d.chan c
  let left (rd : Nat) (x : Rend) (ver : Nat) : Bool :=
    let e := stopFor ch x
    let g := ch.cfg
    let first := (x.opens.head?.map (·.i)).getD x.i / slices g
    ch.info.any (fun y => y.2.roi == ver && decide (x.firstK ≤ y.1) && (match e with
        | some z => decide (y.1 < z)
        | none => true) &&
      (List.range (ch.k + 1 - (x.firstK + first))).any (fun n => (displayOf g rd x e (first + n)).1 == y.1))
  let busy (ver : Nat) : Bool := (List.range 8).any (fun rd =>
    ((tget? d.rends (c * 8 + rd)).any (fun x => left rd x ver)) ||
      ((tget? d.olds (c * 8 + rd)).any (fun o => left rd o.1 ver)))
  match ch.rois with
  | (ver, _) :: rest =>
    if busy ver then d
    else (d.setChan c (fun x => { x with rois := rest })).wr Reg.ROI_RETIRED_VERSION (wROI c) ((ver + 1) % 256)
  | [] => d

/-! ## The statistics ring (R156 to R160) -/

/-- Whether statistics of a rendition are enabled, and as they were (R157). -/
def Dev.statOf (d : Dev) (c rd : Nat) : Bool × Bool := tget d.stats (c * 8 + rd) (false, false)

/-- The enables of a channel's rings take effect at its frame tick (R157). -/
def Dev.statTick (d : Dev) (c : Nat) : Dev :=
  d.each (List.range 8) (fun d rd =>
    let b := wLIVE c rd
    let on := d.rd Reg.STAT_CTRL_EN b == 1
    let st := d.statOf c rd
    if on = st.1 then d
    else
      let d := { d with stats := tput d.stats (c * 8 + rd) (on, st.2 && !on) }
      if on then (d.wr Reg.STAT_WR b 0).wr Reg.STAT_RD b 0 else d)

/-- A write of STAT_CTRL under the RGN page lock `pg` of the lead region. -/
def Dev.statCtrl (d : Dev) (w pg c rd v : Nat) : Dev :=
  d.locked w pg (fun d =>
    let b := wLIVE c rd
    ((d.wr Reg.STAT_CTRL_EN b v).wr Reg.STAT_CTRL_CTU_EN b (v / 2)).wr Reg.STAT_CTRL_MV_EN b (v / 4))

/-- STAT_CTRL_WRITE (R156, R157). -/
def execStatCtrlWrite (w c rd v : Nat) (s : State) : Host.Outcome State Fault Refusal :=
  s.onDev (fun d => d.statCtrl w (blk (d.lead (c % 128)) ixRGN) (c % 128) (rd % 8) v)

/-- PSNR_Y in U8.8 dB, rounded half up: the largest v with 10^(2v − 1) ≤ (peak² × samples / SSE)^5120. -/
def psnr88 (peak samples sse : Nat) : Nat :=
  if sse = 0 then 0xFFFF
  else
    let q := (peak * peak * samples) ^ 5120 / sse ^ 5120
    min 0xFFFE ((Nat.toDigits 10 q).length / 2)

/-- Rows of the CTU array: macroblock rows in AVC. -/
def ctuRows (g : Tbl Nat) (rd : Nat) : Nat := ceilDiv (picH g rd) (ctuSize g rd)

/-- PTYPE of R158: a GDR picture is not intra. -/
def pType (g : Tbl Nat) (rd : Nat) (t : PicT) : Nat :=
  let m := gopMode g rd
  if t.kind = .idr ∨ t.kind = .cra then 0 else if t.isB || m == 1 || m == 3 then 2 else 1

/-- A vector of the vector array (R159): 0x8000 and 0 for a block that has none. -/
def mvWord (v : Option (Int × Int)) : Nat :=
  match v with
  | some v => unsignedOf 16 v.1 + unsignedOf 16 v.2 * 2 ^ 16
  | none => 0x8000

/-- A statistics record, of whole 64-byte units (R158, R159). -/
def Dev.statBytes (d : Dev) (c rd : Nat) (a : PicAcc) (lost : Bool) : List Nat :=
  let g := (d.chan c).cfg
  let b := wLIVE c rd
  let t := a.type
  let fi := tget (d.chan c).info a.k FrameInfo.init
  let cols := ctuCols g rd
  let rows := ctuRows g rd
  let mc := ceilDiv (rdW g rd) 16
  let mr := ceilDiv (picH g rd) 16
  let ctu := d.rd Reg.STAT_CTRL_CTU_EN b == 1
  let mv := d.rd Reg.STAT_CTRL_MV_EN b == 1
  let pad64 (l : List Nat) : List Nat := l ++ List.replicate (roundUpTo l.length 64 - l.length) 0
  let ctus := if ctu then pad64 ((List.range (cols * rows)).flatMap (fun i => leBytes 8 (tget a.ctus i 0))) else []
  let mvs := if mv then pad64 ((List.range (mc * mr)).flatMap (fun i =>
    leBytes 4 (mvWord (tget? a.mvs ((i / mc * 4 + 2) * 4096 + i % mc * 4 + 2))))) else []
  let len := 1 + (ctus.length + mvs.length) / 64
  let pt := pType g rd t
  let peak := 2 ^ bitDepth g rd - 1
  let samples := rdW g rd * picH g rd
  let flags := pt + 4 * b2n (pt == 0) + 8 * b2n ((t.sweep == some 0 && !a.bottom) || t.kind == .gdr) + 16 * b2n fi.scene
    + 32 * b2n fi.degraded + 64 * b2n a.floorRow.isSome + 128 * b2n fi.rep + 256 * (fi.late % 256) + a.maxLevel * 2 ^ 16
    + b2n lost * 2 ^ 19 + t.tid * 2 ^ 20 + b2n (interlaced g) * 2 ^ 23 + b2n a.bottom * 2 ^ 24
  let avg := roundInt (a.qpSum * 16) (max 1 a.qpN)
  leBytes 4 (0x0101 + len * 2 ^ 16) ++ leBytes 4 (c + rd * 2 ^ 8 + d.chGen c * 2 ^ 16) ++ leBytes 8 a.k
    ++ leBytes 8 ((d.tickAt c a.k).toNat / 65536) ++ leBytes 4 (unsignedOf 32 a.poc) ++ leBytes 4 flags
    ++ leBytes 4 a.bits ++ leBytes 4 (a.floorRow.getD 0xFFFF + unsignedOf 16 avg * 2 ^ 16) ++ leBytes 8 a.sse
    ++ leBytes 4 (psnr88 peak samples a.sse + cols * 2 ^ 16)
    ++ leBytes 4 ((if ctu then rows else 0) + mc * 2 ^ 16) ++ leBytes 4 (if mv then mr else 0)
    ++ leBytes 4 fi.rtpTs ++ ctus ++ mvs

/-- The device as the work on frame `k` of a rendition sees it (`Dev.asOf`). -/
def Dev.viewAs (d : Dev) (c rd k : Nat) : Dev :=
  let d1 := d.setChan c (fun x => { x with cfg := cfgAt x k })
  if d.isOld c rd k then d1.swapOld c rd else d1

/-- A record is not written: STAT_LOST and the event STAT_OVF, and the next record tells of it (R160). -/
def Dev.statLost (d : Dev) (c rd : Nat) : Dev :=
  let b := wLIVE c rd
  let key := 0x4000 + c * 8 + rd
  let d := d.inc Reg.STAT_LOST b
  let d := { d with stats := tput d.stats (c * 8 + rd) ((d.statOf c rd).1, true) }
  if d.mayRaise key then (d.markRaised key).event (blk (d.lead c) ixRGN) 3 (c * 8 + rd) (d.rd Reg.STAT_LOST b) else d

/-- Writes a record into the ring, or counts it lost (R160). -/
def State.statPut (s : State) (c rd : Nat) (bytes : List Nat) : State :=
  let d := s.dev
  let b := wLIVE c rd
  let size := d.rd Reg.STAT_SIZE b
  let wr := d.rd Reg.STAT_WR b
  let n := bytes.length
  let free := (((d.rd Reg.STAT_RD b : Int) - (wr : Int) - 64) % (size : Int)).toNat
  let pad := if size < wr + n then size - wr else 0
  let base := d.rdPair Reg.STAT_BASE_LO Reg.STAT_BASE_HI b
  let r := d.lead c
  if free < pad + n then { s with dev := d.statLost c rd }
  else
    let at_ := if pad = 0 then wr else 0
    let head := leBytes 4 (0x0102 + pad / 64 * 2 ^ 16) ++ List.replicate 60 0
    let s := if pad = 0 then s else s.memPut r (base + wr) (byteList head)
    let s := s.memPut r (base + at_) (byteList bytes)
    let d := (s.dev.wr Reg.STAT_WR b ((at_ + n) % max 1 size)).emit (.stat c rd at_ n)
    { s with dev := { d with stats := tput d.stats (c * 8 + rd) ((d.statOf c rd).1, false) } }

/-- STAT_RECORD_WRITE (R155, R158 to R160, R182): the record of a rendition's oldest picture, in coding order, once it is
complete. -/
def execStatRecordWrite (c rd k t : Nat) (s : State) : Host.Outcome State Fault Refusal :=
  let d := s.dev.advanceTo t
  let s := { s with dev := d }
  let first (x : Rend) : Option (Nat × PicAcc) := x.accs.head?
  let next := ((tget? d.olds (c * 8 + rd)).bind (fun o => first o.1)).orElse (fun _ => first (d.rend c rd))
  match next with
  | none => .next s
  | some (key, a) =>
    let v := d.viewAs c rd a.k
    if a.k ≠ k ∨ a.slices < picSlices (v.chan c).cfg ∨ d.live c = false then .next s
    else
      let bytes := v.statBytes c rd a (d.statOf c rd).2
      let s := { s with dev := d.asOf c rd a.k (fun d => d.setRend c rd (fun x => { x with accs := tdel x.accs key })) }
      .next (s.statPut c rd bytes)

end Sys2Proof.Machine
end

