-- ==== Sys2Proof/Machine/Egress.lean ====
section
/-! DEFINITION. Flow commands (R248 to R251, R269), the scheduler (R252 to R257), the pacer's slots (R258), policing (R260,
R261), queue observation (R262, R263) and received frames (R328). -/

namespace Sys2Proof.Machine

/-! ## Flow commands -/

/-- The other regions of a region's protection group. -/
def Dev.groupMates (d : Dev) (r : Nat) : List Nat :=
  (groups.filter (fun n => (d.pgActs n).contains r || (d.pgMode n != 0 && d.pgStby n == r))).flatMap (fun n =>
    (d.pgStby n :: d.pgActs n).filter (· != r))

/-- The largest frame of a flow in wire bytes. -/
def flowFrame (g : Tbl Nat) (rd vlan ipv6 : Nat) : Nat :=
  let enc := cfR g rd Reg.OUT_CTRL_ENCAP
  let above := wireOver vlan ipv6 enc
  if enc = 0 then above - 3 + cfR g rd Reg.OUT_CTRL_PAYLOAD else above + 188 * cfR g rd Reg.OUT_CTRL_TS_PKTS

/-- The sum of the PIRs of a service's real-time flows, flow `skip` left out. -/
def Dev.svRt (d : Dev) (r sv : Nat) (skip : Option Nat) : Nat :=
  ((d.liveFlows r).filter (fun f => some f != skip && d.flF r f Reg.FL_CTRL_SERVICE == sv && d.isRt r f)).foldl
    (fun a f => a + d.flF r f Reg.SH_PIR) 0

/-- TARGET_INVALID of R250 and R269 for the fields `v` of a flow. -/
def Dev.flTargetOk (d : Dev) (r f : Nat) (v : Row → Nat) : Bool :=
  let c := v Reg.FL_CTRL_CHANNEL
  let rd := v Reg.FL_CTRL_RENDITION
  let p := v Reg.FL_CTRL_PORT
  let sv := v Reg.FL_CTRL_SERVICE
  let y := v Reg.FL_PAIR_FLOW
  d.live c && d.lead c == r && (tget? d.rends (c * 8 + rd)).isSome && d.isEth r p
    && d.rd Reg.SV_CTRL_PORT (wSV r sv) == p && d.rd Reg.SV_CTRL_RT (wSV r sv) == v Reg.FL_CTRL_RT
    && (v Reg.FL_PAIR_EN == 0 ||
        (y != f && d.flF r y Reg.FL_STATE_STATE == 1 && d.flowRd r y c rd && d.flF r y Reg.FL_CTRL_PORT != p))
    && (d.groupMates r).all (fun o => (d.flowsOf o (fun y => d.flF o y Reg.FL_CTRL_SERVICE == sv)).isEmpty)

/-- The rank a new real-time flow takes: its pair partner's where that is free on its port, else the lowest (R255). -/
def Dev.newRank (d : Dev) (r f : Nat) (v : Row → Nat) : Nat :=
  let held := d.ranksOn r (v Reg.FL_CTRL_PORT) (some f)
  let mate := (d.flow r (v Reg.FL_PAIR_FLOW)).rank
  if v Reg.FL_PAIR_EN = 1 ∧ d.isRt r (v Reg.FL_PAIR_FLOW) = true ∧ held.contains mate = false then mate else lowestRank held

/-- RATE_INVALID of R250 for a flow with departure offset `ofs`. -/
def Dev.flRateOk (d : Dev) (r f : Nat) (v : Row → Nat) (ofs : Nat) : Bool :=
  let c := v Reg.FL_CTRL_CHANNEL
  let rd := v Reg.FL_CTRL_RENDITION
  let g := (d.chan c).cfg
  let pir := v Reg.SH_PIR
  let svPir := d.rd Reg.SH_PIR (wSV r (v Reg.FL_CTRL_SERVICE))
  let rt := v Reg.FL_CTRL_RT == 1
  let h := wireOver (v Reg.FL_CTRL_VLAN_EN) (v Reg.FL_CTRL_IPV6) (cfR g rd Reg.OUT_CTRL_ENCAP)
  pir != 0 && v Reg.SH_CIR ≤ pir && 2 * flowFrame g rd (v Reg.FL_CTRL_VLAN_EN) (v Reg.FL_CTRL_IPV6) ≤ v Reg.SH_PBS
    && v Reg.SH_WEIGHT != 0
    && (!rt || (ofsFits g ofs && pirEnough g rd (nNal g rd (d.chan c).regions.length (nvAt (d.chan c).nvs rd)) pir h))
    && (svPir == 0 || d.svRt r (v Reg.FL_CTRL_SERVICE) (some f) + (if rt then pir else 0) ≤ svPir)

/-- The result code of a flow command (R250) over its shadow fields `v`. -/
def Dev.flCheck (d : Dev) (r op f gen : Nat) (v : Row → Nat) : Nat :=
  let st := d.flF r f Reg.FL_STATE_STATE
  let fixed := [Reg.FL_CTRL_CHANNEL, Reg.FL_CTRL_RENDITION, Reg.FL_CTRL_PORT, Reg.FL_CTRL_SERVICE, Reg.FL_CTRL_RT,
    Reg.FL_CTRL_IPV6]
  let rank := if op = 1 then d.newRank r f v else (d.flow r f).rank
  let p := v Reg.FL_CTRL_PORT
  if op = 0 ∨ 3 < op then cOpInvalid
  else if op = 1 ∧ (st = 1 ∨ st = 2 ∨ (d.groupMates r).any (fun o => (d.liveFlows o).contains f) = true) then 0x0F
  else if st = 3 then 0x10
  else if op ≠ 1 ∧ (st = 0 ∨ gen ≠ d.flF r f Reg.FL_STATE_GEN) then 0x11
  else if op = 3 then 0
  else if op = 2 ∧ fixed.any (fun row => v row != d.flF r f row) = true then 0x39
  else if d.flTargetOk r f v = false then 0x3C
  else if d.flRateOk r f v (d.ofsOf r p rank) = false then 0x3A
  else if v Reg.FL_CTRL_RT = 1 ∧ d.portFits r p (d.rtOn r p (some f) + v Reg.SH_PIR) = false then 0x3B
  else 0

/-- An accepted CREATE (R251, R252, R255): the flow is ACTIVE with its next generation and full buckets, and takes the
slices that begin after it; while its port is down it is SUSPENDED (R256). -/
def Dev.flNew (d : Dev) (r f : Nat) (vals : Tbl Nat) (rank : Nat) : Dev :=
  let b := wFLOW r f
  let old := d.rd Reg.FL_STATE_GEN b
  let d := d.loadRows (Reg.rows_flow ++ Reg.rows_shaper) b vals
  let d := (d.wr Reg.FL_STATE_GEN b (if old = 255 then 1 else old + 1)).wr Reg.FL_STATE_DROP b 0
  let p := d.flF r f Reg.FL_CTRL_PORT
  let d := d.setFlow r f (fun _ =>
    { Flow.init with
      rank := rank, prank := rank, port := p, since := d.now,
      sh := ⟨d.flF r f Reg.SH_CBS * 65536, ((d.flF r f Reg.SH_PBS * 65536 : Nat) : Int), 0⟩ })
  let d := (d.syncOfs r f).setFlState r f 1
  let d := if d.pUp r p then d else d.setFlState r f 2
  let c := d.flF r f Reg.FL_CTRL_CHANNEL
  let rd := d.flF r f Reg.FL_CTRL_RENDITION
  d.each ((d.rend c rd).dus.filter (fun u => u.pkts.isSome && decide (d.now < u.dep))) (fun d u =>
    d.enqueue r f (d.queueOf c rd r f u))

/-- A flow command and its posted result (R249 to R251): under the EGRESS page lock. -/
def Dev.flCmd (d : Dev) (w r op f gen : Nat) : Dev :=
  let pg := blk r ixEGRESS
  d.locked w pg (fun d0 =>
    let d := d0.egressNow r
    let vals := d.takeRows (Reg.rows_flow ++ Reg.rows_shaper) (wFLOW r f)
    let v (row : Row) : Nat := tget vals (row.key (wFLOW r f) 0) row.reset
    let code := d.flCheck r op f gen v
    let d : Dev :=
      if code ≠ 0 then d
      else if op = 1 then d.flNew r f vals (d.newRank r f v)
      else if op = 2 then d.setFlow r f (fun x => { x with pend := some (d.now, vals) })
      else d.setFlow r f (fun x => { x with del := some d.now })
    let d := (d.wr Reg.FL_RESULT_CODE pg code).wr Reg.FL_RESULT_FLOW pg f
    (d.wr Reg.FL_RESULT_GEN pg (d.flF r f Reg.FL_STATE_GEN)).wr Reg.FL_RESULT_DONE pg 1)

/-- FL_CREATE (R248 to R252, R255, R269). -/
def execFlCreate (w r f gen : Nat) (s : State) : Host.Outcome State Fault Refusal :=
  s.onDev (fun d => d.flCmd w r 1 (f % 2048) (gen % 256))

/-- FL_MODIFY (R249, R250, R257). -/
def execFlModify (w r f gen : Nat) (s : State) : Host.Outcome State Fault Refusal :=
  s.onDev (fun d => d.flCmd w r 2 (f % 2048) (gen % 256))

/-- FL_DELETE (R249 to R251). -/
def execFlDelete (w r f gen : Nat) (s : State) : Host.Outcome State Fault Refusal :=
  s.onDev (fun d => d.flCmd w r 3 (f % 2048) (gen % 256))

/-- FLOW_QUARANTINE_END (R251): the flow is FREE and keeps its generation. -/
def execFlowQuarantineEnd (r f t : Nat) (s : State) : Host.Outcome State Fault Refusal :=
  s.onDev (fun d0 =>
    let d := (d0.advanceTo t).egressNow r
    if d.flF r f Reg.FL_STATE_STATE = 3 ∧ (d.flow r f).quarEnd ≤ d.now then
      let d := d.setFlState r f 0
      { d with flows := tdel d.flows (slotKey r f) }
    else d)

/-! ## The scheduler (R254) -/

/-- Wire bytes of a packet of a flow (R252): at least the minimum Ethernet frame. -/
def Dev.wireOf (d : Dev) (r f : Nat) (q : QPkt) : Nat :=
  max 84 (20 + 14 + 4 * d.flF r f Reg.FL_CTRL_VLAN_EN + (if d.flF r f Reg.FL_CTRL_IPV6 = 1 then 40 else 20) + 8
    + (if q.rtp.isSome then 12 else 0) + 4 + q.bytes)

/-- The destination MAC of R245. -/
def dmacOf (mac dst : Nat) (ipv6 : Bool) : Nat :=
  if mac ≠ 0 then mac
  else if ipv6 then (if dst / 2 ^ 120 = 0xFF then 0x333300000000 + dst % 2 ^ 32 else 0)
  else if dst % 2 ^ 32 / 2 ^ 28 = 0xE then 0x01005E000000 + dst % 2 ^ 23 else 0

/-- The header checksum of an IPv4 packet of `len` bytes (R245): one's complement of the one's complement sum of the header's words. -/
def ip4Sum (dscp len ttl src dst : Nat) : Nat :=
  let v := 0x4500 + dscp * 4 + len + 0x4000 + ttl * 256 + 17 + src / 65536 + src % 65536 + dst / 65536 + dst % 65536
  let f (x : Nat) : Nat := x % 65536 + x / 65536
  65535 - f (f v)

/-- The header fields of a flow's packets (R245, R269). -/
def Dev.hdrOf (d : Dev) (r f : Nat) (q : QPkt) : Hdr :=
  let fl (row : Row) : Nat := d.flF r f row
  let six := fl Reg.FL_CTRL_IPV6 == 1
  let four (row : Row) (b : Nat) : Nat := (List.range 4).foldl (fun a i => a + d.rd row b i * 2 ^ (32 * i)) 0
  let dst := four Reg.FL_DST (wFLOW r f)
  let b := wPT r (fl Reg.FL_CTRL_PORT)
  let own := (d.flow r f).addr.getD
    (d.rd Reg.PT_MAC_LO b + d.rd Reg.PT_MAC_HI b * 2 ^ 32, d.rd Reg.PT_IPV4 b, four Reg.PT_IPV6 b)
  let len := (if six then 40 else 20) + 8 + (if q.rtp.isSome then 12 else 0) + q.bytes
  { dmac := dmacOf (fl Reg.FL_DMAC_LO + fl Reg.FL_DMAC_HI * 2 ^ 32) dst six, smac := own.1,
    tci := if fl Reg.FL_CTRL_VLAN_EN = 1 then some (fl Reg.FL_L3_PCP * 2 ^ 13 + fl Reg.FL_L3_VID) else none,
    ipv6 := six, dscp := fl Reg.FL_L3_DSCP, ttl := fl Reg.FL_L3_TTL, src := if six then own.2.2 else own.2.1,
    dst := if six then dst else dst % 2 ^ 32, sport := fl Reg.FL_UDP_SRC_PORT, dport := fl Reg.FL_UDP_DST_PORT,
    csum := six || fl Reg.FL_CTRL_UDP_CSUM == 1, rtp := q.rtp,
    len := len, sum := if six then none else some (ip4Sum (fl Reg.FL_L3_DSCP) len (fl Reg.FL_L3_TTL) own.2.1 (dst % 2 ^ 32)) }

/-- Charges a node for a packet of `s` bytes (R254). -/
def Shp.charge (n : Shp) (s weight : Nat) : Shp :=
  { tc := n.tc - s * 65536, tp := n.tp - ((s * 65536 : Nat) : Int), vt := n.vt + s * 256 / max 1 weight }

/-- A slice record that its standby does not hold committed when the slice departs is late (R270, R287). -/
def Dev.mirrorLate (d : Dev) (c rd i : Nat) : Dev :=
  let m := tget d.mirs (c * 8 + rd) Mirror.init
  let has (x : Option MirRec) : Bool := match x with
    | some y => y.seq == i && y.ok && y.gen == d.chGen c
    | none => false
  if d.protectedCh c = false ∨ (d.stbyFor (d.lead c)).isNone = true ∨ has m.rec0 = true ∨ has m.rec1 = true then d
  else
    let pg := blk (d.lead c) ixMIRROR
    let d := d.inc Reg.MR_ERR_LATE pg
    let key := 0x40000 + c * 8 + rd
    if d.mayRaise key then (d.markRaised key).event pg 0 (c * 8 + rd) 0 else d

/-- The first packet of a taken-over slot to leave ends TAKE_US (R287). -/
def Dev.firstResumed (d : Dev) (r : Nat) : Dev :=
  d.each (groups.flatMap (fun n => [(n, 0), (n, 1)])) (fun d x =>
    match (d.pg x.1 x.2).takeAt with
    | some t =>
      if d.pgServer x.1 x.2 = r then
        let us := min 0xFFFF ((d.now - t) / 1000)
        let d := (d.wr Reg.PG_LAST_TAKE_US pSHM us x.1).setPg x.1 x.2 (fun y => { y with takeAt := none })
        d.logAdd 6 0 0xF (sourceOf pSHM) 0 0 0 0 ([x.1, x.2, r] ++ leBytes 2 us)
      else d
    | none => d)

/-- The first packet of a tick slice to leave sends the DEPARTED token (R224). -/
def Dev.departed (d : Dev) (c rd : Nat) (q : QPkt) : Dev :=
  let hit (u : Du) : Bool := u.i == q.du && u.dep == q.dep && !u.left
  let mark (x : Rend) : Rend := { x with dus := x.dus.map (fun u => if hit u then { u with left := true } else u) }
  let r := d.lead c
  match (d.rend c rd).dus.find? hit with
  | some u => ((d.setRend c rd mark).sendToken r 0x0B c rd u.j u.k 0 0).mirrorLate c rd u.i
  | none =>
    match tget? d.olds (c * 8 + rd) with
    | none => d
    | some o =>
      match o.1.dus.find? hit with
      | some u => ({ d with olds := tput d.olds (c * 8 + rd) (mark o.1, o.2) } : Dev).sendToken r 0x0B c rd u.j u.k 0 0
      | none => d

/-- Sends the head packet of a flow: the nodes on its path are charged, and the port is busy for its wire time. -/
def Dev.sendHead (d : Dev) (r f : Nat) : Dev :=
  match (d.flow r f).queue with
  | [] => d
  | q :: rest =>
    let x := d.flow r f
    let s := d.wireOf r f q
    let sv := d.flF r f Reg.FL_CTRL_SERVICE
    let w (base : Nat) : Nat := d.rd Reg.SH_WEIGHT base
    let d := d.setFlow r f (fun x => { x with queue := rest, sh := x.sh.charge s (w (wFLOW r f)) })
    let d := d.setNode (svNode r sv) (fun n => n.charge s (w (wSV r sv)))
    let d := d.setNode (ptNode r x.port) (fun n => n.charge s (w (wPT r x.port)))
    let d := { d with busy := tput d.busy (r * 16 + x.port) (d.now + ceilDiv (s * 8) (max 1 (d.lineGb r x.port)), f) }
    let d := d.emit (.packet r f (d.flF r f Reg.FL_STATE_GEN) x.port q.seq q.ts q.bytes q.marker s (d.hdrOf r f q) q.du q.body)
    let c := d.flF r f Reg.FL_CTRL_CHANNEL
    let d := if d.chState c = 1 ∧ q.du = 0 ∧ q.first = true then d.setChState c 2 else d
    let d := if q.first then (d.departed c (d.flF r f Reg.FL_CTRL_RENDITION) q).firstResumed r else d
    d.emitted c

/-- Whether port `p` may start a packet. -/
def Dev.portFree (d : Dev) (r p : Nat) : Bool :=
  d.pUp r p && !(d.region r).killed && (tget d.busy (r * 16 + p) (0, 0)).1 ≤ d.now

/-- A region that hears no beat sends the rest of the tick slice in progress of its protected flows, and no more (R279). -/
def Dev.cutFlow (d : Dev) (r f : Nat) (q : QPkt) : Bool :=
  (d.region r).cutOff && d.protectedCh (d.flF r f Reg.FL_CTRL_CHANNEL) && q.first

/-- The head packet of an ACTIVE flow of port `p` that is eligible (R254). -/
def Dev.eligiblePkt (d : Dev) (r p f : Nat) : Option QPkt :=
  let x := d.flow r f
  match x.queue.head? with
  | none => none
  | some q =>
    if x.port = p ∧ d.flF r f Reg.FL_STATE_STATE = 1 ∧ d.cutFlow r f q = false ∧ (d.isRt r f = false ∨ d.pktAt r f q ≤ d.now) then some q else none

/-- RED of R254 for a packet of `s` bytes: a service with PIR 0 is unlimited, a port with PIR 0 runs at its line rate. -/
def Dev.isRed (d : Dev) (n : Shp) (base s : Nat) (flow : Bool) : Bool :=
  (flow || d.rd Reg.SH_PIR base != 0) && decide (n.tp < ((s * 65536 : Nat) : Int))

/-- A child of the tree with an eligible packet: 0 for real-time, 0 for GREEN, VT, index; and the flow it sends from. -/
structure Cand where
  key : List Nat
  flow : Nat
  deriving DecidableEq, Repr

/-- The order of two lists, first difference first. -/
def lexLt : List Nat → List Nat → Bool
  | [], _ => false
  | _ :: _, [] => false
  | a :: l, b :: m => if a < b then true else if a = b then lexLt l m else false

/-- The candidate with the least key. -/
def bestCand (l : List Cand) : Option Cand :=
  l.foldl (fun acc x => match acc with
    | none => some x
    | some y => if lexLt x.key y.key then some x else some y) none

/-- choose(service) of R254 among the flows that `ok` allows. -/
def Dev.chooseFlow (d : Dev) (r p sv : Nat) (ok : Nat → Bool) : Option Cand :=
  let mine := (d.liveFlows r).filter (fun f => d.flF r f Reg.FL_CTRL_SERVICE == sv && ok f)
  bestCand (mine.filterMap (fun f =>
    match d.eligiblePkt r p f with
    | none => none
    | some q =>
      let s := d.wireOf r f q
      let x := d.flow r f
      let red := d.isRed x.sh (wFLOW r f) s true || d.isRed (d.node (svNode r sv)) (wSV r sv) s false
        || d.isRed (d.node (ptNode r p)) (wPT r p) s false
      if red then none
      else some ⟨[b2n (!(d.isRt r f)), b2n (decide (x.sh.tc < s * 65536)), x.sh.vt, f], f⟩))

/-- choose(p) of R254. -/
def Dev.choosePort (d : Dev) (r p : Nat) : Option Nat :=
  let svs := ((d.liveFlows r).map (fun f => d.flF r f Reg.FL_CTRL_SERVICE)).eraseDups
  (bestCand (svs.filterMap (fun sv =>
    match d.chooseFlow r p sv (fun _ => true) with
    | none => none
    | some x =>
      let s := match (d.flow r x.flow).queue.head? with
        | some q => d.wireOf r x.flow q
        | none => 0
      let n := d.node (svNode r sv)
      some ⟨[b2n (d.rd Reg.SV_CTRL_RT (wSV r sv) == 0), b2n (decide (n.tc < s * 65536)), n.vt, sv], x.flow⟩))).map (·.flow)

/-- The entry of the active slot table in which a port's opportunity begins (R258). -/
def Dev.paceSlot (d : Dev) (r p : Nat) : Nat :=
  let cyc := max 1 (d.rd Reg.PT_PACE_CYCLE_US (wPT r p)) * 1000
  d.rd Reg.PACER_SLOT (wPACE r p) (d.now % cyc * 1024 / cyc)

/-- The real-time flow of a port whose first packet has reached its departure instant, earliest first (R254, R255). -/
def Dev.firstDue (d : Dev) (r p : Nat) : Option Nat :=
  (bestCand ((d.liveFlows r).filterMap (fun f =>
    match d.eligiblePkt r p f with
    | none => none
    | some q => if d.isRt r f && q.first then some ⟨[d.pktAt r f q, f], f⟩ else none))).map (·.flow)

/-- What an idle port sends (R254). -/
def Dev.portPick (d : Dev) (r p : Nat) : Option Nat :=
  match d.firstDue r p with
  | some f => some f
  | none =>
    let e := d.paceSlot r p
    let paced := if 256 ≤ e then (d.chooseFlow r p (e % 256) (fun f => d.isRt r f)).map (·.flow) else none
    match paced with
    | some f => some f
    | none => d.choosePort r p

/-- PACKET_DEPART (R255): the first packet of a real-time flow's slice leaves at its departure instant, the port being
idle. -/
def execPacketDepart (r f t : Nat) (s : State) : Host.Outcome State Fault Refusal :=
  s.onDev (fun d0 =>
    let d := (d0.advanceTo t).egressNow r
    let p := (d.flow r f).port
    match d.eligiblePkt r p f with
    | some q => if d.isRt r f && q.first && d.portFree r p then d.sendHead r f else d
    | none => d)

/-- PORT_IDLE (R254, R258): an idle port sends what the tree chooses. -/
def execPortIdle (r p t : Nat) (s : State) : Host.Outcome State Fault Refusal :=
  s.onDev (fun d0 =>
    let d := (d0.advanceTo t).egressNow r
    if d.portFree r p then
      match d.portPick r p with
      | some f => d.sendHead r f
      | none => d
    else d)

/-- EGRESS_LATE_DISCARD (R256): packets of a flow that have become late are discarded. -/
def execEgressLateDiscard (r f t : Nat) (s : State) : Host.Outcome State Fault Refusal :=
  s.onDev (fun d0 => (((d0.advanceTo t).flowNow r f).lateNow r f).egressNow r)

/-- PCR_ONLY_PACKET (R246): where no slice departs within 35 ms of the last PCR, an adaptation-field-only packet carries one
on the video PID; the packets that have not departed follow it in sequence. -/
def execPcrOnlyPacket (c rd t : Nat) (s : State) : Host.Outcome State Fault Refusal :=
  s.onDev (fun d0 =>
    let d := d0.advanceTo t
    let r := d.lead c
    let d := d.egressNow r
    let x := d.rend c rd
    let g := (d.chan c).cfg
    let enc := cfR g rd Reg.OUT_CTRL_ENCAP
    let last := (x.dus.filter (fun u => u.pkts.isSome && decide (u.dep ≤ d.now))).foldl (fun a u => max a u.dep) x.pcrNs
    if d.live c = false ∨ (tget? d.rends (c * 8 + rd)).isNone = true ∨ enc = 0 ∨ x.pcrNs = 0 ∨ d.now < last + 35000000 then d
    else
      let o := wOS c rd
      let late := x.dus.filter (fun u => u.pkts.isSome && decide (d.now < u.dep))
      let n := sumL (late.map (fun u => (u.pkts.getD []).length))
      let seq := (d.rd Reg.OS_SEQ_NEXT_SEQ o + 65536 - n % 65536) % 65536
      let u : Du :=
        { i := x.sent, k := 0, j := 1, bits := 0, nals := [], dep := d.now, ps := false, pkts := some [⟨188, .ts [⟨cfR g rd Reg.OUT_PID_VIDEO_PID, false, (d.rd Reg.OS_TS_CC o + 15) % 16, some (pcrAt d.now), false, 176, .none⟩]⟩],
          seq0 := seq, ts := t90At d.now, cc := 0, psi := 0, pcrNs := 0, patNs := 0, left := true }
      let d := d.wr Reg.OS_SEQ_NEXT_SEQ o (d.rd Reg.OS_SEQ_NEXT_SEQ o + 1)
      let d := d.wr Reg.OS_PKTS o (d.rd Reg.OS_PKTS o + 1)
      let d := d.setRend c rd (fun x => { x with pcrNs := d.now, dus := x.dus.map (fun y =>
        if y.pkts.isSome && decide (d.now < y.dep) then { y with seq0 := (y.seq0 + 1) % 65536 } else y) })
      let d := d.emit (.pcr c rd (pcrAt d.now))
      d.each ((d.liveFlows r).filter (fun f => d.flowMine c rd r f)) (fun d f =>
        let old := (d.flow r f).queue
        let before := old.filter (fun q => decide (q.dep ≤ d.now))
        let after := (old.filter (fun q => decide (d.now < q.dep))).map (fun q => { q with seq := (q.seq + 1) % 65536 })
        let d := d.setFlow r f (fun x => { x with queue := before })
        let d := d.enqueue r f (d.queueOf c rd r f u)
        d.setFlow r f (fun x => { x with queue := x.queue ++ after })))

/-! ## Refill on a Rachis tick (R44, R254, R261) -/

/-- One tick of refill of a node whose shaper block lies at `base`. -/
def Dev.refill (d : Dev) (base : Nat) (n : Shp) : Shp :=
  let v (row : Row) : Nat := d.rd row base
  { n with tc := min (v Reg.SH_CBS * 65536) (n.tc + v Reg.SH_CIR * 65536 / 8000),
           tp := min ((v Reg.SH_PBS * 65536 : Nat) : Int) (n.tp + ((v Reg.SH_PIR * 65536 / 8000 : Nat) : Int)) }

/-- Refill of a policer's buckets. -/
def Dev.refillPol (d : Dev) (r e : Nat) (b : Nat × Nat) : Nat × Nat :=
  let v (row : Row) : Nat := d.rd row (wPL r e)
  (min (v Reg.PL_CBS * 65536) (b.1 + v Reg.PL_CIR * 65536 / 8000),
   min (v Reg.PL_PBS * 65536) (b.2 + v Reg.PL_PIR * 65536 / 8000))

/-- Refills every bucket of a region. -/
def Dev.refillAll (d : Dev) (r : Nat) : Dev :=
  let d1 := d.each (d.liveFlows r) (fun d f => d.setFlow r f (fun x => { x with sh := d.refill (wFLOW r f) x.sh }))
  let d2 := d1.each (List.range 256) (fun d sv =>
    if d.rd Reg.SH_CBS (wSV r sv) = 0 ∧ d.rd Reg.SH_PBS (wSV r sv) = 0 then d
    else d.setNode (svNode r sv) (d.refill (wSV r sv)))
  let d3 := d2.each (List.range 16) (fun d p =>
    if d.rd Reg.SH_PBS (wPT r p) = 0 then d else d.setNode (ptNode r p) (d.refill (wPT r p)))
  { d3 with pols := tmap (fun k b => if k / 256 = r then d3.refillPol r (k % 256) b else b) d3.pols }

/-! ## Policing (R260, R261) -/

/-- Whether a packet that arrives on local port `p` belongs to entry `e` (R260): the port of that path, and the destination address and UDP
port of the channel's source. -/
def Dev.policed (d : Dev) (e p : Nat) (h : StreamHdr) : Bool :=
  let g := (d.chan (e / 2)).cfg
  p == (if e % 2 = 0 then cf g Reg.SRC_2110_PORT else cf g Reg.SRC_2110_PORT2) % 16 && h.group == sourceGroup g && h.udp == cf g Reg.SRC_UDP_PORT

/-- POLICE_PACKET (R260, R261): one packet of `bytes` bytes that arrives on local port `p`; `bufPct` is how full the stream's receive buffer
is. A packet that belongs to no entry is not metered. -/
def execPolicePacket (r e : Nat) (x : RxPkt) (bufPct : Nat) (s : State) : Host.Outcome State Fault Refusal :=
  s.onDev (fun d =>
    match tget? d.pols (r * 256 + e), d.policed e x.port x.hdr with
    | none, _ => d
    | _, false => d
    | some b, true =>
      let w := wPL r e
      let n := x.bytes * 65536
      if b.2 < n then
        let d := (d.inc Reg.PL_RED w).emit (.police r e 2 true)
        let key := 0x10000 + r * 256 + e
        if d.mayRaise key then (d.markRaised key).event (blk r ixPOLICER) 0 e 0 else d
      else if b.1 < n then
        let drop := d.rd Reg.PL_CTRL_YELLOW_DROP w == 1 && decide (75 < bufPct)
        let d := { d with pols := tput d.pols (r * 256 + e) (b.1, b.2 - n) }
        (d.inc Reg.PL_YELLOW w).emit (.police r e 1 drop)
      else
        let d := { d with pols := tput d.pols (r * 256 + e) (b.1 - n, b.2 - n) }
        (d.inc Reg.PL_GREEN w).emit (.police r e 0 false))

/-- A write to a policer entry under the POLICER page lock (R260, R261): a smaller burst cuts the tokens (R257). -/
def Dev.policerWrite (d : Dev) (w r e off v : Nat) : Dev :=
  d.locked w (blk r ixPOLICER) (fun d =>
    let b := wPL r e
    let keep (d : Dev) : Dev :=
      match tget? d.pols (r * 256 + e) with
      | none => d
      | some x =>
        { d with
          pols := tput d.pols (r * 256 + e) (min x.1 (d.rd Reg.PL_CBS b * 65536), min x.2 (d.rd Reg.PL_PBS b * 65536)) }
    if off = 0 then d.wr Reg.PL_CIR b v
    else if off = 4 then d.wr Reg.PL_PIR b v
    else if off = 8 then keep (d.wr Reg.PL_CBS b v)
    else if off = 0xC then keep (d.wr Reg.PL_PBS b v)
    else if off = 0x1C then d.wr Reg.PL_CTRL_YELLOW_DROP b (v % 2)
    else d)

/-- POLICER_RATE_WRITE (R257, R260, R261). -/
def execPolicerRateWrite (w r e off v : Nat) (s : State) : Host.Outcome State Fault Refusal :=
  s.onDev (fun d => d.policerWrite w r (e % 256) off v)

/-! ## Queue observation (R262, R263) -/

/-- The bin of a measure in its unit. -/
def obsBin (v : Nat) : Nat := if v = 0 then 0 else if 2 ^ 14 ≤ v then 15 else Nat.log2 v + 1

/-- A saturating count of one bin (R262). -/
def bump (l : List Nat) (i : Nat) : List Nat := l.modify i (fun x => min (x + 1) 65535)

/-- One sample of depth and sojourn. -/
def Obs.add (o : Obs) (depth soj du su : Nat) : Obs :=
  { n := o.n + 1,
    dMin := if o.n = 0 then depth else min o.dMin depth, dMax := max o.dMax depth,
    sMin := if o.n = 0 then soj else min o.sMin soj, sMax := max o.sMax soj,
    dHist := bump o.dHist (obsBin (depth / 2 ^ (6 + 2 * du))), sHist := bump o.sHist (obsBin (soj / 2 ^ (6 + 2 * su))) }

/-- The block of R263. -/
def obsBlock (o : Obs) (seq f gen units endNs : Nat) : List Nat :=
  leBytes 4 seq ++ leBytes 2 f ++ [gen, units] ++ leBytes 8 endNs ++ leBytes 4 o.dMin ++ leBytes 4 o.dMax
    ++ leBytes 4 o.sMin ++ leBytes 4 o.sMax ++ o.dHist.flatMap (leBytes 2) ++ o.sHist.flatMap (leBytes 2)
    ++ List.replicate 32 0

/-- Samples one flow, and writes its block at the end of an epoch. -/
def State.obsFlow (s : State) (r f : Nat) : State :=
  let d := s.dev
  let pg := blk r ixEGRESS
  let x := d.flow r f
  let depth := sumL (x.queue.map (d.wireOf r f))
  let soj := match x.queue.head? with
    | none => 0
    | some q => d.now - max q.enq (if d.isRt r f then d.pktAt r f q else 0)
  let du := d.rd Reg.OBS_CTRL_DEPTH_UNIT pg
  let su := d.rd Reg.OBS_CTRL_DELAY_UNIT pg
  let o := x.obs.add depth soj du su
  if o.n < d.rd Reg.OBS_EPOCH_SAMPLES pg then { s with dev := d.setFlow r f (fun x => { x with obs := o }) }
  else
    let seq := (x.obsSeq + 2) % 2 ^ 32
    let s := { s with dev := d.setFlow r f (fun x => { x with obs := Obs.init, obsSeq := seq }) }
    s.memPut r (d.rdPair Reg.OBS_BASE_LO Reg.OBS_BASE_HI pg + f * 0x80)
      (byteList (obsBlock o seq f (d.flF r f Reg.FL_STATE_GEN) (du + 4 * su) d.now))

/-- OBS_SAMPLE (R262, R263): at each multiple of PERIOD_US while EN is 1. -/
def execObsSample (r t : Nat) (s : State) : Host.Outcome State Fault Refusal :=
  let d := (s.dev.advanceTo t).egressNow r
  let pg := blk r ixEGRESS
  let s := { s with dev := d }
  if d.rd Reg.OBS_CTRL_EN pg = 1 ∧ d.now % (max 1 (d.rd Reg.OBS_CTRL_PERIOD_US pg) * 1000) = 0 ∧ d.active r = true then
    .next ((d.liveFlows r).foldl (fun s f => s.obsFlow r f) s)
  else .next s

/-- A write of OBS_CTRL, OBS_EPOCH or OBS_BASE under the EGRESS page lock (R249, R262): a change ends the epochs in progress
unwritten; OBS_BASE is ignored while EN is 1. -/
def Dev.obsWrite (d : Dev) (w r off v : Nat) : Dev :=
  let pg := blk r ixEGRESS
  d.locked w pg (fun d0 =>
    let d := if off = 0x10C then
        (((d0.wr Reg.OBS_CTRL_EN pg (v % 2)).wr Reg.OBS_CTRL_DEPTH_UNIT pg (bitsOf v 1 2)).wr Reg.OBS_CTRL_DELAY_UNIT pg
          (bitsOf v 3 2)).wr Reg.OBS_CTRL_PERIOD_US pg (bitsOf v 16 16)
      else if off = 0x110 then d0.wr Reg.OBS_EPOCH_SAMPLES pg v
      else if off = 0x114 then { d0 with lowWords := tput d0.lowWords (snapKey w (pg + 0x114)) (v % 2 ^ 32) }
      else if off = 0x118 then
        let lo := tget d0.lowWords (snapKey w (pg + 0x114)) (d0.rd Reg.OBS_BASE_LO pg)
        if d0.rd Reg.OBS_CTRL_EN pg = 1 then d0 else (d0.wr Reg.OBS_BASE_LO pg lo).wr Reg.OBS_BASE_HI pg v
      else d0
    if d.regs = d0.regs then d
    else d.each (d.liveFlows r) (fun d f => d.setFlow r f (fun x => { x with obs := Obs.init })))

/-- OBS_CONFIG_WRITE (R249, R262). -/
def execObsConfigWrite (w r off v : Nat) (s : State) : Host.Outcome State Fault Refusal :=
  s.onDev (fun d => d.obsWrite w r off v)

/-! ## Received frames (R328) -/

/-- ETH_FRAME_RX (R328): PAUSE, a bad FCS and a length outside 64 to 9,216 bytes are discarded. -/
def execEthFrameRx (g : Nat) (fr : EthFrame) (s : State) : Host.Outcome State Fault Refusal :=
  s.onDev (fun d =>
    if d.pUp (g / 16) (g % 16) && fr.fcsOk && !fr.pause && decide (64 ≤ fr.bytes) && decide (fr.bytes ≤ 9216) then
      d.emit (.ethIn g fr.bytes)
    else d)

/-- The MAC address of a port (R330). -/
def Dev.portMac (d : Dev) (g : Nat) : Nat :=
  let b := wPT (g / 16) (g % 16)
  d.rd Reg.PT_MAC_LO b + d.rd Reg.PT_MAC_HI b * 2 ^ 32

/-- ARP_REQUEST (R328): firmware answers for PT_IPV4. -/
def execArpRequest (g target : Nat) (s : State) : Host.Outcome State Fault Refusal :=
  s.onDev (fun d =>
    if d.pUp (g / 16) (g % 16) && d.active (g / 16) && d.rd Reg.PT_IPV4 (wPT (g / 16) (g % 16)) == target then
      d.emit (.macReply g (d.portMac g))
    else d)

/-- NEIGHBOR_SOLICITATION (R328): firmware answers for PT_IPV6. -/
def execNeighborSolicitation (g target : Nat) (s : State) : Host.Outcome State Fault Refusal :=
  s.onDev (fun d =>
    let b := wPT (g / 16) (g % 16)
    let six := (List.range 4).foldl (fun a i => a + d.rd Reg.PT_IPV6 b i * 2 ^ (32 * i)) 0
    if d.pUp (g / 16) (g % 16) && d.active (g / 16) && six == target then d.emit (.macReply g (d.portMac g)) else d)

end Sys2Proof.Machine
end

