-- ==== Sys2Proof/Machine/Ticks.lean ====
section
/-! DEFINITION. Frame, slice and Rachis ticks (R38 to R44), source frames (R83 to R91), timecode and captions (R152, R154,
R375), and the pre-analysis (R111, R112). -/

namespace Sys2Proof.Machine

/-! ## Timecode (R152, R375) -/

/-- Frames counted in a timecode second. -/
def tcRate (g : Tbl Nat) : Nat := ceilDiv (period g).2 (period g).1

/-- The frame numbers that drop-frame counting leaves out of a minute; 0 where it does not apply (R116). -/
def tcDrop (g : Tbl Nat) : Nat :=
  let x := cf g Reg.SRC_RATE_RATE
  if cf g Reg.ENC_TC_DROP = 1 ∧ (x = 3 ∨ x = 6) then tcRate g / 15 else 0

/-- The label of frame `n` of a day (SMPTE ST 12-1). -/
def tcLabel (g : Tbl Nat) (n : Nat) : Timecode :=
  let f := tcRate g
  let dr := tcDrop g
  let ten := 600 * f - 9 * dr
  let m := n % ten
  let n := if dr = 0 then n else n + 9 * dr * (n / ten) + dr * ((m - dr) / (60 * f - dr))
  ⟨n / f / 3600 % 24, n / f / 60 % 60, n / f % 60, n % f⟩

/-- A timecode one frame later. -/
def tcNext (g : Tbl Nat) (x : Timecode) : Timecode :=
  let f := tcRate g
  let s := ((x.hh * 60 + x.mm) * 60 + x.ss) + (if f ≤ x.ff + 1 then 1 else 0)
  let y : Timecode := ⟨s / 3600 % 24, s / 60 % 60, s % 60, if f ≤ x.ff + 1 then 0 else x.ff + 1⟩
  if y.ss = 0 ∧ y.ff = 0 ∧ y.mm % 10 ≠ 0 then { y with ff := tcDrop g } else y

/-- The timecode derived from the timebase for frame `k`: frames since midnight UTC of t_k plus OFS. -/
def Dev.tcFromTb (d : Dev) (c k : Nat) : Timecode :=
  let g := (d.chan c).cfg
  let ofs := signed 18 (cf g Reg.ENC_TC_OFS) - d.utcInUse.1
  let x := (d.tickAt c k + ofs * (tuSec : Int)) % (86400 * (tuSec : Int))
  tcLabel g (x.toNat * (period g).2 / ((period g).1 * tuSec))

/-- The timecode of frame `k`, whose source frame carries `anc`, with its source; and the frames for which it was continued (R152). DESIGN
CHOICE: where no timecode has been seen there is none to continue (log entry 56). -/
def Dev.tcFor (d : Dev) (c k : Nat) (anc : Option Timecode) : Option (Timecode × Nat) × Nat :=
  let ch := d.chan c
  let g := ch.cfg
  let m := cf g Reg.ENC_TC_SRC
  let tb := some (d.tcFromTb c k, 2)
  if m = 0 then (none, 0)
  else if m = 3 then (tb, 0)
  else match anc, ch.tc with
  | some x, _ => (some (x, 0), 0)
  | none, some p => if ch.tcGap < tcRate g then (some (tcNext g p, 1), ch.tcGap + 1) else (if m = 2 then tb else none, ch.tcGap)
  | none, none => (if m = 2 then tb else none, tcRate g)

/-- Records the timecode of frame `k`: a value other than the last one plus a frame is a jump. -/
def Dev.tcStep (d : Dev) (c k : Nat) (anc : Option Timecode) : Dev :=
  let ch := d.chan c
  let z := d.tcFor c k anc
  let jump : Bool := match z.1, ch.tc with
    | some x, some p => x.1 != tcNext ch.cfg p
    | _, _ => false
  let d := d.setInfo c k (fun y => { y with tc := z.1.map (·.1), tcSrc := (z.1.map (·.2)).getD 0, tcDisc := jump })
  d.setChan c (fun x => { x with tc := (z.1.map (·.1)).orElse (fun _ => x.tc), tcGap := z.2 })

/-! ## Main video of a channel frame (R88 to R91, R98) -/

/-- The phase of a channel in 2^-16 ns (R38, R87). -/
def Dev.phi (d : Dev) (c : Nat) : Nat := (d.chan c).phase.getD 0 * 65536

/-- The ancillary data of a source frame: of a quad-link source, what the lowest-numbered link that is locked carries (R85). -/
def Dev.ancOf (d : Dev) (c : Nat) (f : SrcFrame) : Option Timecode × List Nat :=
  let i := if cf (d.chan c).cfg Reg.SRC_CTRL_IF = 1 then
      ((List.range 4).find? (fun i => d.rd Reg.LN_STAT_LOL (lanePage (d.srcLane c + i)) == 0)).getD 4
    else 0
  f.anc.getD i (none, [])

/-- Caption triplets beyond 31 are discarded, and counted per rendition in units of 16 (R154, R156). -/
def Dev.captions (d : Dev) (c n : Nat) : Dev :=
  let g := (d.chan c).cfg
  d.each ((rdList g).filter (fun rd => cfR g rd Reg.RN_SEI_CC_EN == 1 && (tget? d.rends (c * 8 + rd)).isSome)) (fun d rd =>
    let sum := (d.rend c rd).ccDrop + (n - 31)
    (d.setRend c rd (fun x => { x with ccDrop := sum % 16 })).incBy Reg.RN_STATE_CC_DROP (wLIVE c rd) (sum / 16))

/-- Frame `k` takes a source frame; the sub-image of the only link lost is rebuilt (R90). -/
def Dev.mainTaken (d : Dev) (c k : Nat) (f : SrcFrame) : Dev :=
  let ch := d.chan c
  let pic := d.rebuilt c f.pic
  let anc := f.anc.headD (none, [])
  let cap := blk (d.lead c) ixCAPTURE
  let one := [1, 2, 4, 8].contains ch.quadSeen
  let first := !ch.everSrc
  let d := d.setChan c (fun x =>
    { x with frames := x.frames + 1, missed := 0, lost := false, everSrc := true })
  let d := if ch.lost then (d.event cap 2 c 0).pgEvalAll else d
  let d := if one then d.inc Reg.CMP_QUAD_DEGRADED (wCMP c) else d
  let d := d.setInfo c k (fun y =>
    { y with rep := false, rtpTs := f.rtpTs, degraded := one, scene := y.scene || first || ch.lost, noPrev := first,
             caps := anc.2.take 31, pic := pic })
  let d := ((d.captions c anc.2.length).tcStep c k anc.1)
  let z := d.layerFresh c 0
  z.1.composeOut c k z.2

/-- Frame `k` has no source frame: the main video is late, and the last one stands for it (R88, R89, R98, R112). -/
def Dev.mainMissing (d : Dev) (c k : Nat) : Dev :=
  let cap := blk (d.lead c) ixCAPTURE
  let d := (d.inc Reg.CMP_SRC_CNT_REPEAT (wCMP c)).setChan c (fun x => { x with missed := x.missed + 1 })
  let d := if d.mayRaise (0x1000 + c) then (d.markRaised (0x1000 + c)).event cap 0 c 0 else d
  let d := if 2 ≤ (d.chan c).missed ∧ (d.chan c).lost = false then
      (((d.setChan c (fun x => { x with lost := true })).event cap 1 c 0).cl4Chan Reg.ALARM_IN_LOSS c).pgEvalAll
    else d
  let last := (tget (d.chan c).info (k - 1) FrameInfo.init).pic
  let d := (d.setInfo c k (fun y => { y with rep := true, pic := last })).tcStep c k none
  let z := d.layerLate c k 0
  z.1.composeOut c k z.2

/-- Closes the interval of a frame (R88) once it has passed, or a line of its source frame has arrived. -/
def Dev.closeMain (d : Dev) (c : Nat) (now : Bool := false) : Dev :=
  let ch := d.chan c
  match ch.undecided with
  | none => d
  | some k =>
    if now || decide (d.tickAt c k + (d.phi c : Nat) < (d.nowTu : Int)) then
      let d := d.setChan c (fun x => { x with undecided := none, srcs := x.srcs.filter (fun y => k < y.1) })
      match ch.srcs.find? (fun y => y.1 == k) with
      | some y => d.mainTaken c k y.2
      | none => d.mainMissing c k
    else d

/-- Assigns a source frame to a channel frame; the later of two takes the place of the earlier, with its captions (R88,
R154). Of its ancillary data the part that R85 takes is kept. -/
def Dev.assignSrc (d : Dev) (c : Nat) (f0 : SrcFrame) : Dev :=
  let f := { f0 with anc := [d.ancOf c f0] }
  let k := d.frameFrom c ((f.start : Int) - (d.phi c : Nat))
  let d := if (d.chan c).undecided = some k then d else d.closeMain c
  let ch := d.chan c
  let past := k < ch.k && ch.undecided != some k
  let out : Bool := k < ch.startK || (match ch.stopK with
    | some z => decide (z ≤ k)
    | none => false)
  if past || out then d
  else match ch.srcs.find? (fun y => y.1 == k) with
  | some old =>
    let d := d.inc Reg.CMP_SRC_CNT_SKIP (wCMP c)
    let d := if d.mayRaise (0x1000 + c) then
        (d.markRaised (0x1000 + c)).event (blk (d.lead c) ixCAPTURE) 0 c 0 else d
    d.setChan c (fun x => { x with srcs := x.srcs.map (fun y =>
      if y.1 = k then (k, { f with anc := [((f.anc.headD (none, [])).1, (old.2.anc.headD (none, [])).2 ++ (f.anc.headD (none, [])).2)] })
      else y) })
  | none => d.setChan c (fun x => { x with srcs := x.srcs ++ [(k, f)] })

/-- The ingest phase while the channel is STARTING: θ rounded up to a whole µs (R87). DESIGN CHOICE: each source frame that arrives in
STARTING measures it again, and the last one fixes it (log entry 161). -/
def Dev.measurePhase (d : Dev) (c start : Nat) : Dev :=
  let ch := d.chan c
  if d.chState c ≠ 1 ∨ ch.startK < ch.k then d
  else
    let k := d.frameFrom c (start : Int)
    let k := if d.tickAt c k = (start : Int) then k else k - 1
    let theta := ((start : Int) - d.tickAt c k).toNat
    let phi := ceilDiv theta 65536000 * 1000
    (d.setChan c (fun x => { x with phase := some phi })).wr Reg.CMP_PHASE_PHI (wCMP c) phi

/-- A source frame that the standby of a protected channel captures belongs to a channel frame there too (R88, R267, R274). -/
def Dev.stbyFrame (d : Dev) (c start : Nat) : Dev :=
  if d.protectedCh c then
    let k := d.frameFrom c ((start : Int) - (d.phi c : Nat))
    d.setChan c (fun x => { x with sbyK := some k })
  else d

/-- SOURCE_FRAME (R43, R85, R87 to R91, R267): a frame of another rate or format, or with two or more links lost, is not assigned; `stby` tells that
the standby captured it. -/
def execSourceFrame (c : Nat) (f : SrcFrame) (s : State) : Host.Outcome State Fault Refusal :=
  s.onDev (fun d0 =>
    let d := d0.advanceTo (ceilDiv f.start 65536)
    let g := (d.chan c).cfg
    if d.live c = false ∨ feedOn g = true then d
    else if f.stby then (if f.formatOk then d.stbyFrame c f.start else d)
    else
      let d := d.quadSync c f.aligned
      let lost := if cf g Reg.SRC_CTRL_IF = 1 then (d.chan c).quadSeen else if cf g Reg.SRC_CTRL_IF = 0 then d.linksLost c else 0
      if f.formatOk && (lost == 0 || (cf g Reg.SRC_CTRL_IF == 1 && [1, 2, 4, 8].contains lost)) then
        (d.measurePhase c f.start).assignSrc c f
      else d.closeMain c)

/-- Whether a packet that comes on port `p` belongs to the channel's ST 2110-20 stream (R84, R86): the port runs at 100 or 400 GbE, and
the destination and, where PT_EN is 1, the payload type are the descriptor's. -/
def Dev.streamOurs (d : Dev) (c p : Nat) (h : StreamHdr) : Bool :=
  let g := (d.chan c).cfg
  let group := (List.range 4).foldl (fun a i => a + stGet g Reg.SRC_GROUP 0 i * 2 ^ (32 * i)) 0
  d.pUp (p / 16) (p % 16) && [100, 400].contains (d.portGbE p) && h.group == group && h.udp == cf g Reg.SRC_UDP_PORT
    && (cf g Reg.SRC_UDP_PT_EN == 0 || h.pt == cf g Reg.SRC_UDP_PT)

/-- ST2110_PACKET (R84, R86): the two copies of a stream are merged packet by packet; the first of a sequence number is taken. -/
def execSt2110Packet (c path : Nat) (x : StreamPkt) (s : State) : Host.Outcome State Fault Refusal :=
  s.onDev (fun d =>
    let g := (d.chan c).cfg
    let p := if path = 0 then cf g Reg.SRC_2110_PORT else cf g Reg.SRC_2110_PORT2
    let q := x.seq % 65536
    if d.live c = false ∨ cf g Reg.SRC_CTRL_IF ≠ 2 ∨ feedOn g = true ∨ (path ≠ 0 ∧ cf g Reg.SRC_2110_DUAL = 0)
        ∨ d.streamOurs c p x.hdr = false ∨ (d.chan c).seen.contains q = true then d
    else
      (d.setChan c (fun x =>
        { x with seen := x.seen.filter (fun y => (q + 65536 - y) % 65536 < 32768) ++ [q] })).emit (.source c path q))

/-! ## Ticks -/

/-- The frame k of the next frame tick is captured: its late layers are decided, and its main video is as soon as its
interval has passed (R38, R41, R79, R98). -/
def Dev.captureFrame (d : Dev) (c : Nat) : Dev :=
  let k := (d.chan c).k
  let d := if (d.chan c).startK = k ∧ d.chState c = 1 then d.channelStart c else d
  let roi := d.rd Reg.ROI_RESULT_VERSION (wROI c)
  let d := d.setChan c (fun x => { x with undecided := some k, info := tkeep (fun i _ => k < i + 64) x.info })
  let d := d.setInfo c k (fun y => { y with roi := roi })
  d.layersTick c k

/-- The actions of a frame tick in the order of R41. -/
def Dev.frameTick (d : Dev) (c : Nat) : Dev :=
  let d := d.closeMain c
  let d := ((d.layerApply c).roiApply c).statTick c
  let d := d.syncUtc
  let ch := d.chan c
  let go : Bool := decide (ch.startK ≤ ch.k) && (match ch.stopK with
    | some z => decide (ch.k < z)
    | none => true)
  let d := if go then d.captureFrame c else d
  let d := d.setChan c (fun x => { x with k := x.k + 1 })
  let d := (d.closeMain c).emitted c
  if d.protectedCh c then d.pgEvalAll else d

/-- Whether the timebases of all the regions that carry a channel have reached an instant: each derives the channel's ticks from its
own (R42). -/
def Dev.allReached (d : Dev) (c : Nat) (x : Int) : Bool := (d.chan c).regions.all (fun r => decide (x ≤ (d.tuOf r : Int)))

/-- FRAME_TICK (R38, R41, R42): at the first timebase clock with TB ≥ t_k in the regions that carry the channel. -/
def execFrameTick (c t : Nat) (s : State) : Host.Outcome State Fault Refusal :=
  s.onDev (fun d0 =>
    let d := d0.advanceTo t
    if d.live c = false ∨ d.allReached c (d.tickAt c (d.chan c).k) = false then d else d.frameTick c)

/-- SLICE_TICK (R39, R41, R42): at the first timebase clock with TB ≥ t_k + j × T_s, after the frame tick of its frame; the
departures of the slice begin. -/
def execSliceTick (c t : Nat) (s : State) : Host.Outcome State Fault Refusal :=
  s.onDev (fun d0 =>
    let d := d0.advanceTo t
    let ch := d.chan c
    if d.live c = false ∨ d.allReached c (d.slotTu c ch.n) = false ∨ ch.k * slices ch.cfg ≤ ch.n then d
    else
      let d := (d.closeMain c).setChan c (fun x => { x with n := x.n + 1 })
      d.egressNow (d.lead c))

/-- RACHIS_TICK (R44, R96, R232, R254, R261): where the region's own timebase has crossed a multiple of 1 µs since the last one. -/
def execRachisTick (r t : Nat) (s : State) : Host.Outcome State Fault Refusal :=
  s.onDev (fun d0 =>
    let d := (d0.advanceTo t).egressNow r
    let us := d.tbNs r / 1000
    if d.active r && us != (d.rach r).tick then
      (((d.setRach r (fun x => { x with tick := us })).raTick r).refillAll r).serveLayers r
    else d)

/-! ## Lines captured, pre-analysis (R111, R112, R224) -/

/-- The frame whose lines arrive: that of the newest source frame, else the newest one decided. -/
def Dev.arriving (d : Dev) (c : Nat) : Option Nat :=
  let ch := d.chan c
  match ch.srcs.getLast? with
  | some y => some y.1
  | none => (ch.info.filter (fun e => ch.undecided != some e.1)).getLast?.map (·.1)

/-- INPUT_CAPTURED (R87, R88, R128, R224): line e_j(r) of slice j is in memory. -/
def execInputCaptured (c rd j : Nat) (s : State) : Host.Outcome State Fault Refusal :=
  s.onDev (fun d =>
    let g := (d.chan c).cfg
    let d := d.closeMain c
    if d.live c = false ∨ numRend g ≤ rd ∨ slices g ≤ j then d
    else match d.arriving c with
    | some k => d.sendToken (d.codeRegion c k) 0x01 c rd j k 0 0
    | none => d)

/-- Entry (i, u) of the 8-point Hadamard matrix. -/
def had (i u : Nat) : Int :=
  let x := Nat.land i u
  if (x % 2 + x / 2 % 2 + x / 4 % 2) % 2 = 0 then 1 else -1

/-- H8 · X · H8 of 64 samples in raster order. -/
def hadamard (x : List Int) : List Int :=
  let at_ (l : List Int) (i j : Nat) : Int := l.getD (i * 8 + j) 0
  let idx := (List.range 8).flatMap (fun i => (List.range 8).map (fun j => (i, j)))
  let rows := idx.map (fun p => (List.range 8).foldl (fun (a : Int) u => a + had p.1 u * at_ x u p.2) 0)
  idx.map (fun p => (List.range 8).foldl (fun (a : Int) u => a + at_ rows p.1 u * had u p.2) 0)

/-- The sum of magnitudes. -/
def sumAbs (l : List Int) : Nat := l.foldl (fun a v => a + v.natAbs) 0

/-- SATD_intra of a block of 64 samples. -/
def satdIntra (cur : List Int) : Nat :=
  let c := hadamard cur
  (sumAbs c - (c.headD 0).natAbs + 2) / 4

/-- SATD_inter of a block against the 64 samples that its hint points to. -/
def satdInter (cur prev : List Int) : Nat := (sumAbs (hadamard (List.zipWith (· - ·) cur prev)) + 2) / 4

/-- A motion hint within its range: ±256 samples horizontally and ±128 vertically (R111). -/
def hintIn (v : Int × Int) : Int × Int := (clampInt (-256) 256 v.1, clampInt (-128) 128 v.2)

/-- The luma that the analysis of slice `j` of frame `k` reads: the source frame, or in a 1080i channel the field of the slice. -/
def Dev.lumaOf (d : Dev) (c k j : Nat) : List (List Nat) :=
  let g := (d.chan c).cfg
  let y := (d.srcPic c k).y
  if interlaced g then fieldRows (j / picSlices g) y else y

/-- The 64 samples of the 8 × 8 block whose first sample is (x, y), displaced by `v`; beyond the edges of frame `k` the spec gives
none. -/
def block8 (k : Nat) (p : List (List Nat)) (x y : Nat) (v : Int × Int) : List Int :=
  (List.range 64).map (fun n =>
    let px := (x + n % 8 : Nat) + v.1
    let py := (y + n / 8 : Nat) + v.2
    if px < 0 ∨ py < 0 ∨ (planeW p : Int) ≤ px ∨ (p.length : Int) ≤ py then ((Config.beyondEdge k py px : Nat) : Int)
    else (((p.getD py.toNat []).getD px.toNat 0 : Nat) : Int))

/-- What is found of a block (R111): its SATD_intra, and its SATD_inter where the channel has a previous source frame. -/
structure BlockCost where
  intra : Nat
  inter : Nat
  deriving DecidableEq, Repr

/-- The first samples of the 8 × 8 blocks that the area of CTU (`cx`, `row`) covers in the source picture of `h` lines. DESIGN CHOICE: a
block of a scaled rendition belongs to the CTU that its first sample maps into (log entry 164). -/
def ctuBlocks (g : Tbl Nat) (rd h cx row : Nat) : List (Nat × Nat) :=
  let s := ctuSize g rd
  let ph := picH g rd
  let x0 := ceilDiv (ceilDiv (cx * s * srcW g) (max 1 (rdW g rd))) 8
  let x1 := ceilDiv (ceilDiv (min ((cx + 1) * s) (rdW g rd) * srcW g) (max 1 (rdW g rd))) 8
  let y0 := ceilDiv (ceilDiv (row * s * h) (max 1 ph)) 8
  let y1 := ceilDiv (ceilDiv (min ((row + 1) * s) ph * h) (max 1 ph)) 8
  (List.range (y1 - y0)).flatMap (fun j => (List.range (x1 - x0)).map (fun i => ((x0 + i) * 8, (y0 + j) * 8)))

/-- The costs of the blocks of a CTU in slice `j` of frame `k`. -/
def Dev.ctuCosts (d : Dev) (c rd k j cx row : Nat) (noPrev : Bool) : List BlockCost :=
  let g := (d.chan c).cfg
  let cur := d.lumaOf c k j
  let prev := d.lumaOf c (k - 1) j
  let hints := (tget (d.chan c).info k FrameInfo.init).hints
  (ctuBlocks g rd cur.length cx row).map (fun p =>
    let b := block8 k cur p.1 p.2 (0, 0)
    let v := tget hints (j / picSlices g * 65536 + p.2 / 16 * ceilDiv (srcW g) 16 + p.1 / 16) (0, 0)
    ⟨satdIntra b, if noPrev then 0 else satdInter b (block8 (k - 1) prev p.1 p.2 v)⟩)

/-- The complexity of a CTU over the source blocks of its area. -/
def ctuCplx (g : Tbl Nat) (rd : Nat) (noPrev : Bool) (bs : List BlockCost) : Nat :=
  let v := sumL (bs.map (fun b => if noPrev then b.intra else min b.intra b.inter))
  let v := if scaledRd g rd then roundDiv (v * (rdW g rd * rdH g rd)) (srcW g * srcH g) else v
  min v (2 ^ 24 - 1)

/-- The analysis of the next slice of a rendition, in display order. `hints` are the vectors that the search of R111 found, by 16 × 16
block; the first source frame has none. -/
def Dev.analyse (d : Dev) (c rd k : Nat) (hints : List (Nat × Int × Int)) : Dev :=
  let ch := d.chan c
  let g := ch.cfg
  let x := d.rend c rd
  let j := x.an % slices g
  let noPrev := (tget ch.info k FrameInfo.init).noPrev || !ch.everSrc
  let pic := (k - x.firstK) * fields g + j / picSlices g
  let list := sliceRowList g rd (j % picSlices g)
  let d := if noPrev then d else d.setInfo c k (fun y =>
    { y with hints := hints.foldl (fun m v => tput m (j / picSlices g * 65536 + v.1 % 65536) (hintIn v.2)) y.hints })
  let costs := list.map (fun row => (List.range (ctuCols g rd)).map (fun cx => d.ctuCosts c rd k j cx row noPrev))
  let vals := costs.map (List.map (ctuCplx g rd noPrev))
  let all := costs.flatten.flatten
  let thr := d.rd Reg.PA_CTRL_SC_THR (blk (d.lead c) ixCAPTURE)
  let cut := decide (thr * sumL (all.map (·.intra)) ≤ 16 * sumL (all.map (·.inter))) && !noPrev
  let d := if rd = 0 then d.setInfo c k (fun y =>
      { y with cuts := setBit y.cuts j cut, scene := y.scene || (j == 0 && cut) }) else d
  let d := d.setRend c rd (fun x =>
    { x with an := x.an + 1,
             cplx := (list.zip vals).foldl (fun m p => tput m (cplxKey pic p.1) p.2) x.cplx })
  d.sendToken (d.codeRegion c k) 0x02 c rd j k (sumL (vals.map sumL)) 0

/-- The frame of the next slice that an instance of a rendition analyses, while it still codes it. -/
def Chan.nextAn (ch : Chan) (x : Rend) : Option Nat :=
  let k := x.firstK + x.an / max 1 (slices ch.cfg)
  match stopFor ch x with
  | some e => if k < e then some k else none
  | none => some k

/-- ANALYSED (R111, R112, R135, R185, R224): the pre-analysis of slice j is written. -/
def execAnalysed (c rd j : Nat) (hints : List (Nat × Int × Int)) (s : State) : Host.Outcome State Fault Refusal :=
  s.onDev (fun d0 =>
    let d := d0.closeMain c
    let ch := d.chan c
    let old := (tget? d.olds (c * 8 + rd)).bind (fun o => (ch.nextAn o.1).map (fun k => (k, o.1.an)))
    let cur := (tget? d.rends (c * 8 + rd)).bind (fun x => (ch.nextAn x).map (fun k => (k, x.an)))
    match old.orElse (fun _ => cur) with
    | none => d
    | some (k, an) =>
      if d.live c = true ∧ an % slices ch.cfg = j ∧ (k < ch.k ∨ ch.srcs.any (fun y => y.1 == k) = true) then
        d.asOf c rd k (fun d => d.analyse c rd k hints)
      else d)

end Sys2Proof.Machine
end

