-- ==== Sys2Proof/Machine/Units.lean ====
section
/-! DEFINITION. The NAL units of a tick slice (R119, R125, R126, R134, R138, R144, R151 to R154, R162, R165). -/

namespace Sys2Proof.Machine

/-- The columns of the clean area after frame `i` of a sweep of `r` frames over `w` columns (R133, R134). -/
def cleanCols (w r i : Nat) : Nat := min w (if r ≤ w then (i + 1) * w / r else i * w / r + 1)

/-- The refresh edge of a picture in luma samples from the left, while columns remain (R134). -/
def refreshEdge (g : Tbl Nat) (rd i : Nat) : Option Nat :=
  let w := ctuCols g rd
  let n := cleanCols w (cfR g rd Reg.RN_GOP_REFRESH_PERIOD) i
  if w ≤ n then none else some ((if cfR g rd Reg.RN_GOP_DIR = 1 then w - n else n) * ctuSize g rd)

/-- Whether an access unit carries parameter sets (R125). -/
def paramsHere (g : Tbl Nat) (rd : Nat) (t : PicT) (bottom : Bool) : Bool :=
  t.irap || (t.sweep == some 0 && !bottom) || cfR g rd Reg.RN_SEI_PS_EVERY_AU == 1

/-- Whether an access unit carries a buffering period (R151). -/
def periodHere (t : PicT) (bottom : Bool) : Bool := t.irap || (t.sweep == some 0 && !bottom)

/-- The initial delay and offset of a buffering period in 90 kHz ticks (R165, R187): N_cpb at the stream's first, later what remains
from the first unit's arrival to its removal. -/
def bufDelay (g : Tbl Nat) (rd : Nat) (x : Rend) (s : Slot4) : Nat × Nat :=
  let u := unitOf g rd s.i
  let n := nCpb g rd
  let tr : Int := ((tcpbX g rd + u * tunitX g rd : Nat) : Int)
  let tai := max (tafBefore g rd x u) ((u * tunitX g rd : Nat) : Int)
  let delay := if s.i = 0 then n else min n ((tr - tai).toNat * 90000 / max 1 (rSig g rd * ledgerDen g rd))
  (delay, n - delay)

/-- The identifier that a new ALF parameter set takes (R125): the lowest that neither this picture nor any of the last 8 refers to. -/
def alfId (x : Rend) (refs : List Nat) : Option Nat := (List.range 8).find? (fun i => !((refs :: x.alf).any (fun l => l.contains i)))

/-- One SEI NAL unit with its size where the payload's bytes are known. -/
def seiKnown (g : Tbl Nat) (rd type : Nat) (x : Sei) (bytes : List Nat) : Nal × Nat :=
  (.sei x, seiSize (codec g rd) type bytes + startCode g rd false)

/-- The prefix SEI messages of an access unit, each in a NAL unit of its own, in the order of R151's table; the DU information SEI goes
with its decoding unit. DEDUCED: the drop-frame bit of a source's timecode is that of ENC_TC.DROP and the rate (log entry 56). -/
def Dev.auSei (d : Dev) (c rd : Nat) (x : Rend) (s : Slot4) (z : NvIn) : List (Nal × Nat) :=
  let ch := d.chan c
  let g := ch.cfg
  let t := d.typeAt c rd x s
  let fi := tget ch.info s.k FrameInfo.init
  let cod := codec g rd
  let pics := s.i / picSlices g
  let sweep := t.sweep == some 0 && !s.bottom
  let tc := if cfR g rd Reg.RN_SEI_TC_EN = 1 then fi.tc else none
  let drop := decide (tcDrop g ≠ 0)
  let count := if drop then 4 else 0
  let hdr := paramsHere g rd t s.bottom && cfR g rd Reg.RN_SEI_HDR_EN == 1
  let caps := if cfR g rd Reg.RN_SEI_CC_EN = 1 ∧ s.bottom = false then fi.caps else []
  let sc := startCode g rd false
  let r := cfR g rd Reg.RN_GOP_REFRESH_PERIOD
  let one (b : Bool) (v : Nal × Nat) : List (Nal × Nat) := if b then [v] else []
  let bp := bufDelay g rd x s
  let out := if ladder g then (if gop g = 16 then 4 else 3) else 0
  let struct_ := if cod = 1 then some (if interlaced g then 1 + b2n s.bottom else 0) else none
  let clock := if cod = 0 then tc.map (fun y => (y, count, fi.tcDisc)) else none
  let recover : Int := if cod = 0 then ((r : Int) - 1) else pocOf g rd x (s.k + r - 1) 0 - pocOf g rd x s.k 0
  one (periodHere t s.bottom) (.sei (.bufferingPeriod bp.1 bp.2 0), z.bp + sc)
    ++ [(.sei (.picTiming (pics - x.bpAt - 1) out struct_ clock), z.pt + sc)]
    ++ one (!caps.isEmpty) (seiKnown g rd 4 (.registered (captionBytes caps)) (captionBytes caps))
    ++ (match tc with
      | some y =>
        let bytes := vvcTimecode drop fi.tcDisc fi.tcSrc y
        one (cod == 2) (seiKnown g rd 5 (.unregistered bytes) bytes)
      | none => [])
    ++ one (cod != 2 && sweep) (.sei (.recoveryPoint recover true false), z.rp + sc)
    ++ (match tc with
      | some y => one (cod == 1) (.sei (.timeCode y count fi.tcDisc), z.tc + sc)
      | none => [])
    ++ one hdr (seiKnown g rd 137 (.mastering (masteringBytes g rd)) (masteringBytes g rd))
    ++ one hdr (seiKnown g rd 144 (.contentLight (lightBytes g rd)) (lightBytes g rd))

/-- The non-VCL NAL units of a tick slice before its slices, in the order of R126, and the ALF parameter sets that its picture refers
to. -/
def Dev.nonVclOf (d : Dev) (c rd : Nat) (x : Rend) (s : Slot4) (z : NvIn) (a : ApsIn) : List (Nal × Nat) × List Nat :=
  let ch := d.chan c
  let g := ch.cfg
  let b := ch.regions.length
  let t := d.typeAt c rd x s
  let cod := codec g rd
  let dui : List (Nal × Nat) := if duUnits g rd then
      [(.sei (.duInfo s.jj (if s.jj = 0 then Config.firstDuDelay (s.i / picSlices g) else 1)), z.dui + startCode g rd false)] else []
  if s.jj ≠ 0 then (dui, [])
  else
    let long := startCode g rd true
    let sets : List (Nal × Nat) := if paramsHere g rd t s.bottom then
        (if cod = 1 then [(.vps 0 (hrdOf g rd), z.vps + long)] else [])
          ++ [(.sps (spsOf g rd b), z.sps + long), (.pps (ppsOf g rd b), z.pps + long)] else []
    let id := if cod = 2 ∧ a.newAlf = true then alfId x a.refs else none
    let alf := if cod = 2 then a.refs ++ id.toList else []
    let aps : List (Nal × Nat) := (match id with
        | some i => [(.aps false i, z.alf + long)]
        | none => [])
      ++ (if a.newLmcs && (toolsOf g rd).contains .lmcs then [(.aps true 0, z.lmcs + long)] else [])
    let period := cfR g rd Reg.RN_GOP_REFRESH_PERIOD
    let ph : List (Nal × Nat) := if cod = 2 then
        [(.ph (t.kind == .gdr) (if t.kind = .gdr then some (pocOf g rd x (s.k + period - 1) 0 - pocOf g rd x s.k 0) else none)
          (t.sweep.bind (refreshEdge g rd)), z.ph + startCode g rd false)] else []
    ([(.aud, audSize g rd)] ++ sets ++ aps ++ d.auSei c rd x s z ++ dui ++ ph, alf)

/-- Whether a tick slice is the last of its rendition, which a MODIFY or a STOP ends (R119). -/
def lastOf (g : Tbl Nat) (x : Rend) (stop : Option Nat) (s : Slot4) : Bool :=
  stop == some (x.firstK + s.pos + 1) && s.j + 1 == slices g

/-- Bits of the end-of-bitstream NAL unit that ends a rendition's last access unit. -/
def eobBits (g : Tbl Nat) (rd : Nat) (x : Rend) (stop : Option Nat) (s : Slot4) : Nat := if lastOf g x stop s then 8 * eobSize g rd else 0

/-- The coding rows of each slice NAL unit of slice `jj` (R127, R141). -/
def nalRows (g : Tbl Nat) (rd b jj : Nat) : List (List Nat) :=
  let rows := sliceRowList g rd jj
  if codec g rd = 0 then rows.map (fun r => [r])
  else ((rows.map (bandOf g rd b)).eraseDups).map (fun x => rows.filter (fun r => bandOf g rd b r == x))

/-- disable_deblocking_filter_idc of an AVC slice: 2 for the first slice of a band other than band 0 (R122, R141). -/
def deblockIdc (g : Tbl Nat) (rd b row : Nat) : Nat :=
  if codec g rd = 0 ∧ row ≠ 0 ∧ bandOf g rd b row ≠ bandOf g rd b (row - 1) then 2 else 0

/-- The slice NAL units of a completed tick slice: `heads` gives the bits of each header, rows carry what they took; the entry points are
the sizes of the rows but the last (R129). -/
def Dev.sliceUnits (d : Dev) (c rd : Nat) (x : Rend) (s : Slot4) (o : Open) (heads : List Nat) : List (Nal × Nat) :=
  let ch := d.chan c
  let g := ch.cfg
  let b := ch.regions.length
  let t := d.typeAt c rd x s
  let refs := d.refsOf c rd x s
  let bits (r : Nat) : Nat := ((o.rows.find? (fun y => y.row == r)).bind (·.done)).getD 0
  let nals := nalRows g rd b s.jj
  (List.range nals.length).map (fun n =>
    let rows := nals.getD n []
    let first := rows.headD 0
    (.slice { kind := t.kind, type := if t.kind = .idr ∨ t.kind = .cra then 0 else if t.isB || gopMode g rd == 1 || gopMode g rd == 3 then 2 else 1,
              first := first, rows := rows.length, field := if interlaced g then 1 + b2n s.bottom else 0, refs0 := refs.1, refs1 := refs.2,
              qp := o.qp, deblockIdc := deblockIdc g rd b first,
              entries := if codec g rd = 0 then [] else rows.dropLast.map (fun r => bits r / 8), alf := o.alf },
     ceilDiv (sumL (rows.map bits) + heads.getD n 0) 8))

/-- The hops of a band's slices to the lead region (R144): in a quad, region a + 5 goes by way of a + 1. -/
def bandHops (rs : List Nat) (r : Nat) : List (Nat × Nat) :=
  let a := rs.headD 0
  if r = a then [] else if r = a + 5 then [(a + 5, a + 1), (a + 1, a)] else [(r, a)]

/-- Each region of a span other than the lead sends its slice NAL units to the lead (R144). -/
def Dev.sendBands (d : Dev) (c rd : Nat) (s : Slot4) (vcl : List (Nal × Nat)) : Dev :=
  let ch := d.chan c
  let b := ch.regions.length
  if b ≤ 1 then d
  else d.each vcl (fun d v => match v.1 with
    | .slice h =>
      let r := ((bandRegions ch.regions)[bandOf ch.cfg rd b h.first]?).getD (d.lead c)
      d.each (bandHops ch.regions r) (fun d p => d.emit (.bandSlice c rd s.k s.j p.1 p.2 v.2))
    | _ => d)

end Sys2Proof.Machine
end

