-- ==== Sys2Proof/Machine/Search.lean ====
section
/-! DEFINITION. How a coding engine codes a CTU (R71, R76, R120 to R123, R134, R142 to R146, R179): which codings a level and the floor
mode leave open, which of them the effort chooses, and the motion search. -/

namespace Sys2Proof.Machine

/-! ## Codings that are open -/

/-- Whether the ladder level, the floor mode, the CTU's kind and the codec's tables leave a coding open. `intraOnly` holds for the kinds I
and R (R170), `pre8` is the pre-analysis's choice of the 8 × 8 transform, `isB` whether the slice is a B slice. -/
def codingOpen (g : Tbl Nat) (rd lv : Nat) (floor intraOnly isB pre8 : Bool) (z : Coding) : Bool :=
  let cod := codec g rd
  let has (t : Tool) : Bool := z.tools.contains t
  let none_ (l : List Tool) : Bool := !(l.any has)
  let modes := z.blocks.filterMap (·.intra)
  let inter := z.blocks.filter (fun b => b.intra.isNone)
  let one (b : PredBlk) : Bool := b.preds.length ≤ 1 && b.preds.all (fun p => match p.mv with
    | .search _ _ => false
    | _ => true)
  z.tools.all (fun t => (toolsOf g rd).contains t)
    && (!floor || none_ [.sao, .alf, .ccAlf])
    && (!intraOnly || inter.isEmpty)
    && inter.all (fun b => !b.preds.isEmpty)
    && (isB || none_ [.spatialDirect])
    && (lv < 3 || none_ [.rdoq])
    && (lv < 4 || inter.all one)
    && (if cod = 2 then
          z.mttDepth ≤ (if 2 ≤ lv then 1 else 3) && (lv < 2 || (none_ [.ternarySplit] && 16 ≤ z.cuMin))
            && (lv < 3 || none_ [.affine, .gpm, .ciip, .mts, .lfnst]) && (lv < 4 || modes.all (· ≤ 1))
        else if cod = 1 then
          (if 2 ≤ lv then 16 else 8) ≤ z.cuMin && z.tuDepth ≤ (if 2 ≤ lv then 1 else 3) && (lv < 2 || none_ [.asymPartition])
            && (lv < 3 || modes.all (fun m => [0, 1, 10, 26].contains m)) && (lv < 4 || modes.all (· ≤ 1))
        else
          inter.all (fun b => (if 2 ≤ lv then 8 else 4) ≤ b.w && (if 2 ≤ lv then 8 else 4) ≤ b.h)
            && (lv < 3 || has .transform8 == pre8)
            && (lv < 4 || z.blocks.all (fun b => match b.intra with
              | some m => m == 2 && b.w == 16 && b.h == 16
              | none => true)))

/-- Codings up to the depth at which a split costs 1.1 times the best unsplit cost (R123, BROADCAST). -/
def earlyStop (l : List Coding) : List Coding :=
  let depths := (List.range 9).filter (fun n => l.any (fun z => z.depth == n))
  let best (n : Nat) : Nat := (((l.filter (fun z => z.depth ≤ n)).map (·.cost)).min?).getD 0
  let own (n : Nat) : Nat := (((l.filter (fun z => z.depth == n)).map (·.cost)).min?).getD 0
  let stop := (depths.zip depths.tail).find? (fun p => decide (11 * best p.1 ≤ 10 * own p.2))
  match stop with
  | some p => l.filter (fun z => z.depth ≤ p.2)
  | none => l

/-- The codings that the engine tests of those that are open (R71, R123): at L4 the first alone. -/
def codingsTested (g : Tbl Nat) (rd lv est : Nat) (l : List Coding) : List Coding :=
  let e := cfR g rd Reg.RN_CTRL_EFFORT
  if 4 ≤ lv then l.take 1
  else if e = 0 then l.filter (fun z => z.depth ≤ est + 1 && est ≤ z.depth + 1 && z.rank < 11)
  else if e = 1 then earlyStop l
  else l

/-! ## Where a vector may point -/

/-- What bounds the vectors of a picture's blocks: the picture's reference lists, and the lines of R142 and R143. -/
structure MvCtx where
  c : Nat
  rd : Nat
  lv : Nat
  s : Slot4
  t : PicT
  refs : List Nat × List Nat
  lines : Nat × Nat
  row : Nat
  deriving DecidableEq, Repr

/-- The largest vertical vector of AVC in quarter samples by level_idc (PRESUMED, the standard's MaxVmvR). -/
def avcVertical (level : Nat) : Nat := if level ≤ 10 then 256 else if level ≤ 20 then 512 else if level ≤ 30 then 1024 else 2048

/-- Whether a vector lies in the range of the codec and its level (R145; the ranges PRESUMED from the standards). -/
def mvInRange (g : Tbl Nat) (rd : Nat) (v : Int × Int) : Bool :=
  let within (n w : Int) : Bool := decide (-n ≤ w) && decide (w < n)
  if codec g rd = 0 then
    within 8192 v.1 && within ((avcVertical ((levelOf g rd).getD (0, 0)).1 / fields g : Nat) : Int) v.2
  else within 32768 v.1 && within 32768 v.2

/-- Whether a column of samples lies in a clean area of `n` columns, `margin` samples from its refresh edge (R134). -/
def inClean (g : Tbl Nat) (rd n margin x : Nat) : Bool :=
  let w := ctuCols g rd
  if w ≤ n then true
  else if cfR g rd Reg.RN_GOP_DIR = 1 then (w - n) * ctuSize g rd + margin ≤ x && n != 0
  else x + margin < n * ctuSize g rd

/-- The first and last of the samples that a block of `n` from `at_` reads along one direction, with the interpolation's support
(PRESUMED taps of the standards), the picture's edge of `size` repeated. -/
def readSpan (cod at_ n size : Nat) (v : Int) : Nat × Nat :=
  let lo : Int := if v % 4 = 0 then 0 else if cod = 0 then 2 else 3
  let hi : Int := if v % 4 = 0 then 0 else if cod = 0 then 3 else 4
  let p : Int := (at_ : Int) + v / 4
  let clip (y : Int) : Nat := (clampInt 0 ((size : Int) - 1) y).toNat
  (clip (p - lo), clip (p + (n : Int) - 1 + hi))

/-- Whether a block may refer to picture `ref` by vector `v` (R134, R142, R143, R145). DEDUCED: a picture from before the sweep has no clean
area (log entry 167). -/
def Dev.mvOpen (d : Dev) (z : MvCtx) (x y w h ref : Nat) (v : Int × Int) : Bool :=
  let g := (d.chan z.c).cfg
  let rn := d.rend z.c z.rd
  let cod := codec g z.rd
  let xs := readSpan cod x w (rdW g z.rd) v.1
  let ys := readSpan cod y h (picH g z.rd) v.2
  let clean : Bool := match z.t.sweep with
    | none => true
    | some i =>
      let r := cfR g z.rd Reg.RN_GOP_REFRESH_PERIOD
      let wc := ctuCols g z.rd
      if !(inClean g z.rd (cleanCols wc r i) 0 x) then true
      else
        let back := z.s.k - (rn.firstK + ref / fields g)
        if i < back then false
        else
          let n := cleanCols wc r (i - back)
          inClean g z.rd n 8 xs.1 && inClean g z.rd n 8 xs.2
  mvInRange g z.rd v && clean && decide (z.lines.1 ≤ ys.1) && decide (ys.2 < z.lines.2)

/-! ## The search (R145, R146) -/

/-- The best vector so far with its cost, and the positions evaluated. -/
structure Found where
  best : Option ((Int × Int) × Nat)
  used : Nat
  deriving DecidableEq, Repr

/-- Evaluates one position: it becomes the best where it may be used and costs less. -/
def Found.eval (f : Found) (open_ : Int × Int → Bool) (cost : Int × Int → Nat) (v : Int × Int) : Found :=
  let better : Bool := match f.best with
    | none => true
    | some b => decide (cost v < b.2)
  { best := if open_ v && better then some (v, cost v) else f.best, used := f.used + 1 }

/-- Rounds of refinement at one precision until the best stays or the budget is spent. -/
def refine (open_ : Int × Int → Bool) (cost : Int × Int → Nat) (budget prec : Nat) : Nat → Nat → Found → Found
  | 0, _, f => f
  | fuel + 1, n, f =>
    match f.best with
    | none => f
    | some b =>
      let next := (Config.pattern prec n).foldl (fun (h : Found) o =>
        if budget ≤ h.used then h else h.eval open_ cost (b.1.1 + o.1 * (prec : Int), b.1.2 + o.2 * (prec : Int))) f
      if next.best = f.best then next else refine open_ cost budget prec fuel (n + 1) next

/-- The integer-sample window around the hint (R71, R145): ±256 by ±128 samples, a quarter of it from L1 on. -/
def inWindow (lv : Nat) (hint v : Int × Int) : Bool :=
  let n : Nat := if lv = 0 then 4 else 1
  decide ((v.1 - hint.1).natAbs ≤ 256 * n) && decide ((v.2 - hint.2).natAbs ≤ 128 * n)

/-- The motion search of one prediction: the start candidates in order, of which the first two are always evaluated, the integer
refinement, and the sub-sample ones (R71, R123, R145). -/
def searchMv (cod lv effort w h budget : Nat) (amvr : Bool) (hint : Int × Int) (starts : List (Int × Int)) (open_ : Int × Int → Bool)
    (costs : List ((Int × Int) × Nat)) : Found :=
  let cost (v : Int × Int) : Nat := ((costs.find? (fun p => p.1 == v)).map (·.2)).getD (2 ^ 32)
  let f : Found := (starts.take 2).foldl (fun f v => f.eval open_ cost v) ⟨none, 0⟩
  let f := (starts.drop 2).foldl (fun (f : Found) v => if budget ≤ f.used then f else f.eval open_ cost v) f
  let f := refine (fun v => open_ v && inWindow lv hint v) cost budget 4 budget 0 f
  let sub (f : Found) : Found :=
    let f := refine open_ cost budget 2 budget 0 f
    if lv = 0 ∨ (cod = 0 ∧ w = 16 ∧ h = 16) then refine open_ cost budget 1 budget 0 f else f
  let f := if effort = 2 then sub (sub f) else sub f
  match f.best with
  | some b =>
    if amvr then [(b.1.1 / 4 * 4, b.1.2 / 4 * 4), (b.1.1 / 16 * 16, b.1.2 / 16 * 16)].foldl (fun (f : Found) v =>
      if budget ≤ f.used then f else f.eval open_ cost v) f else f
  | none => f

/-- The budget of a block in search positions: a fixed number for each 16 × 16 block with DET, otherwise the effort's share of the row's
cycles by the block's part of the row's area (R123, R145, R146). -/
def searchBudget (g : Tbl Nat) (rd row allow posCycles area : Nat) : Nat :=
  let e := cfR g rd Reg.RN_CTRL_EFFORT
  if cf g Reg.ENC_CH_DET = 1 then ceilDiv ((if e = 0 then 96 else if e = 1 then 160 else 224) * area) 256
  else
    let share := if e = 0 then 4 else if e = 1 then 6 else 7
    allow * share * area / (10 * max 1 (rowCtus g rd row * ctuSize g rd * ctuSize g rd) * max 1 posCycles)

/-- The pre-analysis hint of the block around a place of the rendition, scaled to it, in quarter samples (R111, R145). -/
def Dev.hintAt (d : Dev) (c rd k j cx cy : Nat) : Int × Int :=
  let g := (d.chan c).cfg
  let hs := srcH g / fields g
  let sx := cx * srcW g / max 1 (rdW g rd)
  let sy := cy * hs / max 1 (picH g rd)
  let v := tget (tget (d.chan c).info k FrameInfo.init).hints
    (j / picSlices g * 65536 + sy / 16 * ceilDiv (srcW g) 16 + sx / 16) (0, 0)
  (roundInt (v.1 * 4 * (rdW g rd : Int)) (max 1 (srcW g)), roundInt (v.2 * 4 * (picH g rd : Int)) (max 1 hs))

/-- The key of a 4 × 4 block in the vectors of a picture. -/
def mvKey (x y : Nat) : Nat := y / 4 * 4096 + x / 4

/-- Stores a block's vector. -/
def putMv (m : Tbl (Int × Int)) (x y w h : Nat) (v : Option (Int × Int)) : Tbl (Int × Int) :=
  ((List.range (h / 4)).flatMap (fun j => (List.range (w / 4)).map (fun i => mvKey (x + 4 * i) (y + 4 * j)))).foldl (fun m k =>
    match v with
    | some v => tput m k v
    | none => tdel m k) m

/-- What coding a CTU's blocks finds: the picture's vectors with the CTU's, and the positions evaluated; none where a prediction has no
vector that it may use. -/
structure Vecs where
  mvs : Tbl (Int × Int)
  used : Nat
  deriving DecidableEq, Repr

/-- The vector of one prediction of the block at (x, y) of the picture. -/
def Dev.predMv (d : Dev) (z : MvCtx) (q : Vecs) (x y w h budget : Nat) (amvr : Bool) (p : PredRef) : Option ((Int × Int) × Nat) :=
  let g := (d.chan z.c).cfg
  match (if p.list = 0 then z.refs.1 else z.refs.2)[p.idx]? with
  | none => none
  | some ref =>
    let open_ (v : Int × Int) : Bool := d.mvOpen z x y w h ref v
    let hint := d.hintAt z.c z.rd z.s.k z.s.j (x + w / 2) (y + h / 2)
    match p.mv with
    | .hint => if open_ hint then some (hint, 1) else none
    | .merge v => if open_ v then some (v, 1) else none
    | .search costs merges =>
      let top := if codec g z.rd = 0 then z.row * rowLines g z.rd else (sliceRows g z.rd z.s.jj).1 * rowLines g z.rd
      let above (u : Nat) : List (Int × Int) := if y ≤ top then [] else (tget? q.mvs (mvKey u (y - 4))).toList
      let left := if x = 0 then [] else (tget? q.mvs (mvKey (x - 4) y)).toList
      let col := ((z.refs.1.head?.bind (fun r => tget? (d.rend z.c z.rd).col r)).bind (fun m => tget? m (mvKey (x + w / 2) (y + h / 2)))).toList
      let starts := [hint, (0, 0)] ++ left ++ above x ++ above (x + w) ++ col ++ merges
      let f := searchMv (codec g z.rd) z.lv (cfR g z.rd Reg.RN_CTRL_EFFORT) w h budget amvr hint starts open_ costs
      f.best.map (fun b => (b.1, f.used))

/-- The blocks of a coding one after another; the CTU's first sample is (x0, y0). -/
def Dev.codeBlocks (d : Dev) (z : MvCtx) (x0 y0 allow posCycles : Nat) (amvr : Bool) : List PredBlk → Vecs → Option Vecs
  | [], q => some q
  | b :: rest, q =>
    let g := (d.chan z.c).cfg
    let x := x0 + b.x
    let y := y0 + b.y
    let budget := searchBudget g z.rd z.row allow posCycles (b.w * b.h)
    let found := b.preds.map (d.predMv z q x y b.w b.h budget amvr)
    if b.intra.isSome then d.codeBlocks z x0 y0 allow posCycles amvr rest { q with mvs := putMv q.mvs x y b.w b.h none }
    else if found.any Option.isNone then none
    else
      let v := ((b.preds.zip found).find? (fun p => p.1.list == 0)).bind (fun p => p.2.map (·.1))
      d.codeBlocks z x0 y0 allow posCycles amvr rest
        { mvs := putMv q.mvs x y b.w b.h v, used := q.used + (found.filterMap id).foldl (fun a p => a + p.2) 0 }

/-- A coding that was tested and can be used, with its vectors. -/
structure Tried where
  coding : Coding
  vecs : Vecs
  deriving DecidableEq, Repr

/-- The coding of least cost, the first of equals. -/
def bestTried (l : List Tried) : Option Tried :=
  l.foldl (fun a z => match a with
    | none => some z
    | some b => if z.coding.cost < b.coding.cost then some z else some b) none

/-- The coding that the engine takes for a CTU, none where no coding given is open, and the search positions that it spent. -/
def Dev.chooseCoding (d : Dev) (z : MvCtx) (x0 y0 allow : Nat) (floor intraOnly : Bool) (mvs : Tbl (Int × Int)) (x : CtuIn) :
    Option Tried × Nat :=
  let g := (d.chan z.c).cfg
  let isB := z.t.isB || gopMode g z.rd == 1 || gopMode g z.rd == 3
  let open_ := x.cands.filter (codingOpen g z.rd z.lv floor intraOnly isB x.pre8)
  let usable := open_.filterMap (fun y =>
    (d.codeBlocks z x0 y0 allow x.posCycles (y.tools.contains .amvr) y.blocks ⟨mvs, 0⟩).map (fun v => Tried.mk y v))
  let tested := codingsTested g z.rd z.lv x.est (usable.map (·.coding))
  let l := usable.filter (fun y => tested.contains y.coding)
  (if 4 ≤ z.lv then l.head? else bestTried l, l.foldl (fun a y => a + y.vecs.used) 0)

/-- Whether more than half of the area of a coding's blocks is intra (R159). -/
def mostlyIntra (z : Coding) : Bool :=
  let area (l : List PredBlk) : Nat := l.foldl (fun a b => a + b.w * b.h) 0
  decide (area z.blocks < 2 * area (z.blocks.filter (fun b => b.intra.isSome)))

end Sys2Proof.Machine
end

