-- ==== Sys2Proof/Machine/Coding.lean ====
section
/-! DEFINITION. The coding commands: the grant of a tick slice (R172 to R178, R185, R188, R189), the CTUs of a row (R129, R149, R179 to R181),
a row's time budget (R72, R75), a row's completion with all that follows from it (R73, R77, R126, R129, R137, R162, R167, R169,
R182 to R184, R188, R270), and halo rows (R142). -/

namespace Sys2Proof.Machine

/-! ## The grant -/

/-- Frames since the last random-access picture (R271). -/
def sinceAccess (g : Tbl Nat) (rd : Nat) (x : Rend) (k : Nat) : Nat :=
  let f := k - irOf x k
  let ip := cfR g rd Reg.RN_GOP_INTRA_PERIOD
  let m := gopMode g rd
  if m = 5 then 0 else if refreshMode m then (if codec g rd = 2 then f % cfR g rd Reg.RN_GOP_REFRESH_PERIOD else k - segOf x k)
  else if ip = 0 then f else f % ip

/-- The state at the start of a tick slice that its mirror record tells, up to ROI_VER and from TC on (R271). -/
def Dev.snapOf (d : Dev) (c rd : Nat) (x : Rend) (s : Slot4) : List Int :=
  let ch := d.chan c
  let g := ch.cfg
  let t := d.typeAt c rd x s
  let u := unitOf g rd s.i
  let info := tget ch.info s.k FrameInfo.init
  let t0 : Int := ((d.departAt c x.firstK x.firstK 0 0 : Nat) : Int)
  let taf := t0 + tafBefore g rd x u * 1000000000 / ((rSig g rd * ledgerDen g rd : Nat) : Int)
  let drift := if cfR g rd Reg.RC_CTRL_MODE = 0 then driftOf g rd x s.i else if cfR g rd Reg.RC_CTRL_MODE = 2 then x.v else 0
  let gopPos := sinceAccess g rd x s.k % 65536 + (t.sweep.getD 0) % 256 * 2 ^ 16
    + (if gopMode g rd = 4 then (s.k - segOf x s.k) % gop g else 0) * 2 ^ 24
  let deep := ((x.opens.find? (fun y => y.i + 1 == s.i)).map (·.deep)).getD x.deep
  let tc := (info.tc.orElse (fun _ => ch.tc)).map (fun z => z.hh + z.mm * 2 ^ 8 + z.ss * 2 ^ 16 + z.ff * 2 ^ 24)
  let grants := (x.opens.filter (fun o => o.bits.isNone)).map (·.grant)
  let nats : List Nat := [s.jj, s.k]
  let rest : List Nat := [s.i / picSlices g, gopPos, u % 2 ^ 32]
  let after : List Nat := [d.theta c rd 0, d.theta c rd 1, d.theta c rd 2, x.cfc.getD 0, x.carry,
    d.rd Reg.RCS_QP_QI (wRCS c rd), deep, d.rd Reg.CMP_RESULT_APPLIED_ID (wCMP c), info.roi, tc.getD 0]
  let up (l : List Nat) : List Int := l.map (fun (n : Nat) => (n : Int))
  up nats ++ [pocOf g rd x s.k (b2n s.bottom)] ++ up rest ++ [taf, drift] ++ up after
    ++ (List.range 4).map (fun (i : Nat) => ((grants.getD i 0 : Nat) : Int))

/-- What the grant of a picture's last slice settles (R185): all its slices are analysed, so its complexities become the forecast of its
kind mix, and C_fc follows. -/
def Dev.forecast (d : Dev) (c rd : Nat) (s : Slot4) (mix : Nat) : Dev :=
  let ch := d.chan c
  let g := ch.cfg
  let x := d.rend c rd
  let per := (List.range (picSlices g)).map (fun jj => (sliceCplx g rd x s.pic jj).getD 0)
  let cPic := sumL per
  let scene := (tget ch.info s.k FrameInfo.init).scene
  let cfc : Nat := match x.cfc with
    | none => cPic
    | some v => if scene then cPic else ((v : Int) + floorDiv ((cPic : Int) - (v : Int)) 4).toNat
  d.setRend c rd (fun x => { x with cfc := some cfc, kinds := tput x.kinds mix per })

/-- What the first grant of a picture settles: the DPB and the vectors kept with it (R136), the last buffering period (R165), the ALF
parameter sets referred to (R125). -/
def Dev.openPicture (d : Dev) (c rd : Nat) (s : Slot4) (t : PicT) (alf : List Nat) : Dev :=
  let x := d.rend c rd
  let g := (d.chan c).cfg
  let dpb := d.dpbOf c rd x s
  d.setRend c rd (fun x =>
    { x with dpb := dpb, col := tkeep (fun p _ => dpb.contains p) x.col,
             bpAt := if periodHere t s.bottom then s.i / picSlices g else x.bpAt,
             alf := (x.alf ++ [alf]).drop (x.alf.length - 7) })

/-- Sends a row's budget to the region that codes it (R172, R188): to another region of the span over the coherent-control class. -/
def Dev.sendBudget (d : Dev) (c rd : Nat) (s : Slot4) (row budget : Nat) (qp : Int) : Dev :=
  let ch := d.chan c
  let lead := d.lead c
  let r := d.rowRegion c rd s.k row
  let d := if ch.regions.contains r && r != lead then d.emit (.rowBits c rd lead r row budget) else d
  d.sendToken r 0x04 c rd row s.k budget qp

/-- Grants the next tick slice of a rendition (R172, R173): the ledger, the status entry and the budgets' tokens. -/
def Dev.grantSlice (d : Dev) (c rd : Nat) (z : NvIn) (a : ApsIn) : Dev :=
  let ch := d.chan c
  let g := ch.cfg
  let x := d.rend c rd
  let s := slot4 g rd x (stopFor ch x) x.i
  let again := s.jj == 0 && d.sceneRestart c rd s.k && (d.typeAt c rd x s).irap && irOf x s.k != s.k
  let d := if again then d.setRend c rd (fun x => { x with irs := x.irs ++ [s.k] }) else d
  let x := d.rend c rd
  let t := d.typeAt c rd x s
  let nals := d.nonVclOf c rd x s z a
  let nv := 8 * sumL (nals.1.map (·.2)) + eobBits g rd x (stopFor ch x) s
  let gr := d.grantOf c rd x s nv
  let fields := d.snapOf c rd x s
  let d := if d.protectedCh c then d.setRend c rd (fun x => { x with snaps := tput x.snaps s.i fields }) else d
  let d := if s.jj = 0 then d.openPicture c rd s t nals.2 else d
  let o : Open :=
    { i := s.i, k := s.k, j := s.j, grant := gr.g, qp := gr.qp, nv := nv, nonVcl := nals.1,
      rows := gr.rows.map (fun p => ⟨p.1, p.2, false, none, p.2⟩), deep := 0, heads := none, bits := none,
      alf := ((d.rend c rd).alf.getLast?).getD [] }
  let w := wRCS c rd
  let m := cfR g rd Reg.RC_CTRL_MODE
  let d := d.wr Reg.RCS_ROOM w gr.room
  let d := d.wrI Reg.RCS_DRIFT w (if m = 0 then driftOf g rd x s.i else if m = 2 then x.v else 0)
  let key := s.i / picSlices g
  let acc := tget x.accs key { PicAcc.init s.k s.bottom with type := t, poc := pocOf g rd x s.k (b2n s.bottom) }
  let d := if gr.capped && !acc.capped then d.inc Reg.RCS_CAPPED w else d
  let d := d.setRend c rd (fun x =>
    { x with i := x.i + 1, opens := x.opens ++ [o], carry := 0,
             accs := tput x.accs key { acc with granted := acc.granted + gr.g, capped := acc.capped || gr.capped } })
  let d := if s.jj + 1 = picSlices g then d.forecast c rd s t.mix else d
  d.each gr.rows (fun d p => d.sendBudget c rd s p.1 p.2 gr.qp)

/-- The slice of the channel whose last input line a grant waits for: its own, or in the ladder class the last of its picture. -/
def grantAfter (g : Tbl Nat) (j : Nat) : Nat := if ladder g then j / picSlices g * picSlices g + picSlices g - 1 else j

/-- The grant instant of the next tick slice of a rendition: the arrival of the slice's last line, or of the picture's in the
ladder class, plus L_in (R63, R172). -/
def Dev.grantAt (d : Dev) (c : Nat) (s : Slot4) : Int :=
  let g := (d.chan c).cfg
  d.arriveAt c s.k (grantAfter g s.j) + ((tsTu g : Nat) : Int)

/-- The frame of the next grant of a rendition, where tick slice `j` is next and its complexity is measured. -/
def Dev.grantFrame (d : Dev) (c rd j : Nat) (x : Rend) : Option Nat :=
  let ch := d.chan c
  let g := ch.cfg
  let s := slot4 g rd x (stopFor ch x) x.i
  let beyond : Bool := match stopFor ch x with
    | some e => decide (e ≤ s.k)
    | none => false
  if s.j = j ∧ beyond = false ∧ (s.k - x.firstK) * slices g + grantAfter g j < x.an ∧ d.grantAt c s ≤ (d.nowTu : Int) then some s.k
  else none

/-- BUDGET_GRANTED (R172 to R178): the grant of tick slice j of a rendition, in the ladder class of its whole picture; a rendition that is
being replaced is granted first, while it still has frames (R119). -/
def execBudgetGranted (c rd j t : Nat) (z : UnitIn) (s : State) : Host.Outcome State Fault Refusal :=
  s.onDev (fun d0 =>
    let d := (d0.advanceTo t).closeMain c
    if d.live c = false then d
    else
      let left (x : Rend) : Bool :=
        let ch := d.chan c
        match stopFor ch x with
        | some e => decide ((slot4 ch.cfg rd x (some e) x.i).k < e)
        | none => true
      let old := (tget? d.olds (c * 8 + rd)).map (·.1)
      let x := match old with
        | some o => if left o then some o else tget? d.rends (c * 8 + rd)
        | none => tget? d.rends (c * 8 + rd)
      match x.bind (fun y => d.grantFrame c rd j y) with
      | some k => d.asOf c rd k (fun d =>
          let g := (d.chan c).cfg
          d.each (List.range (if ladder g then picSlices g else 1)) (fun d _ => d.grantSlice c rd z.nv z.aps))
      | none => d)

/-! ## CTUs of a row -/

/-- The reserve of a row from CTU `n` to its end (R177). -/
def reserveFrom (g : Tbl Nat) (rd : Nat) (kinds : List (Nat × Int × Bool)) (n : Nat) : Nat :=
  let rest := kinds.drop n
  let rows := if codec g rd = 0 then max 1 (ceilDiv rest.length (ctuCols g rd)) else 1
  rows * rowOvh (codec g rd) + sumL (rest.map (fun k => minCtuBits (codec g rd) k.2.2))

/-- QP limits of the codec for the bit depth (R149, R175). -/
def codecQpMin (g : Tbl Nat) (rd : Nat) : Int := -6 * ((bitDepth g rd : Int) - 8)

/-- The largest QP of a codec (R149). -/
def codecQpMax (g : Tbl Nat) (rd : Nat) : Int := if codec g rd = 2 then 63 else 51

/-- A value clamped to a range. -/
def clampI (lo hi v : Int) : Int := max lo (min hi v)

/-- The ROI offset at a source position (R149): `m` is the map's entry there. -/
def Dev.roiOfs (d : Dev) (c k px py : Nat) (m : Int) : Int :=
  let m := if d.roiAtFrame c k Reg.ROI_CTRL_MAP_EN 0 = 1 then clampI (-12) 12 m else 0
  let v (row : Row) (i : Nat) : Nat := d.roiAtFrame c k row i
  let hit := (List.range 16).filter (fun i => v Reg.RECT_CTRL_EN i == 1
    && decide (v Reg.RECT_POS_X i ≤ px) && decide (px < v Reg.RECT_POS_X i + v Reg.RECT_SIZE_W i)
    && decide (v Reg.RECT_POS_Y i ≤ py) && decide (py < v Reg.RECT_POS_Y i + v Reg.RECT_SIZE_H i))
  let prio := (hit.map (v Reg.RECT_CTRL_PRIO)).min?
  let r := match hit.find? (fun i => some (v Reg.RECT_CTRL_PRIO i) == prio) with
    | some i => signed 5 (v Reg.RECT_CTRL_QP_OFS i)
    | none => 0
  clampI (-12) 12 (m + r)

/-- The column and row of CTU `n` of a coding row. -/
def ctuAt (g : Tbl Nat) (rd row n : Nat) : Nat × Nat :=
  let w := ctuCols g rd
  let base := if codec g rd = 0 ∧ interlaced g = false then 2 * row else row
  (n % w, base + n / w)

/-- The source position of a place of a rendition's picture, the picture's last sample and line for the padding beyond them. -/
def sourcePos (g : Tbl Nat) (rd : Nat) (bottom : Bool) (cx cy : Nat) : Nat × Nat :=
  let x := min cx (rdW g rd - 1)
  let y := min cy (picH g rd - 1) * fields g + b2n bottom
  (x * srcW g / max 1 (rdW g rd), y * srcH g / max 1 (rdH g rd))

/-- The QPs of the 16 × 16 blocks of a CTU in the coded picture (R149, R175, R181); `map` gives the QP-offset map's entry at a source
position. -/
def Dev.ctuQps (d : Dev) (c rd k : Nat) (bottom : Bool) (at_ : Nat × Nat) (qrc qrow : Int) (map : Nat × Nat → Int) : List Int :=
  let g := (d.chan c).cfg
  let n := ctuSize g rd / 16
  (List.range (n * n)).filterMap (fun i =>
    let bx := at_.1 * ctuSize g rd + i % n * 16
    let by_ := at_.2 * ctuSize g rd + i / n * 16
    if rdW g rd ≤ bx ∨ picH g rd ≤ by_ then none
    else
      let p := sourcePos g rd bottom (bx + 8) (by_ + 8)
      let qp := clampI (codecQpMin g rd) (codecQpMax g rd) (qrc + d.roiOfs c k p.1 p.2 (map p))
      some (min (qpMax g rd) (max qp qrow)))

/-- The QP-offset map's entry at a source position, from region memory of the channel's lead region (R147, R149). -/
def State.roiMap (s : State) (c k : Nat) (p : Nat × Nat) : Int :=
  let d := s.dev
  let base := d.roiAtFrame c k Reg.ROI_MAP_LO 0 + d.roiAtFrame c k Reg.ROI_MAP_HI 0 * 2 ^ 32
  let stride := roundUpTo (ceilDiv (srcW (cfgAt (d.chan c) k)) 16) 64
  signed 8 (ramGet s.ram (ramKey (d.lead c) (base + p.2 / 16 * stride + p.1 / 16))).toNat

/-- A row enters floor mode (R179, R182). -/
def Dev.enterFloor (d : Dev) (c rd key row : Nat) : Dev :=
  let d := d.inc Reg.RCS_FLOOR_ROWS (wRCS c rd)
  let d := d.setRend c rd (fun x =>
    { x with floorSec := (d.second, (if x.floorSec.1 = d.second then x.floorSec.2 else 0) + 1),
             accs := tmod x.accs key (PicAcc.init 0 false) (fun a =>
               { a with floorRow := some (min row (a.floorRow.getD row)) }) })
  let pg := blk (d.lead c) ixRCU
  let lim := d.rd Reg.EV_CTRL_FLOOR_ROWS pg
  let n := (d.rend c rd).floorSec.2
  let ev := 0x5000 + c * 8 + rd
  if lim ≠ 0 ∧ lim ≤ n ∧ d.mayRaise ev = true then (d.markRaised ev).event pg 0 (c * 8 + rd) n else d

/-- The row's level becomes L5, and so the slice's deepest (R72, R75). -/
def Dev.toL5 (d : Dev) (key : Nat) (j : CeJob) : Dev :=
  let d := { d with ces := tput d.ces key { j with level := 5 } }
  d.setRend j.c j.rd (fun x => { x with opens := x.opens.map (fun o => if o.i = j.i then { o with deep := 5 } else o) })

/-- What a row job sees of its slice: the slice, the picture's type, the row's CTU kinds and complexities. -/
structure RowCtx where
  o : Open
  s : Slot4
  t : PicT
  kinds : List (Nat × Int × Bool)
  cplx : List Nat
  deriving DecidableEq, Repr

def Dev.rowCtx (d : Dev) (j : CeJob) : Option RowCtx :=
  let ch := d.chan j.c
  let g := ch.cfg
  let x := d.rend j.c j.rd
  match x.opens.find? (fun o => o.i == j.i) with
  | some o =>
    let s := slot4 g j.rd x (stopFor ch x) o.i
    let t := (tget x.accs (s.i / picSlices g) { PicAcc.init s.k s.bottom with type := d.typeAt j.c j.rd x s }).type
    some ⟨o, s, t, rowKinds g j.rd t j.row, rowCplx g j.rd x s.pic j.row⟩
  | none => none

/-- How a CTU is coded: its bits, SSE, whether it is mostly intra, the picture's vectors with its own, and the search positions spent;
`plain` for a minimal CTU. -/
structure CtuOut where
  bits : Nat
  sse : Nat
  intra : Bool
  mvs : Tbl (Int × Int)
  used : Nat
  plain : Bool
  deriving DecidableEq, Repr

/-- The minimal coding of a CTU (R71, L5): skip with the merge vector in P and B pictures, DC prediction in intra ones. -/
def minimalCtu (g : Tbl Nat) (rd : Nat) (intra : Bool) (at_ : Nat × Nat) (mvs : Tbl (Int × Int)) (x : CtuIn) : CtuOut :=
  let n := ctuSize g rd
  { bits := x.minBits, sse := x.minSse, intra := intra, used := 0, plain := true,
    mvs := putMv mvs (at_.1 * n) (at_.2 * n) n n (if intra then none else some x.minMv) }

/-- One CTU of a row (R71, R76, R145, R149, R179 to R181). A CTU none of whose codings is open is coded as a minimal one. -/
def Dev.codeCtu (d : Dev) (r ce : Nat) (j : CeJob) (z : RowCtx) (x : CtuIn) (map : Nat × Nat → Int) : Dev :=
  let c := j.c
  let rd := j.rd
  let g := (d.chan c).cfg
  let key := z.s.i / picSlices g
  let n := j.x
  let kind := z.kinds.getD n (1, 0, false)
  let cHere := z.cplx.getD n 0
  let left := j.budget - j.spent
  let enters := !j.floor && decide (left * 8 < reserveFrom g rd z.kinds n * (8 + cfR g rd Reg.RC_CTRL_MARGIN))
  let d := if enters then d.enterFloor c rd key j.row else d
  let floor := j.floor || enters
  let after := reserveFrom g rd z.kinds (n + 1)
  let above := j.spent * 8 * sumL z.cplx > 9 * j.budget * j.cDone
  let qrow := if floor then qpMax g rd else if above then min (qpMax g rd) (j.qrow + 1) else j.qrow
  let min5 := j.minimal || j.level == 5
  let at_ := ctuAt g rd j.row n
  let acc := tget (d.rend c rd).accs key (PicAcc.init z.s.k z.s.bottom)
  let ctx : MvCtx :=
    { c := c, rd := rd, lv := if floor then max 4 j.level else j.level, s := z.s, t := z.t, refs := d.refsOf c rd (d.rend c rd) z.s,
      lines := j.lines, row := j.row }
  let least := minimalCtu g rd kind.2.2 at_ acc.mvs x
  let out : CtuOut := if min5 then least
    else
      let y := d.chooseCoding ctx (at_.1 * ctuSize g rd) (at_.2 * ctuSize g rd) j.allow floor kind.2.2 acc.mvs x
      match y.1 with
      | some v => ⟨v.coding.bits, v.coding.sse, mostlyIntra v.coding, v.vecs.mvs, y.2, false⟩
      | none => { least with used := y.2 }
  let j := { j with floor := floor, qrow := qrow, cycles := j.cycles + x.cycles + out.used * x.posCycles }
  if !min5 && decide (left < out.bits + after) then
    { d with ces := tput d.ces (ceKey r ce) { j with minimal := true } }
  else
    let bits := if min5 then min out.bits (left - after) else out.bits
    let qrc := clampI (qpMin g rd) (qpMax g rd) (z.o.qp + kind.2.1)
    let qps := if out.plain || floor then [qpMax g rd] else d.ctuQps c rd j.k z.s.bottom at_ qrc qrow map
    let qp := roundInt (qps.foldl (· + ·) 0) (max 1 qps.length)
    let counts := !floor && !out.plain
    let entry := cHere % 2 ^ 24 + min bits (2 ^ 24 - 1) * 2 ^ 24 + unsignedOf 7 (qp + 12) * 2 ^ 48 + j.level * 2 ^ 55
      + b2n (floor || j.minimal) * 2 ^ 58 + b2n out.intra * 2 ^ 59
    let add (m : Nat × Nat × Nat) : Nat × Nat × Nat := (m.1 + bits, m.2.1 + cHere * pow24 (24 - qp), m.2.2 + 1)
    let d := if j.minimal then d.inc Reg.RCS_MIN_CTUS (wRCS c rd) else d
    let d := d.setRend c rd (fun y =>
      { y with accs := tmod y.accs key (PicAcc.init z.s.k z.s.bottom) (fun a =>
          { a with meas := if counts then a.meas.set kind.1 (add (a.meas.getD kind.1 (0, 0, 0))) else a.meas,
                   maxLevel := max a.maxLevel j.level, qpSum := a.qpSum + qp, qpN := a.qpN + 1, sse := a.sse + out.sse,
                   ctus := tput a.ctus (at_.2 * ctuCols g rd + at_.1) entry, mvs := out.mvs }) })
    let j := { j with x := n + 1, spent := j.spent + bits, cDone := j.cDone + cHere }
    let d := { d with ces := tput d.ces (ceKey r ce) j }
    let d := if j.level < 5 ∧ j.allow < j.cycles ∧ n + 1 < z.kinds.length then d.toL5 (ceKey r ce) j else d
    let leadAt := if rowCtus g rd j.row = 2 * ctuCols g rd ∧ codec g rd = 0 then ctuCols g rd + min 2 (ctuCols g rd) else min 2 z.kinds.length
    if n + 1 = leadAt then d.sendToken r 0x05 c rd j.row j.k 0 0 (d.dueOf r j.task) else d

/-- How many CTUs of a row of picture `pic` have been reconstructed, none counted as coded beyond a slice that is gone: all of a row whose
slice is complete or is not being coded. -/
def Dev.rowAt (d : Dev) (c rd pic row : Nat) : Nat :=
  let g := (d.chan c).cfg
  let all := rowCtus g rd row
  match (d.rend c rd).opens.find? (fun o => o.i / picSlices g == pic && o.rows.any (fun y => y.row == row && y.done.isNone)) with
  | none => all
  | some o => ((d.ces.find? (fun e => e.2.c == c && e.2.rd == rd && e.2.i == o.i && e.2.row == row)).map (·.2.x)).getD 0

/-- The row above, where a row waits for it (R129, R141): not across a band boundary. -/
def Dev.rowAbove (d : Dev) (c rd row : Nat) : Option Nat :=
  let g := (d.chan c).cfg
  let b := (d.chan c).regions.length
  if row = 0 ∨ bandOf g rd b row ≠ bandOf g rd b (row - 1) then none else some (row - 1)

/-- WPP (R129): CTU x starts after CTU x + 1 of the row above is reconstructed; AVC's prediction does not cross its slices. -/
def Dev.wppOpen (d : Dev) (j : CeJob) (z : RowCtx) : Bool :=
  let g := (d.chan j.c).cfg
  match d.rowAbove j.c j.rd j.row with
  | some row => codec g j.rd == 0 || decide (min (j.x + 2) (rowCtus g j.rd row) ≤ d.rowAt j.c j.rd (z.s.i / picSlices g) row)
  | none => true

/-- A row of AVC is complete, deblocking included, only after the row above (R129). -/
def Dev.deblockOpen (d : Dev) (j : CeJob) (z : RowCtx) : Bool :=
  let g := (d.chan j.c).cfg
  match d.rowAbove j.c j.rd j.row with
  | some row => codec g j.rd != 0 || !((d.rend j.c j.rd).opens.any (fun o =>
      o.i / picSlices g == z.s.i / picSlices g && o.rows.any (fun y => y.row == row && y.done.isNone)))
  | none => true

/-- A row job in its rendition's context; a job whose rendition or slice is gone is dropped. -/
def Dev.onJob (d : Dev) (r ce : Nat) (f : Dev → CeJob → RowCtx → Dev) : Dev :=
  match tget? d.ces (ceKey r ce) with
  | none => d
  | some j =>
    if d.live j.c = false then { d with ces := tdel d.ces (ceKey r ce) }
    else d.asOf j.c j.rd j.k (fun d =>
      match d.rowCtx j with
      | some z => f d j z
      | none => { d with ces := tdel d.ces (ceKey r ce) })

/-- CTU_CODE (R11, R71, R76, R120 to R123, R129, R145 to R149, R180): the engine commits the next CTU, or discards it for minimal ones;
it waits while the row above is behind. -/
def execCtuCode (r ce : Nat) (x : CtuIn) (s : State) : Host.Outcome State Fault Refusal :=
  s.onDev (fun d => d.onJob r ce (fun d j z =>
    if z.kinds.length ≤ j.x ∨ d.wppOpen j z = false then d else d.codeCtu r ce j z x (s.roiMap j.c j.k)))

/-- ROW_BUDGET_EXPIRY (R72, R75): the rest of the row is coded at L5. -/
def execRowBudgetExpiry (r ce : Nat) (s : State) : Host.Outcome State Fault Refusal :=
  s.onDev (fun d => d.onJob r ce (fun d j _ => d.toL5 (ceKey r ce) j))

/-! ## A tick slice complete -/

/-- The sizes of the filler data NAL units for a deficit in bits (R183). -/
def fillers (least need : Nat) : List Nat :=
  let n := ceilDiv need 8
  if n = 0 then []
  else
    let full := n / 4096
    let rest := n % 4096
    List.replicate full 4096 ++ (if rest = 0 then [] else [max least rest])

/-- The slice jobs of a channel at its deepest levels (R77). -/
def Dev.countLadder (d : Dev) (c deep : Nat) : Dev :=
  let w := wCHSTAT c
  let d := if deep = 1 then d.inc Reg.CH_LADDER_CNT0_L1 w else if deep = 2 then d.inc Reg.CH_LADDER_CNT0_L2 w
    else if deep = 3 then d.inc Reg.CH_LADDER_CNT1_L3 w else if deep = 4 then d.inc Reg.CH_LADDER_CNT1_L4 w
    else if deep = 5 then d.inc Reg.CH_LADDER_CNT2_L5 w else d
  let d := if 4 ≤ deep then d.cl4Chan Reg.ALARM_HARD c else d
  let lv := d.rd Reg.CH_LADDER_CTL_EV_LEVEL w
  if lv = 0 ∨ deep < lv then d
  else
    let d := d.setChan c (fun x => { x with jobsSec := d.second, jobs := (if x.jobsSec = d.second then x.jobs else 0) + 1 })
    let n := (d.chan c).jobs
    let key := 0x2000 + c
    if d.rd Reg.CH_LADDER_CTL_EV_COUNT w < n && d.mayRaise key then
      (d.markRaised key).event (blk (d.lead c) ixRGN) 1 c n
    else d

/-- A picture is complete (R169, R182, R184). -/
def Dev.pictureDone (d : Dev) (c rd : Nat) (s : Slot4) : Dev :=
  let ch := d.chan c
  let g := ch.cfg
  let w := wRCS c rd
  let key := s.i / picSlices g
  let x := d.rend c rd
  let a := tget x.accs key (PicAcc.init s.k s.bottom)
  let scene := (tget ch.info s.k FrameInfo.init).scene
  let adapt := cfR g rd Reg.RC_CTRL_ADAPT
  let lam := if scene then max 8 adapt else adapt
  let d := d.each [0, 1, 2] (fun d th =>
    let m := a.meas.getD th (0, 0, 0)
    if m.2.2 < 16 ∨ m.2.1 = 0 then d
    else
      let meas := m.1 * 2 ^ 48 / m.2.1
      d.wr (thetaRow th) w (min (2 ^ 32 - 1) ((d.theta c rd th * (16 - lam) + meas * lam) / 16)))
  let rate := cfR g rd Reg.RC_VBR_AVG_KBPS * 1000
  let cap : Int := ((rate * cfR g rd Reg.RC_VBR_WIN : Nat) : Int)
  let v := if cfR g rd Reg.RC_CTRL_MODE = 2 then
      clampI (-cap) cap (x.v + ((rate * (period g).1 / ((period g).2 * fields g) : Nat) : Int) - (a.bits : Int))
    else x.v
  let d := if a.floorRow.isSome then d.inc Reg.RCS_FLOOR_PICS w else d
  let d := d.incWrap Reg.RN_PICS (wLIVE c rd)
  let keep := (d.statOf c rd).1
  (d.setRend c rd (fun x =>
    { x with v := v, cplx := tkeep (fun k _ => s.pic ≤ k / 128 + 32) x.cplx, col := tput x.col s.pic a.mvs,
             accs := if keep then x.accs else tdel x.accs key })).roiRetire c

/-- The filler of a tick slice (R167, R183): in CBR what brings E to its bound. -/
def fillOf (g : Tbl Nat) (rd : Nat) (x : Rend) (i own : Nat) : List Nat :=
  let before := x.eBits + sumL ((x.opens.filter (fun y => y.i < i)).map Open.count)
  let bound := rSig g rd * (i + 1) * (period g).1 / ((period g).2 * slices g)
  if cfR g rd Reg.RC_CTRL_MODE = 0 then fillers (leastFiller g rd) (bound - (before + own)) else []

/-- A tick slice is complete (R119, R137, R144, R162, R167, R176, R183): filler, the exact count, its NAL units in order, the decoding unit
and its copy, and at the picture's end what R182 to R184 ask. `heads` are the bits of its slice headers. -/
def Dev.sliceDone (d : Dev) (c rd i : Nat) (heads : List Nat) : Dev :=
  let ch := d.chan c
  let g := ch.cfg
  let x := d.rend c rd
  let s := slot4 g rd x (stopFor ch x) i
  match x.opens.find? (fun o => o.i == i) with
  | none => d
  | some o =>
    let vcl := d.sliceUnits c rd x s o heads
    let last := lastOf g x (stopFor ch x) s
    let eob : List (Nal × Nat) := if last then [(.eob, eobSize g rd)] else []
    let own := 8 * sumL ((o.nonVcl ++ vcl ++ eob).map (·.2))
    let fill := fillOf g rd x i own
    let bits := own + 8 * sumL fill
    let nals := o.nonVcl ++ vcl ++ fill.map (fun n => (Nal.filler, n)) ++ eob
    let d := d.incBy Reg.RCS_FILLER (wRCS c rd) (sumL fill)
    let key := i / picSlices g
    let ps := o.nonVcl.any (fun v => match v.1 with
      | .sps _ => true
      | _ => false)
    let d := (d.emit (.unit c rd s.k s.j nals)).sendBands c rd s vcl
    let u : Du :=
      { i := i, k := s.k, j := s.j, bits := bits, nals := nals,
        dep := d.departAt c s.k x.firstK s.pos s.j + d.padNs c, ps := ps, pkts := none, seq0 := 0, ts := 0, cc := 0, psi := 0,
        pcrNs := 0, patNs := 0, left := false }
    let d := d.setRend c rd (fun x =>
      let x : Rend := { x with opens := x.opens.map (fun (y : Open) => if y.i = i then { y with bits := some bits } else y), dus := x.dus ++ [u],
                               carry := x.carry + (o.grant + o.nv - bits),
                               accs := tmod x.accs key (PicAcc.init s.k s.bottom) (fun a =>
                                 { a with slices := a.slices + 1, bits := a.bits + bits }) }
      x.fold g rd)
    let bytes := sumL (nals.map (·.2))
    let d := if d.protectedCh c then
        ({ d with mirs := tmod d.mirs (c * 8 + rd) Mirror.init (fun m => { m with dus := m.dus ++ [u] }) }).emit
          (.duCopy c rd s.k s.j bytes)
      else d
    let d := (d.countLadder c o.deep).packetise c rd
    let homes := (d.lead c :: (sliceRowList g rd s.jj).map (d.rowRegion c rd s.k)).eraseDups
    let d := d.each homes (fun d r => d.releaseUnit r 0x08 c rd s.j s.k bytes)
    if (tget (d.rend c rd).accs key (PicAcc.init s.k s.bottom)).slices = picSlices g then d.pictureDone c rd s else d

/-- The slices whose rows are all complete, one after another. In CBR a slice waits for the earlier ones, whose bits its filler is
reckoned from (R167, R183). -/
def Dev.settle : Nat → Dev → Nat → Nat → Dev
  | 0, d, _, _ => d
  | n + 1, d, c, rd =>
    let x := d.rend c rd
    let cbr := cfR (d.chan c).cfg rd Reg.RC_CTRL_MODE == 0
    match x.opens.find? (fun o => o.bits.isNone && (cbr || o.heads.isSome)) with
    | some o =>
      match o.heads with
      | some h => (d.sliceDone c rd o.i h).settle n c rd
      | none => d
    | none => d

/-- The bits of each slice header as given, in whole bytes and within SLICE_OVH (R177). -/
def headBits (g : Tbl Nat) (rd b jj : Nat) (given : List Nat) : List Nat :=
  (List.range (nalRows g rd b jj).length).map (fun n => min (roundUpTo (given.getD n 0) 8) (sliceOvh (codec g rd)))

/-- A row is complete: its bits in whole bytes, what it leaves unused, and the engine's sample of ĉ (R73, R176, R188). Unused bits go to
the slice's highest-numbered row that has not started. -/
def Dev.rowDone (d : Dev) (r ce : Nat) (j : CeJob) (z : RowCtx) (q : ReconIn) : Dev :=
  let c := j.c
  let rd := j.rd
  let ch := d.chan c
  let g := ch.cfg
  let bits := min (roundUpTo (j.spent + q.endBits) 8) (j.budget / 8 * 8)
  let rest := j.budget - bits
  let rows := z.o.rows.map (fun y => if y.row = j.row then { y with taken := true, done := some bits } else y)
  let last := ((rows.filter (fun (y : RowB) => !y.taken)).map (·.row)).max?
  let rows : List RowB := rows.map (fun (y : RowB) => if some y.row = last then { y with budget := y.budget + rest } else y)
  let heads := if rows.all (fun y => y.done.isSome) then some (headBits g rd ch.regions.length z.s.jj q.headers) else none
  let d := { d with ces := tdel d.ces (ceKey r ce) }
  let d := d.setRend c rd (fun x =>
    { x with opens := x.opens.map (fun o => if o.i = j.i then { o with rows := rows, heads := heads } else o),
             recon := tput x.recon j.row j.k,
             cyc := if j.level < 5 then
                 tput x.cyc j.level ((tget x.cyc j.level [] ++ [j.cycles / max 1 (rowUnits g rd j.row)]).drop
                   ((tget x.cyc j.level []).length - 63))
               else x.cyc })
  let d := if ch.regions.contains r && r != d.lead c then d.emit (.rowBits c rd r (d.lead c) j.row bits) else d
  let d := d.sendToken r 0x06 c rd j.row j.k bits 0 (d.dueOf r j.task)
  d.settle (d.rend c rd).opens.length c rd

/-- ROW_RECON (R73, R129, R176, R188, R239): the last CTU of a row is reconstructed and filtered. -/
def execRowRecon (r ce : Nat) (x : ReconIn) (s : State) : Host.Outcome State Fault Refusal :=
  s.onDev (fun d => d.onJob r ce (fun d j z =>
    if j.x < z.kinds.length ∨ d.deblockOpen j z = false then d else (d.rowDone r ce j z x).abortAt r j.task))

/-- HALO_ARRIVED (R142, R224): a neighbouring band's boundary row has been delivered to region `r` of a span. -/
def execHaloArrived (r c rd row lines : Nat) (s : State) : Host.Outcome State Fault Refusal :=
  s.onDev (fun d =>
    if d.live c = false ∨ (d.chan c).regions.contains r = false then d
    else match tget? (d.rend c rd).recon row with
    | some k => d.sendToken r 0x07 c rd row k lines 0
    | none => d)

end Sys2Proof.Machine
end

