-- ==== Sys2Proof/Machine/Decoder.lean ====
section
/-! DEFINITION. What a decoder does with the NAL units of a stream: errors (R207, R218), parameter sets (R209), pictures and their references
(R195, R200, R201, R208, R211), concealment (R210, R212), taint (R213), the finished picture and its output (R198, R207, R215). -/

namespace Sys2Proof.Machine

/-- The channel of a decode slot (R193). -/
def slotChan (slot : Nat) : Nat := if slot < 1024 then slot / 8 else slot - 1024

/-- The status entry of a stream slot: in the lead region for a channel that the decoding region carries (R217). -/
def Dev.dsOf (d : Dev) (r slot : Nat) : Nat :=
  let c := slotChan slot
  wDS (if (d.chan c).regions.contains r then d.lead c else r) slot

/-- The page of the decode engine on which a stream is placed. -/
def Dev.dePage (d : Dev) (r slot : Nat) : Nat := blk r (ixDE + ((tget? d.strms (slotKey r slot)).map (·.eng)).getD 0)

/-- A decode slot's state. -/
def Dev.decSlot (d : Dev) (r slot : Nat) : DecSlot := tget d.slots (slotKey r slot) DecSlot.init

/-- A change of a decode slot's state. -/
def Dev.setSlot (d : Dev) (r slot : Nat) (f : DecSlot → DecSlot) : Dev :=
  { d with slots := tmod d.slots (slotKey r slot) DecSlot.init f }

/-- Changes the picture in progress. -/
def Dev.setPic (d : Dev) (r slot : Nat) (f : PicNow → PicNow) : Dev := d.setSlot r slot (fun x => { x with cur := x.cur.map f })

/-! ## Errors (R207, R217, R218) -/

/-- An event of a stream slot, at most once per TB second per slot (R218). -/
def Dev.slotEvent (d : Dev) (r slot bit info : Nat) (always : Bool := false) : Dev :=
  let key := 0x20000 + ((r * 2048 + slot) * 8 + bit)
  if always then d.event (d.dePage r slot) bit slot info
  else if d.mayRaise key then (d.markRaised key).event (d.dePage r slot) bit slot info
  else d

/-- The POC that an error is reported with: that of the picture in progress; where there is none the spec gives none. -/
def Dev.errPoc (d : Dev) (r slot : Nat) : Dev × Int :=
  match (d.decSlot r slot).cur with
  | some p => (d, p.pocs.headD 0)
  | none => (d.freeNext, signed 32 (d.freeVal % 2 ^ 32))

/-- Counts and reports an error of R207 in a slot's status entry. -/
def Dev.decErr (d : Dev) (r slot code : Nat) : Dev :=
  let w := d.dsOf r slot
  let z := d.errPoc r slot
  let d := (z.1.setSlot r slot (fun x => { x with errs := x.errs + 1 })).wr Reg.DS_STATE_LAST_ERR w code
  let d := d.wrI Reg.DS_LAST_ERR_POC w z.2
  let d := d.wrPair Reg.DS_LAST_ERR_TB_LO Reg.DS_LAST_ERR_TB_HI w d.now
  if code = 0x30 then d.slotEvent r slot 3 code
  else if 0x20 ≤ code ∧ code ≤ 0x23 then
    (d.inc Reg.DS_ERR2_BOUND w).slotEvent r slot 1 code (code == 0x23)
  else
    let row := if code ≤ 3 then Reg.DS_ERR_SYNTAX else if code = 0x10 then Reg.DS_ERR2_TRANSPORT else Reg.DS_ERR_SEMANTIC
    (d.inc row w).slotEvent r slot 0 code

/-- A BYTE_BOUND ending (R199, R203). -/
def Dev.byteBound (d : Dev) (r slot : Nat) : Dev := (d.inc Reg.DE_BND_BYTE (d.dePage r slot)).decErr r slot 0x22

/-! ## Geometry -/

/-- Luma samples per chroma sample across and down. -/
def chromaSub (fmt : Nat) : Nat × Nat := (if fmt = 2 then 1 else 2, if fmt = 0 then 2 else 1)

/-- The chroma format of a stream's pictures; a monochrome one takes the format that the slot is configured for (R194). -/
def Dev.slotChroma (d : Dev) (slot : Nat) (q : SeqIn) : Nat :=
  let g := (d.chan (slotChan slot)).cfg
  if q.chroma < 3 then q.chroma else if slot < 1024 then cfR g (slot % 8) Reg.RN_CTRL_CHROMA else cf g Reg.FEED_CTRL_CHROMA

/-- A picture with every sample at 1 << (b − 1) (R194, R211). -/
def greyPic (q : SeqIn) (fmt : Nat) : Planes :=
  let s := chromaSub fmt
  let v := 2 ^ (q.depth - 1)
  let ch := planeOf (ceilDiv q.width s.1) (ceilDiv q.height s.2) (fun _ _ => v)
  ⟨planeOf q.width q.height (fun _ _ => v), ch, ch⟩

/-- 16 × 16 blocks across a coded picture. -/
def blkCols (q : SeqIn) : Nat := ceilDiv q.width 16

/-- The luma lines of a picture that region `r` decodes: its band of a spanning rendition, else all (R49, R193). -/
def Dev.bandLines (d : Dev) (r slot : Nat) (q : SeqIn) : Nat × Nat :=
  let c := slotChan slot
  let g := (d.chan c).cfg
  let rs := (d.chan c).regions
  if slot < 1024 ∧ 1 < rs.length ∧ rs.contains r = true then
    let rd := slot % 8
    let z := (bandSplit g rd rs.length).getD (bandIx rs r) (0, 0)
    (min q.height (z.1 * rowLines g rd), min q.height ((z.1 + z.2) * rowLines g rd))
  else (0, q.height)

/-- The first CTU of those lines and one past the last. -/
def Dev.bandCtus (d : Dev) (r slot : Nat) (q : SeqIn) : Nat × Nat :=
  let g := (d.chan (slotChan slot)).cfg
  let z := d.bandLines r slot q
  let upto (n : Nat) : Nat := sumL ((List.range (n / max 1 (rowLines g (slot % 8)))).map (rowCtus g (slot % 8)))
  (if z.1 = 0 then 0 else upto z.1, if z.2 = q.height then q.ctus else upto z.2)

/-- The 16 × 16 blocks of luma lines `z`. -/
def blocksIn (q : SeqIn) (z : Nat × Nat) : List Nat :=
  (List.range (ceilDiv z.2 16 * blkCols q)).filter (fun n => z.1 / 16 * blkCols q ≤ n)

/-- The blocks of a picture among `ns` that are neither decoded nor concealed. -/
def PicNow.missing (p : PicNow) (ns : List Nat) : List Nat :=
  ns.filter (fun n => !(p.blks.any (·.num == n)) && !(p.conc.contains n))

/-! ## Blocks (R210) -/

/-- The chroma sample at a place displaced by luma samples; a source place between samples has no sample that the spec gives. -/
def chromaFrom (p : List (List Nat)) (s : Nat × Nat) (lines : Nat × Nat) (x y : Nat) (v : Int × Int) : Nat :=
  let lo := ((lines.1 / s.2 : Nat) : Int)
  let hi := ((ceilDiv lines.2 s.2 : Nat) : Int) - 1
  let at_ (dx dy : Int) : Nat := planeAt p ((x : Int) + v.1 / s.1 + dx) (clampInt lo hi ((y : Int) + v.2 / s.2 + dy))
  if v.1 % s.1 = 0 ∧ v.2 % s.2 = 0 then at_ 0 0
  else Config.betweenChroma [at_ 0 0, at_ 1 0, at_ 0 1, at_ 1 1]

/-- Paints blocks of a picture from another of the same size: each block of `ops` takes the block displaced by its vector, source places
clamped to the picture's sides and to `lines`. -/
def paint (q : SeqIn) (fmt : Nat) (lines : Nat × Nat) (ops : List (Nat × (Int × Int))) (src dst : Planes) : Planes :=
  let s := chromaSub fmt
  let v? (x y : Nat) : Option (Int × Int) := (ops.find? (fun o => o.1 == y / 16 * blkCols q + x / 16)).map (·.2)
  let luma : List (List Nat) := planeOf q.width q.height (fun x y => match v? x y with
    | some v => planeAt src.y ((x : Int) + v.1) (clampInt lines.1 ((lines.2 : Int) - 1) ((y : Int) + v.2))
    | none => planeAt dst.y x y)
  let chroma (a b : List (List Nat)) : List (List Nat) :=
    if q.chroma = 3 then b
    else planeOf (ceilDiv q.width s.1) (ceilDiv q.height s.2) (fun x y => match v? (x * s.1) (y * s.2) with
      | some v => chromaFrom a s lines x y v
      | none => planeAt b x y)
  ⟨luma, chroma src.cb dst.cb, chroma src.cr dst.cr⟩

/-- n / d rounded half away from zero. -/
def roundAway (n d : Int) : Int :=
  let q : Int := ((2 * n.natAbs + d.natAbs) / (2 * d.natAbs) : Nat)
  if (0 ≤ n) = (0 ≤ d) then q else -q

/-- The vector of a neighbour scaled to the concealment reference, in whole samples. -/
def scaleNear (cur good : Int) (v : (Int × Int) × Int) : Int × Int :=
  let one (m : Int) : Int :=
    if cur = v.2 then Config.scaledVector m (cur - good) else roundAway (m * (cur - good)) (16 * (cur - v.2))
  (one v.1.1, one v.1.2)

/-- The neighbours of a block: the nearest decoded blocks above and below in its column, and those left and right of it. -/
def nearBlocks (cols n : Nat) (bs : List DecBlk) : List DecBlk :=
  let col := bs.filter (fun b => b.num % cols == n % cols)
  let up := (col.filter (fun b => b.num < n)).foldl (fun (a : Option DecBlk) b => match a with
    | none => some b
    | some z => if z.num < b.num then some b else some z) none
  let down := (col.filter (fun b => n < b.num)).foldl (fun (a : Option DecBlk) b => match a with
    | none => some b
    | some z => if b.num < z.num then some b else some z) none
  let side (m : Nat) : List DecBlk := (bs.filter (fun b => b.num == m && m / cols == n / cols)).take 1
  up.toList ++ down.toList ++ (if n % cols = 0 then [] else side (n - 1)) ++ side (n + 1)

/-- The median of a list; of an even number the mean of the two middle values, rounded toward zero. -/
def median (l : List Int) : Int :=
  let s := sortKey (fun (v : Int) => (v + 2 ^ 40).toNat) l
  let n := s.length
  if n = 0 then 0
  else if n % 2 = 1 then s.getD (n / 2) 0
  else (s.getD (n / 2 - 1) 0 + s.getD (n / 2) 0).tdiv 2

/-- The concealment vector of block `n` (R210). -/
def concealVector (cols n : Nat) (bs : List DecBlk) (cur good : Int) : Int × Int :=
  let vs := ((nearBlocks cols n bs).filterMap (fun b => b.l0.orElse (fun _ => b.l1))).map (scaleNear cur good)
  (clampInt (-1024) 1024 (median (vs.map (·.1))), clampInt (-512) 512 (median (vs.map (·.2))))

/-- Conceals blocks of the picture in progress from the concealment reference of its field, or from a generated picture (R210, R212); in a band
the picture's edge is the band's with its halos of 192 lines. -/
def Dev.conceal (d : Dev) (r slot : Nat) (ns : List Nat) : Dev :=
  let x := d.decSlot r slot
  match x.cur with
  | none => d
  | some p =>
    if ns.isEmpty then d
    else
      let q := p.seq
      let fmt := d.slotChroma slot q
      let z := d.bandLines r slot q
      let lines := if z = (0, q.height) then z else (z.1 - 192, min q.height (z.2 + 192))
      let good := tget? x.good p.field
      let cur := p.pocs.headD 0
      let src := (good.map (·.2)).getD (greyPic q fmt)
      let ops := ns.map (fun n => (n, concealVector (blkCols q) n p.blks cur ((good.map (·.1)).getD cur)))
      d.setPic r slot (fun p => { p with conc := p.conc ++ ns, pic := paint q fmt lines ops src p.pic })

/-! ## Formats (R194, R195, R200) -/

/-- The profiles of R113's table: codec, PROFILE, highest chroma format, highest depth. -/
def decProfiles : List (Nat × Nat × Nat × Nat) :=
  [(0, 0, 0, 8), (0, 1, 0, 10), (0, 2, 1, 10), (0, 3, 0, 10), (0, 4, 1, 10), (1, 0, 0, 8), (1, 1, 0, 10), (1, 2, 1, 10), (1, 3, 2, 12),
    (2, 0, 0, 10), (2, 1, 2, 10)]

/-- Whether the decoder accepts a stream (R194, R195): a profile of R113, a level up to 6.2, no extension layer. -/
def accepted (q : SeqIn) : Bool :=
  !q.extended && decide (q.level ≤ 62) && (match q.profile with
    | some p => decProfiles.any (fun z => z.1 == q.codec && z.2.1 == p && (decide (q.chroma ≤ z.2.2.1) || q.chroma == 3) && decide (q.depth ≤ z.2.2.2))
    | none => false)

/-- Whether a feed's pictures are those of FEED_CTRL, SRC_FMT and SRC_RATE (R198, R200): after cropping, and with 8-bit samples as 10-bit. -/
def feedMatches (g : Tbl Nat) (q : SeqIn) : Bool :=
  let w := q.width - q.crop.1 - q.crop.2.1
  let h := (q.height - q.crop.2.2.1 - q.crop.2.2.2)
  accepted q && q.codec == cf g Reg.FEED_CTRL_CODEC && (q.chroma == 3 || q.chroma == cf g Reg.FEED_CTRL_CHROMA)
    && (if cf g Reg.SRC_RATE_DEPTH = 1 then q.depth == 12 else q.depth == 8 || q.depth == 10)
    && w == srcW g && (h == srcH g || (q.interlaced && h * 2 == srcH g)) && q.interlaced == interlaced g
    && (match q.rate with
      | some z => z.1 * (period g).1 == z.2 * (period g).2
      | none => true)

/-! ## Output (R198) -/

/-- The picture without what its conformance or cropping window takes off. -/
def cropPic (q : SeqIn) (fmt : Nat) (p : Planes) : Planes :=
  let s := chromaSub fmt
  let cut (a b c e : Nat) (l : List (List Nat)) : List (List Nat) :=
    ((l.drop c).take (l.length - c - e)).map (fun row => (row.drop a).take (row.length - a - b))
  let z := q.crop
  let ch := cut (z.1 / s.1) (z.2.1 / s.1) (z.2.2.1 / s.2) (z.2.2.2 / s.2)
  ⟨cut z.1 z.2.1 z.2.2.1 z.2.2.2 p.y, ch p.cb, ch p.cr⟩

/-- 4:2:0 chroma as 4:2:2: the vertical filter of R198, the edge rows repeated. -/
def chromaDown (c : List (List Nat)) : List (List Nat) :=
  let row (m : Int) : List Nat := c.getD (clampInt 0 ((c.length : Int) - 1) m).toNat []
  (List.range (2 * c.length)).map (fun (y : Nat) =>
    let m : Int := (y / 2 : Nat)
    let o := if y % 2 = 0 then row (m - 1) else row (m + 1)
    List.zipWith (fun a b => (3 * a + b + 2) / 4) (row m) o)

/-- A decoded picture as CAPTURE takes it, but for weaving. -/
def convertPic (g : Tbl Nat) (q : SeqIn) (fmt : Nat) (p : Planes) : Planes :=
  let p := cropPic q fmt p
  let p := if q.depth = 8 then mapPlanes p (List.map (List.map (· * 4))) else p
  if fmt = 0 ∧ cf g Reg.SRC_RATE_SAMPLING = 0 then { p with cb := chromaDown p.cb, cr := chromaDown p.cr } else p

/-- A frame of two fields: the top field's rows are the even ones. -/
def weave (top bottom : Planes) : Planes :=
  let w (a b : List (List Nat)) : List (List Nat) := (a.zip b).flatMap (fun z => [z.1, z.2])
  ⟨w top.y bottom.y, w top.cb bottom.cb, w top.cr bottom.cr⟩

/-- A feed's frame goes to CAPTURE, active start now; or it is not assigned (R198, R200, R201). In the standby it is that region's captured input. -/
def Dev.handPicture (d : Dev) (r c : Nat) (p : Option Planes) : Dev :=
  match p with
  | some pic =>
    if d.lead c = r then (d.measurePhase c d.nowTu).assignSrc c ⟨false, d.nowTu, true, [], 0, 0, pic⟩ else d.stbyFrame c d.nowTu
  | none => if d.lead c = r then d.closeMain c else d

/-- A picture leaves the DPB for CAPTURE: a frame at once, a field once its other is there; a tainted frame only with SHOW_TAINTED (R201). -/
def Dev.showPic (d : Dev) (r slot : Nat) (p : DpbPic) : Dev :=
  let c := slotChan slot
  let g := (d.chan c).cfg
  let pic := convertPic g p.seq (d.slotChroma slot p.seq) p.pic
  let show_ (d : Dev) (tainted : Bool) (pic : Planes) : Dev :=
    d.handPicture r c (if tainted && cf g Reg.FEED_CTRL_SHOW_TAINTED == 0 then none else some pic)
  if p.field = 0 then show_ d p.tainted pic
  else match (d.decSlot r slot).half with
    | some h =>
      if h.1 = p.field then d.setSlot r slot (fun x => { x with half := some (p.field, pic, p.tainted) })
      else show_ (d.setSlot r slot (fun x => { x with half := none })) (h.2.2 || p.tainted)
        (if p.field = 1 then weave pic h.2.1 else weave h.2.1 pic)
    | none => d.setSlot r slot (fun x => { x with half := some (p.field, pic, p.tainted) })

/-- Pictures leave in output order until at most `most` wait. -/
def Dev.bump : Nat → Dev → Nat → Nat → Nat → Dev
  | 0, d, _, _, _ => d
  | n + 1, d, r, slot, most =>
    let wait := (d.decSlot r slot).dpb.filter (·.waits)
    if wait.length ≤ most then d
    else match (wait.map (fun p => p.pocs.headD 0)).min? with
      | none => d
      | some m =>
        match wait.find? (fun p => p.pocs.headD 0 == m) with
        | none => d
        | some p =>
          let d := d.setSlot r slot (fun x =>
            { x with dpb := x.dpb.map (fun y => if y.waits && y.pocs.headD 0 == m then { y with waits := false } else y) })
          (d.showPic r slot p).bump n r slot most

/-- Everything that waits leaves. -/
def Dev.flush (d : Dev) (r slot : Nat) : Dev := d.bump (d.decSlot r slot).dpb.length r slot 0

/-! ## A picture is finished (R207, R210 to R213, R215) -/

/-- CH_CONCEAL of a CL-4 channel counts a picture with an error or a confidence mismatch (R416). -/
def Dev.cl4Conceal (d : Dev) (slot : Nat) : Dev :=
  let c := slotChan slot
  if d.cl4On && c < 4 then d.inc Reg.CH_CONCEAL (cl4B + 0x40 + c * 0x20) else d

/-- The concealment references after a good picture: a frame serves its fields too, and two good fields of a frame the frame. -/
def goodAfter (good : Tbl (Int × Planes)) (p : PicNow) : Tbl (Int × Planes) :=
  let poc := p.pocs.headD 0
  if p.field = 0 then
    tput (tput (tput good 0 (poc, p.pic)) 1 (poc, mapPlanes p.pic (fieldRows 0))) 2 (poc, mapPlanes p.pic (fieldRows 1))
  else
    let g := tput good p.field (poc, p.pic)
    match tget? g 1, tget? g 2 with
    | some a, some b => tput g 0 (min a.1 b.1, weave a.2 b.2)
    | _, _ => g

/-- The picture takes its place in the DPB; where that would hold more than its parameters allow, the oldest picture not needed for output
goes (R207). -/
def Dev.storePic (d : Dev) (r slot : Nat) (p : PicNow) (tainted shows : Bool) : Dev :=
  let y : DpbPic := ⟨p.pocs, p.field, p.pic, p.seq, tainted, false, shows && p.output⟩
  let d := d.setSlot r slot (fun x => { x with dpb := x.dpb ++ [y] })
  let d := if shows then d.bump ((d.decSlot r slot).dpb.length) r slot p.seq.reorder else d
  if (d.decSlot r slot).dpb.length ≤ p.seq.dpb then d
  else
    (d.decErr r slot 9).setSlot r slot (fun x => { x with dpb := match x.dpb.findIdx? (fun y => !y.waits) with
      | some i => x.dpb.eraseIdx i
      | none => x.dpb })

/-- The rest of the work on a decoded picture: taint, counters, references, output. -/
def Dev.closePic (d : Dev) (r slot use : Nat) (p : PicNow) : Dev :=
  let x := d.decSlot r slot
  let w := d.dsOf r slot
  let poc := p.pocs.headD 0
  let concealed := !p.conc.isEmpty || x.bufFail
  let recov := if concealed then none else x.recov.orElse (fun _ => p.recovery)
  let ends := p.kind == .idr || p.kind == .cra || recov.any (fun z => decide (z ≤ poc))
  let generates := use == 1 && p.unavail != 0
  let tainted := concealed || generates || (!ends && p.refTaint)
  let lasts := tainted || (d.rd Reg.DS_STATE_TAINTED w == 1 && !ends)
  let d := (d.incBy Reg.DS_UNAVAIL w p.unavail).incBy Reg.DS_CONCEALED w p.conc.length
  let d := if concealed then d.inc Reg.DS_PIC_CNT_CONCEALED w else d
  let d := if tainted then d.inc Reg.DS_PIC_CNT_TAINTED w else d
  let d := (d.wrB Reg.DS_STATE_TAINTED w lasts).incWrap Reg.DS_PICS w
  let d := if use = 0 ∧ x.errs ≠ 0 ∧ x.confBad = false then d.cl4Conceal slot else d
  let d := d.setSlot r slot (fun x =>
    { x with cur := none, good := if concealed then x.good else goodAfter x.good p, clean := if lasts then 0 else x.clean + 1,
             recov := if ends then none else recov, errs := 0, bufFail := false, confBad := false })
  let d := d.storePic r slot p tainted (use == 2)
  let d := d.emit (.picture r slot poc tainted p.conc.length)
  if use = 1 then
    (if concealed || generates then d.slotEvent r slot 4 (d.rd Reg.DS_STATE_LAST_ERR w) else d).pgEvalAll
  else d

/-- The decoder finishes the picture in progress: CTUs that no slice covers are an error, what is not decoded is concealed (R207). -/
def Dev.finishPic (d : Dev) (r slot use : Nat) : Dev :=
  match (d.decSlot r slot).cur with
  | none => d
  | some p =>
    if p.use = .skip then d.setSlot r slot (fun x => { x with cur := none, errs := 0 })
    else if p.use = .withheld then
      ((d.setSlot r slot (fun x => { x with cur := none, errs := 0 })).inc Reg.FS_RX_FMT (d.dsOf r slot)).handPicture r (slotChan slot) none
    else
      let uncovered := p.use == .decode && (p.gap || (!p.torn && decide (p.next < (d.bandCtus r slot p.seq).2)))
      let d := if uncovered then d.decErr r slot 7 else d
      let d := d.conceal r slot (p.missing (blocksIn p.seq (d.bandLines r slot p.seq)))
      match (d.decSlot r slot).cur with
      | some p => d.closePic r slot use p
      | none => d

/-! ## A picture begins (R200, R201, R209, R211) -/

/-- The key of a parameter set of a kind (R209). -/
def psKey (kind id : Nat) : Nat := kind * 2 ^ 16 + id

/-- The parameter sets in force for a picture (R209): at a random-access picture all that are held, else those without content in force. -/
def setsAt (held active : Tbl PsIn) (all : Bool) : Tbl PsIn :=
  held.foldl (fun m e => if all || (tget? m e.1).isNone then tput m e.1 e.2 else m) active

/-- The sequence parameters that a picture parameter set leads to. -/
def seqOf (active : Tbl PsIn) (pps : Nat) : Option SeqIn :=
  ((tget? active (psKey 2 pps)).bind (fun p => tget? active (psKey 1 p.parent))).bind (·.seq)

/-- Generates a reference picture for each of the POCs listed (R211). -/
def Dev.generate (d : Dev) (r slot : Nat) (q : SeqIn) (field : Nat) (pocs : List Int) : Dev :=
  let grey := greyPic q (d.slotChroma slot q)
  d.each pocs (fun d z =>
    (d.setSlot r slot (fun x => { x with dpb := x.dpb ++ [⟨[z], field, grey, q, true, true, false⟩] })).decErr r slot 8)

/-- The picture of a slice begins with nothing decoded. -/
def newPic (s : DecSlice) (q : SeqIn) (use : PicUse) (first : Nat) (grey : Planes) (rec_ : Option Int) : PicNow :=
  { pocs := s.poc :: s.fieldPocs, kind := s.kind, field := s.field, seq := q, use := use, next := first, torn := false, gap := false, blks := [],
    conc := [], refTaint := false, unavail := 0, recovery := rec_, output := s.output, pic := grey }

/-- The references of a picture to be decoded: an IDR picture empties the DPB, what the marking does not keep goes, and what is missing is
generated. At a CRA that begins decoding nothing before it is missed (R211). -/
def Dev.references (d : Dev) (r slot : Nat) (s : DecSlice) (starting : Bool) : Dev × List Int :=
  let d := if s.kind = .idr then d.flush r slot else d
  let d := d.setSlot r slot (fun x =>
    { x with dpb := x.dpb.filter (fun p => p.waits || (s.kind != .idr && p.pocs.any (fun z => s.keep.contains z))) })
  let held := (d.decSlot r slot).dpb.flatMap (·.pocs)
  let need := if s.kind = .idr ∨ (starting = true ∧ s.kind = .cra) then [] else (s.gaps ++ s.keep ++ s.refs).eraseDups
  (d, need.filter (fun z => !(held.contains z)))

/-- The picture of a slice begins. -/
def Dev.openPic (d : Dev) (r slot use : Nat) (s : DecSlice) : Dev :=
  let x := d.decSlot r slot
  let g := (d.chan (slotChan slot)).cfg
  let random := s.kind == .idr || s.kind == .cra || s.kind == .gdr
  let active := setsAt x.sets x.active random
  let blank : SeqIn := ⟨0, none, 0, false, 0, 8, 0, 0, (0, 0, 0, 0), false, none, 0, 0, 0⟩
  let rec_ := x.sei.orElse (fun _ => s.recovery)
  let d := d.setSlot r slot (fun x => { x with active := active, sei := none, fieldCoded := s.field != 0 })
  let put (d : Dev) (p : PicNow) : Dev := d.setSlot r slot (fun x => { x with cur := some p })
  match seqOf active s.pps with
  | none =>
    if x.started = false then put d (newPic s blank .skip 0 noPic none)
    else
      let q := ((active.findSome? (fun e => e.2.seq))).getD blank
      (put d (newPic s q .lost (d.bandCtus r slot q).1 (greyPic q (d.slotChroma slot q)) none)).decErr r slot 5
  | some q =>
    let here := newPic s q .decode (d.bandCtus r slot q).1 (greyPic q (d.slotChroma slot q)) rec_
    if use = 2 ∧ feedMatches g q = false then
      let d := d.flush r slot
      (put (d.setSlot r slot (fun x => { x with mismatch := true, dpb := [] })) { here with use := .withheld }).decErr r slot 0x30
    else if use = 2 ∧ x.mismatch = true ∧ random = false ∧ x.sei = none then put d { here with use := .withheld }
    else
      let starting := !x.started || x.mismatch
      let d := d.setSlot r slot (fun x =>
        { x with started := true, mismatch := false,
                 skipRasl := if s.kind = .idr then false else if s.kind = .cra then starting else x.skipRasl })
      if s.kind = .rasl ∧ (d.decSlot r slot).skipRasl = true then put d { here with use := .skip }
      else
        let z := d.references r slot s starting
        let d := (put z.1 { here with unavail := z.2.length }).generate r slot q s.field z.2
        let bad := (d.decSlot r slot).dpb.any (fun p => p.tainted && p.pocs.any (fun z => s.refs.contains z))
        d.setPic r slot (fun p => { p with refTaint := bad || (use == 2 && starting && !random) })

/-! ## NAL units (R195, R203, R207 to R209) -/

/-- A slice of the picture in progress: its blocks, and where it breaks off. `past` tells that the parser ran past the job's input. -/
def Dev.takeSlice (d : Dev) (r slot : Nat) (s : DecSlice) (past : Bool) : Dev :=
  match (d.decSlot r slot).cur with
  | none => d
  | some p =>
    if p.use ≠ .decode then d
    else if s.headerOk = false ∨ p.pocs.headD 0 ≠ s.poc ∨ s.first < p.next ∨ (d.bandCtus r slot p.seq).2 ≤ s.first then d.decErr r slot 6
    else
      let q := p.seq
      let bad := s.err.filter (fun e => e == 1 || e == 2)
      let refTaint := (d.decSlot r slot).dpb.any (fun y => y.tainted && y.pocs.any (fun z => s.refs.contains z))
      let d := d.setPic r slot (fun p =>
        { p with next := s.first + s.ctus, torn := bad.isSome || past, gap := p.gap || (decide (p.next < s.first) && !p.torn),
                 blks := p.blks ++ s.blocks.filter (fun b => !(p.conc.contains b.num)), refTaint := p.refTaint || refTaint,
                 pic := paint q (d.slotChroma slot q) (0, q.height) (s.blocks.map (fun b => (b.num, (0, 0)))) s.pic p.pic })
      match bad with
      | some e => d.decErr r slot e
      | none => d

/-- Whether a slice starts a new picture (R208). -/
def newPicture (cod : Nat) (cur : Option PicNow) (s : DecSlice) : Bool :=
  match cur with
  | none => true
  | some p => s.opens || (cod != 0 && p.pocs.headD 0 != s.poc)

/-- The codec of a slot's stream. -/
def Dev.slotCodec (d : Dev) (slot : Nat) : Nat :=
  let g := (d.chan (slotChan slot)).cfg
  if slot < 1024 then codec g (slot % 8) else cf g Reg.FEED_CTRL_CODEC

/-- The decoder reads one NAL unit. -/
def Dev.readNal (d : Dev) (r slot use : Nat) (n : DecNal) : Dev :=
  let x := d.decSlot r slot
  let past := decide (x.input < n.reach)
  if n.headerOk = false then d.decErr r slot 3
  else if n.layer ≠ 0 ∨ n.reserved = true then d
  else if n.whole = false then d.decErr r slot 0x10
  else
    let cut (d : Dev) : Dev := if past then d.byteBound r slot else d
    match n.body with
    | .params p =>
      let d := d.finishPic r slot use
      if past then d.byteBound r slot
      else if p.valid then d.setSlot r slot (fun x => { x with sets := tput x.sets (psKey p.kind p.id) p })
      else d.decErr r slot 4
    | .slice s =>
      let d := if newPicture (d.slotCodec slot) x.cur s then (d.finishPic r slot use).openPic r slot use s else d
      cut (d.takeSlice r slot s past)
    | .picHeader => cut (d.finishPic r slot use)
    | .delimiter => cut (d.finishPic r slot use)
    | .recovery poc => if past then d.byteBound r slot else (d.finishPic r slot use).setSlot r slot (fun x => { x with sei := some poc })
    | .other => cut d

/-- The decoder reads what it has come to, NAL unit by NAL unit. -/
def Dev.readNals (d : Dev) (r slot use : Nat) (l : List DecNal) : Dev := d.each l (fun d n => d.readNal r slot use n)

end Sys2Proof.Machine
end

