-- ==== Sys2Proof/Machine/Decoding.lean ====
section
/-! DEFINITION. The decoders' commands: job bounds (R202, R205), the end of a picture (R194 to R213, R215), a feed's receive buffer (R196, R199)
and the confidence check (R214). -/

namespace Sys2Proof.Machine

/-! ## Job bounds (R202, R205) -/

/-- The luma lines of a job's unit in its picture: a tick slice, or all that the region decodes of a picture (R193). -/
def Dev.jobLines (d : Dev) (r : Nat) (j : DeJob) (use : Nat) (q : SeqIn) : Nat × Nat :=
  let c := slotChan j.slot
  let g := (d.chan c).cfg
  let rd := j.slot % 8
  let z := d.bandLines r j.slot q
  if use = 2 ∨ ladder g = true then z
  else
    let s := sliceRows g rd (keyRow j.key % picSlices g)
    (max z.1 (min q.height (s.1 * rowLines g rd)), min z.2 (s.2 * rowLines g rd))

/-- The cycle budget of `n` luma samples (R202): CYC_MULT / 4 × 0.3 × n × W_codec × W_chroma, rounded up. -/
def cycleBudget (mult n cod chroma : Nat) : Nat := ceilDiv (mult * 3 * n * wCodec cod * wChroma chroma) 40000

/-- The weights' codec and chroma format of a slot's stream (R49, R197). -/
def Dev.slotWeights (d : Dev) (slot : Nat) : Nat × Nat :=
  let g := (d.chan (slotChan slot)).cfg
  if slot < 1024 then (codec g (slot % 8), cfR g (slot % 8) Reg.RN_CTRL_CHROMA) else (cf g Reg.FEED_CTRL_CODEC, cf g Reg.FEED_CTRL_CHROMA)

/-- A job ends by a bound (R202, R205): a job whose last block is decoded is complete; otherwise the first ending in R205's order is
reported, BYTE_BOUND before this one, and what the job has not decoded is concealed. `past` tells that the parser ran past the input at
the same cycle; `fires` tells from the undecoded blocks whether the bound is reached. -/
def Dev.boundEnd (d : Dev) (r de code : Nat) (row : Row) (x : List DecNal) (fires : Dev → DeJob → SeqIn → Nat → Bool) : Dev :=
  match tget? d.des (deKey r de) with
  | none => d
  | some j =>
    let use := ((tget? d.strms (slotKey r j.slot)).map (·.use)).getD 0
    let e := d.readNals r j.slot use x
    match j.ended, (e.decSlot r j.slot).cur with
    | none, some p =>
      let blocks := p.missing (blocksIn p.seq (e.jobLines r j use p.seq))
      let past := match x.getLast? with
        | some n => decide ((d.decSlot r j.slot).input < n.reach)
        | none => false
      if blocks.isEmpty || !(fires e j p.seq blocks.length) then e
      else
        let e := { e with des := tput e.des (deKey r de) { j with ended := some code } }
        let e := if past then e else (e.inc row (blk r (ixDE + de))).decErr r j.slot code
        e.conceal r j.slot blocks
    | _, _ => e

/-- CYCLE_BUDGET (R202, R205): a job has spent its cycles; `x` is what it came to since its last report. -/
def execCycleBudget (r : Nat) (x : DecRun) (s : State) : Host.Outcome State Fault Refusal :=
  s.onDev (fun d => (d.advanceTo x.t).boundEnd r x.de 0x21 Reg.DE_WD_BUDGET x.nals (fun d j q _ =>
    let use := ((tget? d.strms (slotKey r j.slot)).map (·.use)).getD 0
    let z := d.jobLines r j use q
    let w := d.slotWeights j.slot
    decide (cycleBudget (d.rd Reg.DE_BOUND_CYC_MULT (blk r (ixDE + x.de))) (q.width * (z.2 - z.1)) w.1 w.2 ≤ x.cycles)))

/-- WD_EXPIRY (R202, R205): the watchdog is set to the job's deadline less 32 cycles at 1.2 GHz for each undecoded block. -/
def execWdExpiry (r : Nat) (x : DecRun) (s : State) : Host.Outcome State Fault Refusal :=
  s.onDev (fun d => (d.advanceTo x.t).boundEnd r x.de 0x20 Reg.DE_WD_EXPIRED x.nals (fun d j _ n =>
    decide (3 * j.deadline ≤ 3 * d.now + 80 * n)))

/-- DECODE_PICTURE_END (R194, R195, R198, R200, R201, R207 to R213, R215, R218): the decoder reads what is left of the picture and finishes it. -/
def execDecodePictureEnd (r slot : Nat) (x : PicRead) (s : State) : Host.Outcome State Fault Refusal :=
  s.onDev (fun d0 =>
    let d := d0.advanceTo x.t
    match tget? d.strms (slotKey r slot) with
    | some y => if d.active r then (d.readNals r slot y.use x.nals).finishPic r slot y.use else d
    | none => d)

/-! ## The receive buffer (R196, R199) -/

/-- AU_MAX in bytes. -/
def auMax (g : Tbl Nat) : Nat :=
  ceilDiv (4 * cf g Reg.FEED_RATE_MAX_KBPS * 1000 * (period g).1) (8 * (period g).2)

/-- The modulus of the numbers by which a feed's packets are ordered: RTP sequence numbers, or continuity counters for ENCAP 0x2. -/
def feedMod (g : Tbl Nat) : Nat := if cf g Reg.FEED_CTRL_ENCAP = 2 then 16 else 65536

/-- The transport-stream packets of a feed packet that carry its video. -/
def pktVideo (g : Tbl Nat) (p : FeedPkt) : List TsIn :=
  match p.carriage with
  | .ts l => l.filter (fun x => x.pid == cf g Reg.FEED_BUF_PID)
  | _ => []

/-- Whether the carriage of a packet is supported (R196). -/
def pktReadable (g : Tbl Nat) (p : FeedPkt) : Bool :=
  match p.carriage with
  | .single => cf g Reg.FEED_CTRL_ENCAP == 0
  | .aggregate => cf g Reg.FEED_CTRL_ENCAP == 0
  | .fragment => cf g Reg.FEED_CTRL_ENCAP == 0
  | .interleaved => false
  | .donl => false
  | .paci => false
  | .ts l => cf g Reg.FEED_CTRL_ENCAP != 0 && decide (1 ≤ l.length) && decide (l.length ≤ 7)
      && (cf g Reg.FEED_CTRL_ENCAP == 1 || !(pktVideo g p).isEmpty) && (pktVideo g p).all (fun x => !x.scrambled)

/-- A packet's number, and how many numbers it takes. -/
def pktNum (g : Tbl Nat) (p : FeedPkt) : Nat :=
  if cf g Reg.FEED_CTRL_ENCAP = 2 then (((pktVideo g p).head?.map (·.cc)).getD 0) % 16 else p.rtpSeq % 65536

/-- The sequence numbers that a packet of a feed takes (R199). -/
def pktSpan (g : Tbl Nat) (p : FeedPkt) : Nat := if cf g Reg.FEED_CTRL_ENCAP = 2 then (pktVideo g p).length else 1

/-- How far number `b` lies beyond `a`. -/
def seqFrom (m a b : Nat) : Nat := (b + m - a % m) % m

/-- The packets of the next access unit, whether its last one is there, and how many numbers are missing up to its
end: the last packet's, or that before the first packet of a later access unit. -/
def DecSlot.front (x : DecSlot) (g : Tbl Nat) : List FeedPkt × Bool × Nat :=
  match x.auNext with
  | none => ([], false, 0)
  | some au =>
    let m := feedMod g
    let own := x.pkts.filter (fun p => p.au == au)
    let later := x.pkts.filter (fun p => au < p.au)
    let start := x.nextSeq.getD ((own.head?.map (pktNum g)).getD 0)
    let start := if x.nextSeq.isSome then start
      else own.foldl (fun a p => if seqFrom m (pktNum g p) a < m / 2 then pktNum g p else a) start
    let past (a : Option Nat) (p : FeedPkt) : Option Nat := match a with
      | none => some (seqFrom m start (pktNum g p))
      | some b => some (min b (seqFrom m start (pktNum g p)))
    let stop : Option Nat := match own.find? (·.last) with
      | some p => some (seqFrom m start (pktNum g p) + pktSpan g p)
      | none => later.foldl past none
    let n := sumL (own.map (pktSpan g))
    (own, own.any (·.last), match stop with
      | some z => z - n
      | none => 0)

/-- Hands the next access unit over: packets not there are lost. -/
def Dev.handAu (d : Dev) (r c : Nat) : Dev :=
  let slot := 1024 + c
  let w := d.dsOf r slot
  let x := d.decSlot r slot
  let g := (d.chan c).cfg
  let m := feedMod g
  match x.auNext with
  | none => d
  | some au =>
    let fr := x.front g
    let own := fr.1
    let bytes := sumL (own.map (·.bytes))
    let d := d.incBy Reg.FS_RX_LOST w fr.2.2
    let d := d.incBy Reg.FS_RX_REPAIRED w
      ((own.filter (fun p => p.path != 0 && !(x.seen.contains (pktNum g p, 0)))).length)
    let held := match tget? x.lastAt au with
      | some t => if fr.2.1 then (d.now - t) / 1000 else 0
      | none => 0
    let d := d.wr Reg.FS_RX_HOLD_MAX w (min 0xFFFF (max held (d.rd Reg.FS_RX_HOLD_MAX w)))
    let d := if auMax g < bytes then d.byteBound r slot else d
    let rest := x.pkts.filter (fun p => p.au != au)
    let next : Option Nat := match own.find? (·.last) with
      | some p => some ((pktNum g p + pktSpan g p) % m)
      | none => (rest.find? (fun p => rest.all (fun q => p.au < q.au || (p.au == q.au && seqFrom m (pktNum g p) (pktNum g q) < m / 2)))).map
          (pktNum g)
    let d := d.setSlot r slot (fun x =>
      { x with pkts := rest, auNext := some (au + 1), nextSeq := next, lastAt := tkeep (fun k _ => au < k) x.lastAt })
    (d.emit (.au slot au)).releaseUnit r 0x0A c 0 0 au (min bytes (auMax g))

/-- Hands over every access unit that is complete. -/
def Dev.handComplete : Nat → Dev → Nat → Nat → Dev
  | 0, d, _, _ => d
  | n + 1, d, r, c =>
    let fr := (d.decSlot r (1024 + c)).front (d.chan c).cfg
    if fr.2.1 && fr.2.2 == 0 then (d.handAu r c).handComplete n r c else d

/-- A packet reaches the receive buffer; a copy of one that came is not taken again, and one whose access unit has gone is late. DELAY counts
from the last packet's arrival, and while that has not come from the arrival of the first packet of a later access unit. -/
def Dev.feedIn (d : Dev) (r c : Nat) (p : FeedPkt) : Dev :=
  let slot := 1024 + c
  let g := (d.chan c).cfg
  let m := feedMod g
  let x := d.decSlot r slot
  let q := pktNum g p
  let seen := x.seen.filter (fun y => seqFrom m y.1 q < m / 2) ++ [(q, p.path)]
  let put (f : DecSlot → DecSlot) : Dev := d.setSlot r slot (fun x => f { x with seen := seen })
  if x.seen.any (fun y => y.1 == q) then put id
  else if x.auNext.any (fun au => p.au < au) then (put id).inc Reg.FS_RX_LATE (d.dsOf r slot)
  else
    let au := x.auNext.getD p.au
    let earlier := (List.range (min 64 (p.au - au))).map (· + au)
    let at_ := earlier.foldl (fun m k => if (tget? m k).isSome then m else tput m k d.now) x.lastAt
    let at_ := if p.last then tput at_ p.au d.now else at_
    let d := put (fun x => { x with pkts := x.pkts ++ [p], auNext := some au, lastAt := at_ })
    (d.incWrap Reg.FS_RX_PKTS (d.dsOf r slot)).handComplete (x.pkts.length + 1) r c

/-- The regions whose decoders take a channel's feed, while it lives: its lead region, and its standby (R197). -/
def Dev.feedRegions (d : Dev) (c : Nat) : List Nat :=
  if d.live c && feedOn (d.chan c).cfg then
    regions.filter (fun r => (tget? d.strms (slotKey r (1024 + c))).isSome && d.active r)
  else []

/-- The port on which path `path` of a feed comes: in the standby the port with the same local number (R267). -/
def Dev.feedPort (d : Dev) (c : Nat) (p : FeedPkt) (r : Nat) : Nat × Nat :=
  let g := (d.chan c).cfg
  let port := if p.path = 0 then cf g Reg.SRC_2110_PORT else cf g Reg.SRC_2110_PORT2
  (if p.stby then r else port / 16, port % 16)

/-- Whether a packet is the feed's (R86, R196): its path's port is up, the destination and where PT_EN is 1 the payload type are the
descriptor's, and the carriage is supported. -/
def Dev.feedOurs (d : Dev) (c : Nat) (p : FeedPkt) (r : Nat) : Bool :=
  let g := (d.chan c).cfg
  let z := d.feedPort c p r
  let group := (List.range 4).foldl (fun a i => a + stGet g Reg.SRC_GROUP 0 i * 2 ^ (32 * i)) 0
  (p.path == 0 || cf g Reg.SRC_2110_DUAL == 1) && d.pUp z.1 z.2 && p.hdr.group == group && p.hdr.udp == cf g Reg.SRC_UDP_PORT
    && (cf g Reg.SRC_UDP_PT_EN == 0 || cf g Reg.FEED_CTRL_ENCAP == 2 || p.hdr.pt == cf g Reg.SRC_UDP_PT) && pktReadable g p

/-- FEED_PACKET (R196, R199): a packet of a feed, on either of its ports. -/
def execFeedPacket (c : Nat) (p : FeedPkt) (t : Nat) (s : State) : Host.Outcome State Fault Refusal :=
  s.onDev (fun d0 =>
    let d := d0.advanceTo t
    match (d.feedRegions c).find? (fun r => (r == d.lead c) != p.stby) with
    | some r => if d.feedOurs c p r then d.feedIn r c p else d
    | none => d)

/-- FEED_DELAY_EXPIRY (R199): DELAY has passed since the arrival that R199 names; what is missing is lost. -/
def execFeedDelayExpiry (c t : Nat) (s : State) : Host.Outcome State Fault Refusal :=
  s.onDev (fun d0 =>
    let d := d0.advanceTo t
    d.each (d.feedRegions c) (fun d r =>
      let x := d.decSlot r (1024 + c)
      match x.auNext.bind (fun au => tget? x.lastAt au) with
      | some from_ =>
        if from_ + cf (d.chan c).cfg Reg.FEED_BUF_DELAY * 100000 ≤ d.now then
          (d.handAu r c).handComplete (x.pkts.length + 1) r c
        else d
      | none => d))

/-! ## The confidence check (R214) -/

/-- CRC-32C over a row's samples as 16-bit little-endian values. -/
def rowCrc (l : List Nat) : Nat := crc32c (l.flatMap (leBytes 2))

/-- CONF_ROW_COMPARE (R214, R218). -/
def execConfRowCompare (r slot row : Nat) (enc dec : List Nat) (s : State) : Host.Outcome State Fault Refusal :=
  s.onDev (fun d =>
    match tget? d.strms (slotKey r slot) with
    | some x =>
      if x.use ≠ 0 ∨ d.active r = false ∨ rowCrc enc = rowCrc dec then d
      else
        let d := (d.inc Reg.DS_MISMATCH (d.dsOf r slot)).slotEvent r slot 2 row
        let d := if (d.decSlot r slot).confBad then d else d.cl4Conceal slot
        d.setSlot r slot (fun y => { y with confBad := true })
    | none => d)

end Sys2Proof.Machine
end

