-- ==== Sys2Proof/Machine/Memory.lean ====
section
/-! DEFINITION. The memory ports (R304 to R324): codewords and their errors, the write queue and its drain, panic, refresh,
scrubbing, training and retraining, and the loss of a port. Conventions for the operands: an entry of `errs` is the
number of symbols in error plus 64 × the first of them. -/

namespace Sys2Proof.Machine

/-- The page of a memory port. -/
def mpPage (r p : Nat) : Nat := blk (r % 8) (ixMEMPORT + p % 4)

/-- A memory port's state. -/
def Dev.mp (d : Dev) (r p : Nat) : MpSt := tget d.mps (r % 8 * 4 + p % 4) MpSt.init

/-- A change of a memory port's state. -/
def Dev.setMp (d : Dev) (r p : Nat) (f : MpSt → MpSt) : Dev := { d with mps := tmod d.mps (r % 8 * 4 + p % 4) MpSt.init f }

/-! ## Where an address lies (R305, R306) -/

/-- The codeword of an address (R306). -/
def cwOf (addr : Nat) : Nat := addr / 32 * 32

/-- Channel, rank, bank and row of an address: the ports interleave channels, ranks and banks by 256 bytes (R305); 16 banks, and
rows of seven stripes (PRESUMED). -/
def Dev.cellOf (d : Dev) (r p addr : Nat) : Nat × Nat × Nat × Nat :=
  let s := addr % 0x800000000 / 256
  let ranks := d.rd Reg.MP_CFG_RANKS (mpPage r p) + 1
  (s % 4, s / 4 % ranks, s / (4 * ranks) % 16, s / (4 * ranks * 16) / 7)

/-- The key of a rank's bank (R311). -/
def bankKey (x : Nat × Nat × Nat × Nat) : Nat := (x.1 * 2 + x.2.1) * 16 + x.2.2.1

/-- An access opens the row of its bank (R311). -/
def Dev.openRow (d : Dev) (r p addr : Nat) : Dev :=
  let x := d.cellOf r p addr
  d.setMp r p (fun m => { m with rows := tput m.rows (bankKey x) x.2.2.2 })

/-! ## Panic (R314) -/

/-- The panic signal of requester `q` at need level `need`. -/
def Dev.panicAt (d : Dev) (r p q need : Nat) : Dev :=
  let pg := mpPage r p
  let on := d.rd Reg.MP_PANIC_ON pg q
  let off := d.rd Reg.MP_PANIC_OFF pg q
  d.setMp r p (fun m =>
    { m with need := tput m.need q need,
             panic := if on ≤ need then (if m.panic.contains q then m.panic else m.panic ++ [q])
               else if need ≤ off then m.panic.filter (· != q) else m.panic })

/-- The need level that an access reports; only privileged requesters have buffers. -/
def Dev.needAt (d : Dev) (r q addr need : Nat) : Dev :=
  match d.portFor r addr with
  | some p => if q < 4 then d.panicAt r p q (min 100 need) else d
  | none => d

/-! ## Retraining triggers (R319) -/

/-- A trigger starts a sequence; one that arrives during a sequence is absorbed. -/
def Dev.startRetrain (d : Dev) (r p : Nat) : Dev :=
  if d.rd Reg.MP_STATE_STATE (mpPage r p) = 2 then
    (d.wr Reg.MP_STATE_STATE (mpPage r p) 3).setMp r p (fun m => { m with since := some d.now })
  else d

/-! ## Codewords (R307) -/

/-- MP_ECC_INFO as a word. -/
def Dev.eccInfo (d : Dev) (pg : Nat) : Nat :=
  d.rd Reg.MP_ECC_INFO_SYMBOL pg + d.rd Reg.MP_ECC_INFO_CHAN pg * 2 ^ 6 + d.rd Reg.MP_ECC_INFO_UE pg * 2 ^ 8
    + d.rd Reg.MP_ECC_INFO_SCRUB pg * 2 ^ 9 + d.rd Reg.MP_ECC_INFO_RANK pg * 2 ^ 10 + d.rd Reg.MP_ECC_INFO_VALID pg * 2 ^ 31

/-- Records a codeword, where no record is held, or one of a corrected codeword gives way to an uncorrectable one. -/
def Dev.eccRecord (d : Dev) (r p cw symbol : Nat) (ue scrub : Bool) : Dev :=
  let pg := mpPage r p
  if d.rd Reg.MP_ECC_INFO_VALID pg = 0 ∨ (ue = true ∧ d.rd Reg.MP_ECC_INFO_UE pg = 0) then
    let x := d.cellOf r p cw
    let d := d.wrPair Reg.MP_ECC_ADDR_LO Reg.MP_ECC_ADDR_HI pg cw
    let d := (d.wr Reg.MP_ECC_INFO_SYMBOL pg (if ue then 0x3F else symbol)).wr Reg.MP_ECC_INFO_CHAN pg x.1
    let d := (d.wrB Reg.MP_ECC_INFO_UE pg ue).wrB Reg.MP_ECC_INFO_SCRUB pg scrub
    (d.wr Reg.MP_ECC_INFO_RANK pg x.2.1).wr Reg.MP_ECC_INFO_VALID pg 1
  else d

/-- A corrected codeword. Injected ones count neither toward MEM_CE_RATE nor as a trigger (R481). -/
def Dev.correctable (d : Dev) (r p cw symbol : Nat) (inj scrub : Bool) : Dev :=
  let pg := mpPage r p
  let d := (d.inc Reg.MP_ECC_CE pg).eccRecord r p cw symbol false scrub
  let d := d.err pg 0x52 0 (cw % 2 ^ 32) inj
  if inj then d
  else
    let m := d.mp r p
    let n := (if m.ceSec.1 = d.second then m.ceSec.2 else 0) + 1
    let d := d.setMp r p (fun m => { m with ceSec := (d.second, n) })
    let key := 0x7000 + r * 4 + p
    if d.rd Reg.MP_RETRAIN_CE_THR pg < n && d.mayRaise key then ((d.markRaised key).event pg 1 0 0).startRetrain r p else d

/-- An uncorrectable codeword. -/
def Dev.uncorrectable (d : Dev) (r p cw : Nat) (inj scrub : Bool) : Dev :=
  let pg := mpPage r p
  let d := (d.inc Reg.MP_ECC_UE_UE pg).eccRecord r p cw 0x3F true scrub
  let d := d.event pg 0 0 (d.eccInfo pg) 0 inj
  let d := d.err pg 0x53 1 (cw % 2 ^ 32) inj
  if inj then d else d.startRetrain r p

/-- How a codeword was read. -/
inductive Word36 where
  | good | corrected | poison
  /-- An error of four or more symbols that the decoder does not see: the data are wrong. -/
  | wrong
  deriving DecidableEq, Repr

/-- Decodes one codeword: `err` as the operands give it, with the symbols that an injection corrupted. -/
def Dev.decodeWord (d : Dev) (r p cw err : Nat) (scrub : Bool := false) : Dev × Word36 :=
  let bad := tget? (d.mp r p).bad cw
  let own := err % 64
  let n := own + (bad.map (·.2)).getD 0
  let inj := own == 0
  let sym := if own = 0 then (bad.map (·.1)).getD 0 else err / 64 % 36
  if n = 0 then (d, .good)
  else if n = 1 then (d.correctable r p cw sym inj scrub, .corrected)
  else if n ≤ 3 then (d.uncorrectable r p cw inj scrub, .poison)
  else if d.freeVal % 2 = 0 then (d.freeNext.uncorrectable r p cw inj scrub, .poison)
  else (d.freeNext, .wrong)

/-! ## What a poisoned read does (R308) -/

/-- A rendition starts a new coded video sequence at the next frame (R119, R308). -/
def Dev.newSequence (d : Dev) (c rd : Nat) : Dev :=
  let k := (d.chan c).k
  if (tget? d.rends (c * 8 + rd)).isSome then
    d.setRend c rd (fun x => { x with irs := x.irs ++ [k], segs := if x.segs.contains k then x.segs else x.segs ++ [k] })
  else d

/-- The layers whose buffer in use holds an address. -/
def Dev.layersAt (d : Dev) (r addr : Nat) : List (Nat × Nat) :=
  ((d.chansOn r).flatMap (fun c => (List.range 8).map (fun l => (c, l)))).filter (fun x =>
    let k := d.actL x.1 x.2 Reg.LY_CTRL_KIND
    let b := d.gfxAt x.1 x.2
    (k == 1 || k == 2) && decide (b.1 ≤ addr) && decide (addr < b.1 + b.2))

/-! ## Decoder buffers (R204, R206) -/

/-- Whether a decode engine's access of `n` bytes is allowed: within its descriptor, and in a direction that the descriptor permits. -/
def Dev.bufAllows (d : Dev) (r de desc addr n : Nat) (read : Bool) : Bool :=
  let pg := blk r (ixDE + de)
  let base := d.rd Reg.DE_BUF_BASE_LO pg desc + d.rd Reg.DE_BUF_BASE_HI pg desc * 2 ^ 32
  let limit := d.rd Reg.DE_BUF_LIMIT_LO pg desc + d.rd Reg.DE_BUF_LIMIT_HI pg desc * 2 ^ 32
  decide (base ≤ addr) && decide (addr + n ≤ limit) && (if desc = 0 then read else if desc = 4 ∨ desc = 5 then !read else true)

/-- Records the first failing access. -/
def Dev.violation (d : Dev) (r de desc addr slot : Nat) (read : Bool) : Dev :=
  let pg := blk r (ixDE + de)
  if d.rd Reg.DE_VIOL_INFO_VALID pg = 1 then d
  else
    let d := d.wrPair Reg.DE_VIOL_ADDR_LO Reg.DE_VIOL_ADDR_HI pg addr
    let d := (d.wr Reg.DE_VIOL_INFO_DESC pg desc).wr Reg.DE_VIOL_INFO_READ pg (b2n read)
    (d.wr Reg.DE_VIOL_INFO_SLOT pg slot).wr Reg.DE_VIOL_INFO_VALID pg 1

/-- An access of a decode engine fails its check: the job ends with BUF_BOUND, its picture is corrupt, and a read answers 1 << (b − 1).
The ending is the job's failure for R17 but where it stands for a poisoned read (R206, R308); a later failure of the job is only
suppressed. -/
def Dev.bufFault (d : Dev) (r de desc addr : Nat) (read poison : Bool) : Dev :=
  match tget? d.des (deKey r de) with
  | none => d
  | some j =>
    let depth := (((d.decSlot r j.slot).cur).map (·.seq.depth)).getD 8
    let d := if read then d.emit (.failedRead r de (2 ^ (depth - 1))) else d
    if j.ended.isSome then d
    else
      let d := { d with des := tput d.des (deKey r de) { j with ended := some 0x23 } }
      let d := (d.violation r de desc addr j.slot read).inc Reg.DE_BND_BUF (blk r (ixDE + de))
      let d := (d.decErr r j.slot 0x23).setSlot r j.slot (fun x => { x with bufFail := true })
      if poison then d else d.jobFailure r (ixDE + de)

/-- The effect of a poisoned word on its requester: a job of a block that reads rate-control state, mirror records or descriptors ends
FAILED. Whether a coding engine read a source sample or a reference is not told
by the read: a free value. -/
def Dev.poisonTo (d : Dev) (r q desc addr : Nat) : Dev :=
  if q = 1 then d.each (d.layersAt r addr) (fun d x => d.layerLost x.1 x.2)
  else if 4 ≤ q ∧ q < 12 then
    let ref := d.freeVal % 2 == 1
    let d := d.freeNext
    match tget? d.ces (ceKey r (q - 4)) with
    | some j => if ref then d.newSequence j.c j.rd else d
    | none => d
  else if q = 12 ∨ q = 13 then
    d.bufFault r (q - 12) (desc % 8) addr true true
  else if q = 3 ∨ q = 16 ∨ (21 ≤ q ∧ q < 26) then
    let held := (d.rach r).ents.filterMap (fun e => match e.2 with
      | .task ds _ (.held i _) _ => if (blockReqs (classBlock ds.cls i)).contains q then some (e.1, ds, i) else none
      | _ => none)
    d.each (held.take 1) (fun d x => d.failTask r x.1 (d.entGen r x.1) x.2.1 x.2.2)
  else d

/-! ## Reads (R305, R307, R312) -/

/-- `n` bytes the spec leaves open. -/
def Dev.freeBytes : Nat → Dev → Dev × List Byte
  | 0, d => (d, [])
  | n + 1, d =>
    let z := d.freeNext.freeBytes n
    (z.1, BitVec.ofNat 8 d.freeVal :: z.2)

/-- The codewords of an access: address, first byte and one past the last of the access within it. -/
def cwList (addr len : Nat) : List (Nat × Nat × Nat) :=
  let first := addr / 32
  (List.range (if len = 0 then 0 else (addr + len - 1) / 32 + 1 - first)).map (fun i =>
    let cw := (first + i) * 32
    (cw, max addr cw, min (addr + len) (cw + 32)))

/-- Reads the listed codewords: the bytes, whether any is poisoned, and whether any address is unmapped. A codeword with a queued write
is read from the queue (R312). -/
def State.readWords (s : State) (r : Nat) : List (Nat × Nat × Nat) → List Nat → Dev → Dev × List Byte × Bool × Bool
  | [], _, d => (d, [], false, false)
  | (cw, a, b) :: rest, errs, d =>
    let z : Dev × List Byte × Bool × Bool := match d.portFor r cw with
      | none =>
        let f := d.freeBytes (b - a)
        (f.1, f.2, true, true)
      | some p =>
        let m := d.mp r p
        let y := if m.queue.any (fun x => x.1 == cw) then (d, if m.dirty.contains cw then Word36.poison else Word36.good)
          else (d.openRow r p cw).decodeWord r p cw (errs.headD 0)
        match y.2 with
        | .good => (y.1, s.memGet r a (b - a), false, false)
        | .corrected => (y.1, s.memGet r a (b - a), false, false)
        | .poison => let f := y.1.freeBytes (b - a); (f.1, f.2, true, false)
        | .wrong => let f := y.1.freeBytes (b - a); (f.1, f.2, false, false)
    let w := s.readWords r rest errs.tail z.1
    (w.1, z.2.1 ++ w.2.1, z.2.2.1 || w.2.2.1, z.2.2.2 || w.2.2.2)

/-- A read through the ports: its bytes and whether they are poisoned. -/
def State.memLoad (s : State) (r addr len : Nat) (errs : List Nat) : State × List Byte × Bool :=
  let z := s.readWords r (cwList addr len) errs s.dev
  ({ s with dev := if z.2.2.2 then z.1.unmapped r else z.1 }, z.2.1, z.2.2.1)

/-- Whether an access is a decode engine's that fails its descriptor check (R204); `desc` counts for the decode engines only. -/
def Dev.bufStops (d : Dev) (r q desc addr n : Nat) (read : Bool) : Bool :=
  (q == 12 || q == 13) && !(d.bufAllows r (q - 12) (desc % 8) addr n read)

/-- One read is served: its data go to the requester, with what poison does there. -/
def State.readNow (s : State) (r : Nat) (x : WaitRead) : State :=
  let z := s.memLoad r x.addr x.len x.errs
  let d := if z.2.2 then z.1.dev.poisonTo r x.q x.desc x.addr else z.1.dev
  { z.1 with dev := d.emit (.memData r x.q x.addr z.2.1 z.2.2) }

/-- Whether a read hits the open row of its bank. -/
def Dev.rowHit (d : Dev) (r p addr : Nat) : Bool :=
  let x := d.cellOf r p addr
  tget? (d.mp r p).rows (bankKey x) == some x.2.2.2

/-- The read that the port serves next (R312, R313): URGENT first, then an open row, then the oldest; in a drain only URGENT ones. -/
def Dev.nextRead (d : Dev) (r p : Nat) : Option WaitRead :=
  let m := d.mp r p
  let urgent (x : WaitRead) : Bool := m.panic.contains x.q
  let hit (x : WaitRead) : Bool := d.rowHit r p x.addr
  let l := if m.drain.isSome then m.reads.filter urgent else m.reads
  ((l.find? (fun x => urgent x && hit x)).orElse (fun _ => l.find? urgent)).orElse (fun _ => (l.find? hit).orElse (fun _ => l.head?))

/-- Serves one waiting read. -/
def State.serveRead (s : State) (r p : Nat) (x : WaitRead) : State :=
  ({ s with dev := s.dev.setMp r p (fun m => { m with reads := m.reads.erase x }) } : State).readNow r x

/-- The port serves its waiting reads as far as a drain lets it. -/
def State.serveReads (r p : Nat) : Nat → State → State
  | 0, s => s
  | n + 1, s => match s.dev.nextRead r p with
    | some x => (s.serveRead r p x).serveReads r p n
    | none => s

/-- Every read that may be served is served (R312). -/
def State.pumpReads (s : State) (r p : Nat) : State := s.serveReads r p (s.dev.mp r p).reads.length

/-- MEM_READ (R204, R305, R307, R308, R311 to R314): the read joins those of its port, which serves what it may; one whose codewords all
wait in the write queue is served from there. -/
def execMemRead (r : Nat) (q : MemReq) (addr len need : Nat) (errs : List Nat) (s : State) : Host.Outcome State Fault Refusal :=
  if s.dev.active r = false then .next s
  else if s.dev.bufStops r q.q q.desc addr len true then .next { s with dev := s.dev.bufFault r (q.q - 12) (q.desc % 8) addr true false }
  else
    let s := { s with dev := s.dev.needAt r q.q addr need }
    let x : WaitRead := { q := q.q, desc := q.desc, addr := addr, len := len, errs := errs }
    match s.dev.portFor r addr with
    | none => .next (s.readNow r x)
    | some p =>
      if (cwList addr len).all (fun w => (s.dev.mp r p).queue.any (fun y => y.1 == w.1)) then .next ((s.readNow r x).pumpReads r p)
      else .next (({ s with dev := s.dev.setMp r p (fun m => { m with reads := m.reads ++ [x] }) } : State).pumpReads r p)

/-! ## Writes (R305, R306, R312, R313, R481) -/

/-- A write reaches a codeword: a part of one that is not queued reads it first, with error `err` (R306); an armed injection corrupts
it; otherwise a whole codeword, or one that the read corrected, is good again, and one that it could not correct stays as it is. -/
def Dev.writeWord (d : Dev) (r p cw q err : Nat) (whole : Bool) : Dev :=
  let pg := mpPage r p
  let hit := d.rd Reg.MP_INJ_ARM pg == 1 && cwOf (d.rdPair Reg.MP_INJ_ADDR_LO Reg.MP_INJ_ADDR_HI pg) == cw
  let n := d.rd Reg.MP_INJ_SYMBOLS pg
  let queued := (d.mp r p).queue.any (fun x => x.1 == cw)
  let z := if whole || queued then (d, Word36.good) else (d.openRow r p cw).decodeWord r p cw err
  let d := z.1.setMp r p (fun m =>
    { m with queue := if queued then m.queue else m.queue ++ [(cw, q)],
             dirty := if whole then m.dirty.filter (· != cw) else if z.2 = .poison then m.dirty ++ [cw] else m.dirty,
             bad := if hit && n != 0 then tput m.bad cw (d.rd Reg.MP_INJ_FIRST pg, n)
               else if whole || z.2 = .corrected then tdel m.bad cw else m.bad })
  if hit then d.wr Reg.MP_INJ_ARM pg 0 else d

/-- A drain starts at MP_WQ.HI entries. -/
def Dev.drainCheck (d : Dev) (r p : Nat) : Dev :=
  let pg := mpPage r p
  d.setMp r p (fun m =>
    if m.drain.isNone && decide (d.rd Reg.MP_WQ_HI pg ≤ m.queue.length) then { m with drain := some (d.rd Reg.MP_WQ_LO pg) } else m)

/-- Whether every port that a write reaches has room for its new codewords. -/
def Dev.queueRoom (d : Dev) (r : Nat) (cws : List (Nat × Nat × Nat)) : Bool :=
  (List.range 4).all (fun p =>
    let m := d.mp r p
    let new := cws.filter (fun x => d.portFor r x.1 == some p && !(m.queue.any (fun y => y.1 == x.1)))
    new.isEmpty || decide (m.queue.length + new.length ≤ 64))

/-- The waiting reads of a requester that touch one of a write's codewords are served first: the port keeps their order (R312). -/
def State.readsFirst (s : State) (r q : Nat) (cws : List (Nat × Nat × Nat)) : State :=
  [0, 1, 2, 3].foldl (fun s p =>
    ((s.dev.mp r p).reads.filter (fun x => x.q == q && (cwList x.addr x.len).any (fun w => cws.any (fun c => c.1 == w.1)))).foldl
      (fun s x => s.serveRead r p x) s) s

/-- A write through the ports, once there is room for it; `errs` are the errors that its read-modify-writes find. -/
def State.memStore (s : State) (r q addr : Nat) (data : List Byte) (errs : List Nat) : State :=
  let cws := cwList addr data.length
  let s := (s.readsFirst r q cws).memPut r addr data
  let d := s.dev.each (cws.zipIdx) (fun d x => match d.portFor r x.1.1 with
    | some p => d.writeWord r p x.1.1 q (errs.getD x.2 0) (x.1.2.2 - x.1.2.1 == 32)
    | none => d)
  { s with dev := d.each [0, 1, 2, 3] (fun d p => d.drainCheck r p) }

/-- MEM_WRITE (R204, R305, R306, R312, R313, R314): a full queue leaves the write waiting on its grant; a decode engine's that fails its check is
suppressed whole. -/
def execMemWrite (r : Nat) (q : MemReq) (addr need : Nat) (data : MemData) (s : State) : Host.Outcome State Fault Refusal :=
  if s.dev.active r = false then .next s
  else if s.dev.bufStops r q.q q.desc addr data.bytes.length false then .next { s with dev := s.dev.bufFault r (q.q - 12) (q.desc % 8) addr false false }
  else
    let s := { s with dev := s.dev.needAt r q.q addr need }
    if s.dev.queueRoom r (cwList addr data.bytes.length) then .next (s.memStore r q.q addr data.bytes data.errs) else .next s

/-- The queued write that goes to memory next (R313, R314): those of panicking requesters first; in a drain the rest of the row under
way, then the row of the oldest write; else the oldest write. -/
def Dev.nextWrite (d : Dev) (r p : Nat) : Option (Nat × Nat) :=
  let m := d.mp r p
  let rowOf (cw : Nat) : Nat × Nat := let x := d.cellOf r p cw; (bankKey x, x.2.2.2)
  let onRow := if m.drain.isSome then m.queue.find? (fun x => m.lastRow == some (rowOf x.1)) else none
  ((m.queue.find? (fun x => m.panic.contains x.2)).orElse (fun _ => onRow)).orElse (fun _ => m.queue.head?)

/-- WRITE_QUEUE_ISSUE (R312 to R314): a queued write goes to memory; a drain ends at its watermark, and the reads that waited go. -/
def execWriteQueueIssue (r p : Nat) (s : State) : Host.Outcome State Fault Refusal :=
  let d := s.dev
  if d.portIn r p = false then .next s
  else match d.nextWrite r p with
  | none => .next s
  | some x =>
    let y := d.cellOf r p x.1
    let d := (d.openRow r p x.1).setMp r p (fun m =>
      let q := m.queue.filter (fun y => y.1 != x.1)
      let drain := m.drain.filter (fun lo => decide (lo < q.length))
      { m with queue := q, dirty := m.dirty.filter (· != x.1), drain := drain,
               lastRow := if drain.isSome then some (bankKey y, y.2.2.2) else none })
    .next (({ s with dev := d } : State).pumpReads r p)

/-- ROW_IDLE_TIMER (R311): a bank's open row closes after IDLE_CLKS without an access. -/
def execRowIdleTimer (r p bank clks : Nat) (s : State) : Host.Outcome State Fault Refusal :=
  s.onDev (fun d =>
    if d.portIn r p = true ∧ d.rd Reg.MP_PAGE_IDLE_CLKS (mpPage r p) ≤ clks then
      d.setMp r p (fun m => { m with rows := tdel m.rows bank })
    else d)

/-! ## Refresh (R315, R316) -/

/-- The refreshes that a port owes (R315). -/
def Dev.setOwed (d : Dev) (r p n : Nat) : Dev :=
  (d.setMp r p (fun m => { m with owed := n })).wr Reg.MP_REF_OWED (mpPage r p) (n / 8)

/-- An all-bank refresh closes every row. -/
def Dev.allBank (d : Dev) (r p : Nat) (forced : Bool) : Dev :=
  (d.setMp r p (fun m => { m with rows := [] })).emit (.refresh r p true forced)

/-- REFRESH_DUE (R315, R322): a per-bank refresh is issued, postponed, or with a debt of 8 replaced by a forced one. -/
def execRefreshDue (r p : Nat) (blocked : Bool) (s : State) : Host.Outcome State Fault Refusal :=
  s.onDev (fun d =>
    let m := d.mp r p
    if d.portIn r p = false then d
    else if m.panic.isEmpty || (!blocked && decide (m.owed < 64)) then d.emit (.refresh r p false false)
    else if m.owed < 64 then d.setOwed r p (m.owed + 1)
    else
      let d := (d.allBank r p true).inc Reg.MP_REF_FORCED (mpPage r p)
      (d.setMp r p (fun m => { m with forcedAt := some d.now })).setOwed r p (m.owed + 1 - 8))

/-- REFRESH_REPAY (R315): one all-bank refresh repays the debt while no requester is in panic. -/
def execRefreshRepay (r p : Nat) (s : State) : Host.Outcome State Fault Refusal :=
  s.onDev (fun d =>
    let m := d.mp r p
    if d.portIn r p = false ∨ m.panic ≠ [] ∨ m.owed = 0 then d
    else (d.allBank r p false).setOwed r p (m.owed - 8))

/-- REFRESH_RATE_POLL (R316): the highest multiplier that a die requires, never below 1. -/
def execRefreshRatePoll (r p mult : Nat) (hot : Bool) (s : State) : Host.Outcome State Fault Refusal :=
  s.onDev (fun d =>
    if d.portIn r p = false then d
    else
      let m := if hot || decide (2 < mult) then 4 else if mult = 2 then 2 else 1
      let d := d.wr Reg.MP_REF_MULT (mpPage r p) m
      if hot then d.event (mpPage r p) 2 0 0 else d)

/-- tREFI in ns. -/
def Dev.tRefi (d : Dev) (r p : Nat) : Nat := 3904 / max 1 (d.rd Reg.MP_REF_MULT (mpPage r p))

/-! ## Scrubbing (R310) -/

/-- SCRUB_READ (R307, R310, R322): one stripe of an idle port; a corrected codeword is written back unless a write to it is
queued. An entry of `errs` is the codeword's number in the stripe and its error. -/
def execScrubRead (r p stripe : Nat) (errs : List (Nat × Nat)) (s : State) : Host.Outcome State Fault Refusal :=
  s.onDev (fun d =>
    let pg := mpPage r p
    if d.portIn r p = false ∨ d.active r = false ∨ d.rd Reg.MP_SCRUB_PERIOD_H pg = 0
        ∨ (d.arb r p).reqs ≠ [] ∨ (d.mp r p).reads ≠ []
        ∨ d.rd Reg.MP_WQ_LO pg ≤ (d.mp r p).queue.length ∨ d.rd Reg.MP_CAP_DATA_MIB pg * 4096 ≤ stripe then d
    else
      d.each (List.range 8) (fun d i =>
        let cw := p * 0x800000000 + stripe * 256 + i * 32
        let z := d.decodeWord r p cw (((errs.find? (fun x => x.1 == i)).map (·.2)).getD 0) true
        match z.2 with
        | .corrected =>
          if (z.1.mp r p).queue.any (fun y => y.1 == cw) then z.1
          else (z.1.setMp r p (fun m => { m with bad := tdel m.bad cw })).inc Reg.MP_ECC_UE_SCRUB_FIX pg
        | _ => z.1))

/-! ## Training (R318 to R321) -/

/-- Whether the board record populates a port; without a record every port is taken as populated (R490). -/
def Dev.populated (d : Dev) (r p : Nat) : Bool :=
  match d.nvm.board with
  | some b => (b.getD (0x30 + (r * 4 + p) * 8) 0) % 2 == 1
  | none => true

/-- The configuration of a trained port: from the board record, else 6,400 MT/s with the density and ranks that the memory
reports, which are free values until a first training has read them (R304, R306, R490). -/
def Dev.portConfig (d : Dev) (r p : Nat) : Dev :=
  let pg := mpPage r p
  if d.nvm.board.isNone && d.rd Reg.MP_CAP_DATA_MIB pg != 0 then d
  else
    let b0 := (d.nvm.board.map (fun b => b.getD (0x30 + (r * 4 + p) * 8) 0)).getD (d.freeVal % 3 * 8 + d.freeVal / 3 % 2 * 32)
    let d := if d.nvm.board.isNone then d.freeNext else d
    let rate := b0 / 2 % 4
    let den := b0 / 8 % 4
    let ranks := b0 / 32 % 2
    let cap := (ranks + 1) * (16 + 8 * den) * 2 ^ 29
    let d := ((d.wr Reg.MP_CFG_RATE pg rate).wr Reg.MP_CFG_DENSITY pg den).wr Reg.MP_CFG_RANKS pg ranks
    d.wr Reg.MP_CAP_DATA_MIB pg (cap / 288 * 256 / 2 ^ 20)

/-- The code of a training's outcome (R321). -/
def outcomeCode (o : TrainOutcome) : Nat :=
  match o with
  | .pass => 0x00
  | .restored => 0x01
  | .marginal => 0x02
  | .noSetting => 0x40
  | .noResponse => 0x41
  | .configMismatch => 0x42
  | .notPopulated => 0x43

/-- LAST_RESULT with the port's state and what goes with it (R318, R323, R478). A verification of stored settings is no training, and a
training that finds no setting still has a temperature. -/
def Dev.trainResult (d : Dev) (r p code temp margin : Nat) : Dev :=
  let pg := mpPage r p
  let d := d.wr Reg.MP_STATE_LAST_RESULT pg code
  let d := if code = 0x01 ∨ code = 0x43 then d else d.inc Reg.MP_TRAIN_COUNT pg
  let d := if code = 0x01 ∨ 0x40 < code then d else (d.wr Reg.MP_TRAIN_TEMP pg (temp + 64)).wr Reg.MP_TRAIN_MARGIN pg margin
  if code < 4 then
    let d := d.wr Reg.MP_STATE_STATE pg 2
    if code = 2 then d.event pg 3 0 code else d
  else if code = 0x43 then d.wr Reg.MP_STATE_STATE pg 0
  else (d.wr Reg.MP_STATE_STATE pg 4).setMp r p (fun m => { m with queue := [], dirty := [], drain := none, lastRow := none, rows := [] })

/-- DETAIL of a fault-log entry about a port: the port, the result and the last ECC record. -/
def Dev.portDetail (d : Dev) (r p : Nat) : List Nat :=
  let pg := mpPage r p
  [p, d.rd Reg.MP_STATE_LAST_RESULT pg, 0, 0] ++ leBytes 4 (d.eccInfo pg)
    ++ leBytes 8 (d.rdPair Reg.MP_ECC_ADDR_LO Reg.MP_ECC_ADDR_HI pg)

/-- The outcome that the board record, the margin found and the stored settings allow (R318): a port that holds no settings, or that runs
a full training, has none to restore. -/
def Dev.trainCode (d : Dev) (r p : Nat) (o : TrainOutcome) (margin : Nat) (full : Bool) : Nat :=
  let found := if margin < 4 then 0x02 else 0x00
  if !(d.populated r p) then 0x43 else match o with
  | .notPopulated => 0x41
  | .restored => if full || d.rd Reg.MP_CAP_DATA_MIB (mpPage r p) == 0 then found else 0x01
  | .pass => found
  | .marginal => found
  | x => outcomeCode x

/-- A full training or a restore verification of a port ends. -/
def Dev.trained (d : Dev) (r p : Nat) (o : TrainOutcome) (temp margin : Nat) : Dev :=
  let code := d.trainCode r p o margin false
  let d := if code < 4 then d.portConfig r p else d
  let d := d.trainResult r p code temp margin
  if 0x40 ≤ code ∧ code ≤ 0x42 then d.err (mpPage r p) 0x57 2 code false (d.portDetail r p) else d

/-- A port that is out of service has lost its contents (R320, R456). -/
def State.dropLost (s : State) (r p : Nat) : State :=
  if s.dev.rd Reg.MP_STATE_STATE (mpPage r p) = 4 then
    { (s.losePort r p) with dev := s.dev.setMp r p (fun m => { m with bad := [] }) }
  else s

/-- TRAINING_COMPLETE (R318). -/
def execTrainingComplete (r p : Nat) (o : TrainOutcome) (temp margin : Nat) (s : State) : Host.Outcome State Fault Refusal :=
  if (s.dev.region r).core = .run ∧ s.dev.rd Reg.MP_STATE_STATE (mpPage r p) = 1 then
    .next (({ s with dev := s.dev.trained r p o temp margin } : State).dropLost r p)
  else .next s

/-- RETRAIN_TRIGGER (R319). -/
def execRetrainTrigger (r p : Nat) (_cause : RetrainCause) (t : Nat) (s : State) : Host.Outcome State Fault Refusal :=
  s.onDev (fun d => (d.advanceTo t).startRetrain r p)

/-- RETRAIN_STEP (R319, R322): at most one in a tREFI, none beside a forced refresh or in a panic. -/
def execRetrainStep (r p : Nat) (s : State) : Host.Outcome State Fault Refusal :=
  s.onDev (fun d =>
    let m := d.mp r p
    let slot (t : Option Nat) : Bool := t.any (fun x => x / d.tRefi r p == d.now / d.tRefi r p)
    if d.rd Reg.MP_STATE_STATE (mpPage r p) ≠ 3 ∨ m.panic ≠ [] ∨ slot m.stepAt = true ∨ slot m.forcedAt = true then d
    else d.setMp r p (fun m => { m with stepAt := some d.now }))

/-- The loss of a port (R320). -/
def Dev.portLost (d : Dev) (r p temp : Nat) : Dev :=
  let pg := mpPage r p
  let d := d.trainResult r p 0x40 temp 0
  let d := d.event pg 4 0 0x40
  let d := d.setMp r p (fun m => { m with next := some (d.now + 10000000000) })
  let d := d.err pg 0x57 2 0x40 false (d.portDetail r p)
  let d := if d.raMode r = 1 then d.setMode r 3 else d
  let d := d.readmit r
  let d := d.each (d.chansOn r) (fun d c => d.each (rdList (d.chan c).cfg) (fun d rd => d.newSequence c rd))
  d.pgEvalAll

/-- RETRAIN_END (R319, R320): the re-test passes, or the port is lost. -/
def execRetrainEnd (r p : Nat) (pass : Bool) (temp margin t : Nat) (s : State) : Host.Outcome State Fault Refusal :=
  let d := s.dev.advanceTo t
  if d.rd Reg.MP_STATE_STATE (mpPage r p) ≠ 3 ∨ (d.mp r p).panic ≠ [] then .next { s with dev := d }
  else
    let d := d.setMp r p (fun m => { m with since := none })
    let d := if pass then d.trainResult r p (if margin < 4 then 0x02 else 0x03) temp margin else d.portLost r p temp
    .next ((({ s with dev := d } : State).dropLost r p).pumpReads r p)

/-- PORT_RETRAIN_ATTEMPT (R321): a port lost in service tries a full training, each 10 s in NORMAL. -/
def execPortRetrainAttempt (r p : Nat) (o : TrainOutcome) (temp margin t : Nat) (s : State) : Host.Outcome State Fault Refusal :=
  s.onDev (fun d0 =>
    let d := d0.advanceTo t
    if d.active r = false ∨ d.rd Reg.MP_STATE_STATE (mpPage r p) ≠ 4 ∨ d.raMode r ≠ 1 ∨ (d.mp r p).next.all (fun x => decide (d.now < x)) = true then d
    else
      let code := d.trainCode r p o margin true
      let d := if code < 4 then d.portConfig r p else d
      let d := (d.trainResult r p code temp margin).setMp r p (fun m => { m with next := some (d.now + 10000000000) })
      if code < 4 then d.pgEvalAll else d)

/-! ## Injection (R481) -/

/-- A write to an injection register: from the page lock's holder, while the region is in TEST. -/
def Dev.injWrite (d : Dev) (w r page : Nat) (f : Dev → Dev) : Dev :=
  let d := d.expire page
  if d.owns w page && d.raMode r == 2 then d.locked w page f
  else if d.pageAnswers w page then d.ignored page cOpInvalid
  else d

/-- A write of MP_INJ (R481). -/
def Dev.mpInj (d : Dev) (w r p v : Nat) : Dev :=
  let pg := mpPage r p
  d.injWrite w r pg (fun d =>
    let d := (d.wr Reg.MP_INJ_SYMBOLS pg v).wr Reg.MP_INJ_FIRST pg (v / 2 ^ 8)
    if bitOf v 31 then d.wr Reg.MP_INJ_ARM pg 1 else d)

/-- MP_INJ_ARM (R481). -/
def execMpInjArm (w r p v : Nat) (s : State) : Host.Outcome State Fault Refusal :=
  s.onDev (fun d => d.mpInj w (r % 8) (p % 4) v)

/-- A write of RGN_SRAM_INJ (R481). -/
def Dev.sramInj (d : Dev) (w r v : Nat) : Dev :=
  let pg := blk r ixRGN
  d.injWrite w r pg (fun d =>
    let d := (d.wr Reg.RGN_SRAM_INJ_SRAM pg v).wr Reg.RGN_SRAM_INJ_UE pg (v / 2 ^ 8)
    if bitOf v 31 then d.wr Reg.RGN_SRAM_INJ_ARM pg 1 else d)

/-- RGN_SRAM_INJ_ARM (R481). -/
def execRgnSramInjArm (w r v : Nat) (s : State) : Host.Outcome State Fault Refusal :=
  s.onDev (fun d => d.sramInj w (r % 8) v)

end Sys2Proof.Machine
end

