-- ==== Sys2Proof/Machine/Culm.lean ====
section
/-! DEFINITION. The Culm arbiters and the Stolon link arbiters (R288 to R302), and the shadow commits of the pages that have
them (R253, R257 to R259, R299, R301, R324, R348, R367, R395, R396). Target 8 + p of the Culm commands is the link arbiter
of SPORT_p: its requesters are the classes 0 real-time, 1 mirror, 2 coherent control and 3 bulk, and its cycles are beats. -/

namespace Sys2Proof.Machine

/-! ## Arbiters -/

/-- WEIGHT and QUOTA of a requester at a target (R289, R303). -/
def Dev.weightOf (d : Dev) (r t q : Nat) : Nat :=
  if t < 8 then d.rd (fixReset Reg.CU_WQ_WEIGHT (t * 32 + q)) (cuPage r) (t * 32 + q)
  else d.rd (if q = 0 then Reg.ST_WGT_RT else if q = 1 then Reg.ST_WGT_MIR else if q = 2 then Reg.ST_WGT_CTL else Reg.ST_WGT_BULK)
    (blk r ixSTOLON) (t - 8)

/-- The quota of a requester at a target, or of a class on a link (R294, R300). -/
def Dev.quotaOf (d : Dev) (r t q : Nat) : Nat :=
  if t < 8 then (if q < 4 then d.rd (fixReset Reg.CU_WQ_QUOTA (t * 32 + q)) (cuPage r) (t * 32 + q) else 0)
  else if q = 2 then d.rd Reg.ST_ARB_CTL_QUOTA (blk r ixSTOLON) (t - 8) else 0

/-- The grants of an arbiter's period (R291, R300). -/
def Dev.lwPeriod (d : Dev) (r t : Nat) : Nat :=
  if t < 8 then d.rd Reg.CU_ARB_N (cuPage r) t else d.rd Reg.ST_ARB_N (blk r ixSTOLON) (t - 8)

/-- Requesters of a target. -/
def reqCount (t : Nat) : Nat := if t < 8 then 29 else 4

/-- Flits of credit a class holds on a link (R300). -/
def Arb.flitsOf (x : Arb) (q : Nat) : Nat := tget x.flits q 256

/-- Whether a requester is masked (R17, R294, R295, R300). -/
def Dev.maskedAt (d : Dev) (r t q : Nat) : Bool :=
  let x := d.arb r t
  let quota := d.quotaOf r t q
  (quota != 0 && decide (quota ≤ tget x.used q 0)) ||
    (if t < 8 then d.reqMasked r q else decide (x.flitsOf q < 4))

/-- Whether a requester is urgent at a memory target (R314). -/
def Dev.urgent (d : Dev) (r t q : Nat) : Bool := t < 4 && (d.mp r t).panic.contains q

/-- A requester's counter (R291). -/
def Arb.creditOf (x : Arb) (q : Nat) : Int := tget x.credit q 0

/-- The oldest of the listed requests; ties go to the lower requester. -/
def oldestReq (l : List (Nat × Nat × Nat)) : Option (Nat × Nat × Nat) :=
  l.foldl (fun b y => match b with
    | none => some y
    | some z => if y.2.2 < z.2.2 ∨ (y.2.2 = z.2.2 ∧ y.1 < z.1) then some y else some z) none

/-- The best of the listed requests: URGENT first, then the fullest counter, then the lower requester. -/
def Dev.bestReq (d : Dev) (r t : Nat) (l : List (Nat × Nat × Nat)) : Option (Nat × Nat × Nat) :=
  let x := d.arb r t
  let better (y z : Nat × Nat × Nat) : Bool :=
    let u := d.urgent r t y.1
    let v := d.urgent r t z.1
    if u != v then u
    else if x.creditOf y.1 ≠ x.creditOf z.1 then decide (x.creditOf z.1 < x.creditOf y.1)
    else decide (y.1 < z.1)
  l.foldl (fun b y => match b with
    | none => some y
    | some z => if better y z then some y else some z) none

/-- USE of the slot in which a beat of a link falls (R301): slots last 4 ns, 16 beats. -/
def Dev.slotUse (d : Dev) (r t cyc : Nat) : Nat := d.rd Reg.STOLON_SLOT (wSTS r (t - 8)) (cyc / 16 % 1024)

/-- The next owner among the eligible requests, and whether by the longest wait (R292, R300). -/
def Dev.chooseReq (d : Dev) (r t cyc : Nat) (l : List (Nat × Nat × Nat)) : Option ((Nat × Nat × Nat) × Bool) :=
  let use := if t < 8 then 0 else d.slotUse r t cyc
  let rt := l.find? (fun y => y.1 == 0)
  let mir := l.find? (fun y => y.1 == 1)
  let held := if use = 1 then rt else if use = 2 then rt.orElse (fun _ => mir) else none
  match held with
  | some y => some (y, false)
  | none =>
    if (d.arb r t).c + 1 = d.lwPeriod r t then (oldestReq l).map (fun y => (y, true))
    else (d.bestReq r t l).map (fun y => (y, false))

/-- ST_CRD of a link (R303): beats of credit per class. -/
def Dev.syncCrd (d : Dev) (r p : Nat) : Dev :=
  let x := d.arb r (8 + p)
  d.wr Reg.ST_CRD (blk r ixSTOLON) ([0, 1, 2, 3].foldl (fun a q => a + min 255 (x.flitsOf q / 4) * 2 ^ (8 * q)) 0) p

/-- Grants and charges (R291, R294, R300, R303). -/
def Dev.grantReq (d : Dev) (r t cyc : Nat) (y : Nat × Nat × Nat) (lw : Bool) : Dev :=
  let q := y.1
  let beats := if t < 8 then y.2.1 else 1
  let n := d.lwPeriod r t
  let used := tget (d.arb r t).used q 0 + 1
  let d := d.setArb r t (fun x =>
    { x with c := if lw then 0 else min (x.c + 1) (n - 1), credit := tput x.credit q (max (-256) (x.creditOf q - (beats : Int))),
             used := tput x.used q used, reqs := x.reqs.filter (fun z => z.1 != q), owner := some (q, beats, cyc),
             flits := if t < 8 then x.flits else tput x.flits q (x.flitsOf q - 4) })
  let d := d.emit (.culm r t q beats)
  if t < 8 then
    let d := d.incWrap Reg.CU_GRANTS (cuPage r) t
    if lw then d.inc Reg.CU_ARB_LW (cuPage r) t else d
  else
    let st := blk r ixSTOLON
    let d := if lw then d.inc Reg.ST_CNT_LW st (t - 8) else d
    let d := if q = 2 ∧ used = d.quotaOf r t 2 then d.inc Reg.ST_CNT_QMASK st (t - 8) else d
    d.syncCrd r (t - 8)

/-- The target has seen a cycle. -/
def Dev.sawCycle (d : Dev) (r t cyc : Nat) : Dev := d.setArb r t (fun x => { x with seen := max x.seen cyc })

/-- CULM_REQUEST (R288, R290, R292): one request of a requester at a time; a masked block presents none (R295). -/
def execCulmRequest (r tgt q beats cyc : Nat) (s : State) : Host.Outcome State Fault Refusal :=
  s.onDev (fun d =>
    if d.active r = false ∨ 11 ≤ tgt ∨ reqCount tgt ≤ q ∨ beats = 0 ∨ 4 < beats
        ∨ (d.arb r tgt).reqs.any (fun y => y.1 == q) = true ∨ (tgt < 8 ∧ d.reqMasked r q = true) then d
    else (d.setArb r tgt (fun x => { x with reqs := x.reqs ++ [(q, beats, cyc)] })).sawCycle r tgt cyc)

/-- Whether the owner's beats are still to run on a cycle: they follow its grant (R290). -/
def Arb.busy (x : Arb) (cyc : Nat) : Bool :=
  match x.owner with
  | some (_, beats, at_) => decide (cyc < at_ + beats)
  | none => false

/-- The owner's transfer is over: its operation has not failed, and the target is idle. -/
def Arb.idle (x : Arb) : Arb :=
  match x.owner with
  | some (q, _, _) => { x with owner := none, fails := tdel x.fails q }
  | none => x

/-- CULM_GRANT (R288, R290 to R292, R294, R297, R300): on the cycle of the owner's last beat or later, the arbiter chooses among the
requests asserted before. -/
def execCulmGrant (r tgt cyc : Nat) (s : State) : Host.Outcome State Fault Refusal :=
  s.onDev (fun d =>
    if d.active r = false ∨ 11 ≤ tgt ∨ (d.arb r tgt).busy cyc = true then d
    else
      let d := (d.setArb r tgt Arb.idle).sawCycle r tgt cyc
      let l := (d.arb r tgt).reqs.filter (fun y => decide (y.2.2 < cyc) && !(d.maskedAt r tgt y.1))
      match d.chooseReq r tgt cyc l with
      | some (y, lw) => d.grantReq r tgt cyc y lw
      | none => d)

/-- The third failure of one operation is passed to the job that its block has in hand (R15, R16). -/
def Dev.opFails (d : Dev) (r q : Nat) : Dev :=
  match (d.rach r).ents.find? (fun e => match e.2 with
      | .task ds _ (.held i _) _ => (blockReqs (classBlock ds.cls i)).contains q
      | _ => false) with
  | some (idx, _) => d.jobFails r idx false
  | none => d

/-- CULM_REVOKE (R15, R296, R297): a grant without a beat in 64 cycles; its charge stays. The block's cell tries twice again; the third
failure goes to the block. -/
def execCulmRevoke (r tgt cyc : Nat) (s : State) : Host.Outcome State Fault Refusal :=
  s.onDev (fun d =>
    match (d.arb r tgt).owner with
    | some (q, beats, at_) =>
      if d.active r = false ∨ 8 ≤ tgt ∨ cyc < at_ + 64 then d
      else
        let n := tget (d.arb r tgt).fails q 0 + 1
        let again := decide (n ≤ 2)
        let d := d.setArb r tgt (fun x =>
          { x with owner := none, seen := max x.seen cyc, fails := if again then tput x.fails q n else tdel x.fails q,
                   reqs := if again && !(d.reqMasked r q) && !(x.reqs.any (fun y => y.1 == q)) then x.reqs ++ [(q, beats, cyc)] else x.reqs })
        let d := (d.inc Reg.CU_REQ_REVOKE (cuPage r) q).countErr (cuPage r)
        let d := match (List.range 0x34).find? (fun ix => (blockReqs ix).contains q) with
          | some ix => if again then (d.err (blk r ix) 0x54 0 d.freeVal).freeNext else d.opFails r q
          | none => d
        let key := 0x6000 + r
        if d.mayRaise key then (d.markRaised key).event (cuPage r) 0 q tgt else d
    | none => d)

/-- SIDEBAND_MASK (R295, R297): on cycle `cyc` a block's sideband masks it, and its requests are withdrawn at every target, or unmasks
it, and it presents them again. -/
def execSidebandMask (r blk : Nat) (x : SideEdge) (s : State) : Host.Outcome State Fault Refusal :=
  s.onDev (fun d =>
    let qs := blockReqs blk
    let d := d.each qs (fun d q => d.wrB Reg.CU_REQ_SIDEBAND (cuPage r) x.masked q)
    let d := d.each (List.range 8) (fun d t => d.sawCycle r t x.cyc)
    if x.masked then d.maskRise r qs else d.maskFall r qs)

/-- STOLON_CREDIT_RETURN (R300, R303): the receiver drains; a class never holds more than the 256 flits advertised. -/
def execStolonCreditReturn (r p cls flits : Nat) (s : State) : Host.Outcome State Fault Refusal :=
  s.onDev (fun d =>
    if d.active r = false ∨ 3 ≤ p ∨ 4 ≤ cls ∨ noLink r p = true then d
    else (d.setArb r (8 + p) (fun x => { x with flits := tput x.flits cls (min 256 (x.flitsOf cls + flits)) })).syncCrd r p)

/-! ## Commits (R395, R396) -/

/-- Makes the listed keys of a pending set active. -/
def Dev.loadKeys (d : Dev) (vals : Tbl Nat) (which : Nat → Bool) : Dev :=
  d.each (vals.filter (fun e => which e.1)) (fun d e =>
    match (slotsAt (e.1 / 32 / 4 * 4)).find? (fun s => s.row.key s.base s.ix == e.1) with
    | some s => d.wr s.row s.base e.2 s.ix
    | none => d)

/-- Whether a key lies in a range of addresses. -/
def keyIn (lo size k : Nat) : Bool := lo * 32 ≤ k && k < (lo + size) * 32

/-- The kinds of page that have committed fields. -/
inductive ComKind where
  | egress | culm | stolon | memport | lane | refs | none
  deriving DecidableEq, Repr

/-- Which settings of a page have shadows (R395). -/
def comKind (page : Nat) : ComKind :=
  match placeOf page with
  | .chip j => if j = 2 ∨ j = 3 then .refs else .none
  | .block _ ix =>
    if ix = ixEGRESS then .egress else if ix = ixCULM then .culm else if ix = ixSTOLON then .stolon
    else if ixMEMPORT ≤ ix ∧ ix < ixMEMPORT + 4 then .memport else if ixLANE ≤ ix ∧ ix < ixLANE + 16 then .lane else .none
  | _ => .none

/-- Whether a shadow key commits with a page: the page itself, the windows it guards (R253, R258, R301), and for REFSEL and DPLL the other
of the two (R367). -/
def comKey (page k : Nat) : Bool :=
  let r := (regionOf page).getD 0
  keyIn page 0x1000 k
    || (comKind page == .egress && (keyIn (regBase r + 0x010A0000) 0x4400 k || keyIn (regBase r + 0x010C0000) 0x8000 k))
    || (comKind page == .stolon && keyIn (regBase r + 0x010D0000) 0xC00 k)
    || (comKind page == .refs && (keyIn pREFSEL 0x1000 k || keyIn pDPLL 0x1000 k))

/-- The shadows that a commit of a page takes: COMMIT_TB is the commit's own time and stays a shadow (R393, R401). -/
def Dev.comVals (d : Dev) (page : Nat) : Tbl Nat :=
  tkeep (fun k _ => comKey page k && !(isPage (k / 32 / 0x1000 * 0x1000) && keyIn (k / 32 / 0x1000 * 0x1000 + 0x40) 8 k)) d.shadow

/-- Whether a value lies in a range. -/
def inRange (lo hi v : Nat) : Bool := lo ≤ v && v ≤ hi

/-- The checks of R253, R252 and R258 on the state as committed. -/
def Dev.egressCheck (d : Dev) (r : Nat) (vals : Tbl Nat) : Nat :=
  let n := d.loadKeys vals (fun _ => true)
  let lives := d.liveFlows r
  let svs := (lives.map (fun f => d.flF r f Reg.FL_CTRL_SERVICE)).eraseDups
  let moved := svs.any (fun s => n.rd Reg.SV_CTRL_PORT (wSV r s) != d.rd Reg.SV_CTRL_PORT (wSV r s)
    || n.rd Reg.SV_CTRL_RT (wSV r s) != d.rd Reg.SV_CTRL_RT (wSV r s))
  let ports := (List.range 16).filter (d.isEth r)
  let fast := ports.any (fun p => d.lineGb r p * 1000000 < n.rd Reg.SH_PIR (wPT r p))
  let low := svs.any (fun s =>
    let pir := n.rd Reg.SH_PIR (wSV r s)
    let sum := (lives.filter (fun f => d.isRt r f && d.flF r f Reg.FL_CTRL_SERVICE == s)).foldl (fun a f => a + d.flF r f Reg.SH_PIR) 0
    pir != 0 && decide (pir < sum))
  let cyc (p : Nat) : Nat := n.rd Reg.PT_PACE_CYCLE_US (wPT r p)
  let short := ports.any (fun p => cyc p * 1000 * d.lineGb r p < 1582 * 8 * 1024)
  let slots := n.regs.filter (fun e => keyIn (wPACE r 0) 0x8000 e.1)
  let badSlot := slots.any (fun e =>
    let p := (e.1 / 32 - wPACE r 0) / 0x800
    let sv := wSV r (e.2 % 256)
    bitOf e.2 8 && (n.rd Reg.SV_CTRL_RT sv == 0 || n.rd Reg.SV_CTRL_PORT sv != p))
  if (List.range 16).any (fun p => !(inRange 125 10000 (cyc p))) then cOpInvalid
  else if moved then 0x3C else if fast || low then 0x3A else if short || badSlot then 0x3D else 0

/-- The checks of R301 and R303. -/
def Dev.stolonCheck (d : Dev) (r : Nat) (vals : Tbl Nat) : Nat :=
  let n := d.loadKeys vals (fun _ => true)
  let slots (p : Nat) : List (Nat × Nat) := n.regs.filter (fun e => keyIn (wSTS r p) 0x400 e.1)
  if [0, 1, 2].any (fun p => !(inRange 4 64 (n.rd Reg.ST_ARB_N (blk r ixSTOLON) p)) || (slots p).any (fun e => e.2 == 3)) then cOpInvalid
  else if [0, 1, 2].any (fun p => decide (512 < (slots p).length)) then 0x3D else 0

/-- The check of R324. -/
def Dev.memportCheck (d : Dev) (page : Nat) (vals : Tbl Nat) : Nat :=
  let n := d.loadKeys vals (fun _ => true)
  let v (row : Row) (i : Nat) : Nat := n.rd row page i
  if inRange 8 1023 (v Reg.MP_PAGE_IDLE_CLKS 0) && decide (v Reg.MP_WQ_LO 0 < v Reg.MP_WQ_HI 0) && decide (v Reg.MP_WQ_HI 0 ≤ 64)
      && [0, 1, 2, 3].all (fun q => inRange 1 100 (v Reg.MP_PANIC_ON q) && decide (v Reg.MP_PANIC_OFF q < v Reg.MP_PANIC_ON q)) then 0
  else cOpInvalid

/-- The check of R367 on both pages as committed: a field that is undefined or out of range counts in an entry that is not enabled too. -/
def Dev.refCheck (d : Dev) (vals : Tbl Nat) : Nat :=
  let n := d.loadKeys vals (fun _ => true)
  let f (e : Nat) (row : Row) : Nat := n.rd row (pREF e)
  let on := entries.filter (fun e => f e Reg.REF_CTRL_EN == 1)
  let bad := entries.any (fun e =>
    let ty := f e Reg.REF_CTRL_TYPE
    (ty == 0 && f e Reg.REF_CTRL_EN == 1) || decide (4 < ty) || (ty == 1 && decide (3 < f e Reg.REF_CTRL_SRC))
      || f e Reg.REF_CTRL_PIN_KIND == 3 || decide (10 < f e Reg.REF_CTRL_FRAME_RATE))
  let same := on.any (fun e => on.any (fun x => e != x && f e Reg.REF_CTRL_TYPE == f x Reg.REF_CTRL_TYPE
    && f e Reg.REF_CTRL_SRC == f x Reg.REF_CTRL_SRC))
  let g (row : Row) (b : Nat) : Nat := n.rd row b
  let ranges := inRange 10 100000 (g Reg.REFSEL_TOL_FREQ_TOL pREFSEL) && inRange 0 14 (g Reg.REFSEL_CFG_QL_MIN pREFSEL)
    && inRange 1 1000000 (g Reg.DPLL_BW_BW pDPLL) && inRange 0 1000 (g Reg.DPLL_PULLIN_NS_PER_S pDPLL)
    && inRange 10 65535 (g Reg.DPLL_HOLD_AVG_S pDPLL)
  if bad || same || !ranges || decide (11 < g Reg.DPLL_CTRL_FORCE_REF pDPLL) then 0x46 else 0

/-- The code of a commit (R395, R396): its class, its time, then the block's own checks. -/
def Dev.comCheck (d : Dev) (page kind : Nat) (vals : Tbl Nat) : Nat :=
  let r := (regionOf page).getD 0
  let k := comKind page
  let classOk := kind == 0 || kind == 4 || (kind == 3 && (k == .egress || k == .stolon))
  if k == .none || !classOk then cOpInvalid
  else if kind = 4 ∧ d.rdS Reg.COMMIT_TB_LO page + d.rdS Reg.COMMIT_TB_HI page * 2 ^ 32 ≤ d.now then 0x47
  else match k with
  | .egress => d.egressCheck r vals
  | .culm =>
    if (List.range 8).all (fun t => inRange 4 64 (d.rdS Reg.CU_ARB_N page t)) then 0 else cOpInvalid
  | .stolon => d.stolonCheck r vals
  | .memport => d.memportCheck page vals
  | .lane => d.laneCheck r (page % 0x04000000 / 0x1000 - ixLANE)
  | .refs => d.refCheck vals
  | .none => cOpInvalid

/-- A commit is applied in full. -/
def Dev.comDone (d : Dev) (page id : Nat) : Dev :=
  let d := { d with pend := tdel d.pend page }
  let d := (d.wr Reg.COMMIT_RESULT_APPLIED_ID page id).wr Reg.COMMIT_RESULT_PENDING page 0
  d.wr Reg.STATUS_PENDING page 0

/-- Tokens and bursts of the services and ports of a region (R257). -/
def Dev.cutTokens (d : Dev) (r : Nat) : Dev :=
  let cut (base : Nat) (d : Dev) (key : Nat) : Dev :=
    if (tget? d.nodes key).isNone then d
    else d.setNode key (fun n =>
      { n with tc := min n.tc (d.rd Reg.SH_CBS base * 65536), tp := min n.tp ((d.rd Reg.SH_PBS base * 65536 : Nat) : Int) })
  let d := d.each (List.range 256) (fun d s => cut (wSV r s) d (svNode r s))
  d.each (List.range 16) (fun d p => cut (wPT r p) d (ptNode r p))

/-- What the pending set of EGRESS holds for port `p` (R253). -/
def Dev.portKeys (d : Dev) (r p : Nat) (vals : Tbl Nat) (k : Nat) : Bool :=
  keyIn (wPT r p) 0x40 k || keyIn (wPACE r p) 0x800 k ||
    (keyIn (wSV r 0) 0x4000 k &&
      (let s := (k / 32 - wSV r 0) / 0x40
       tget vals (Reg.SV_CTRL_PORT.key (wSV r s) 0) (d.rd Reg.SV_CTRL_PORT (wSV r s)) == p))

/-- The fields of the STOLON page that set the arbiter of SPORT_p, which has a link (R303). -/
def stKey (r p k : Nat) : Bool := !(noLink r p) && keyIn (blk r ixSTOLON + 0x100 + p * 0x20) 0x20 k

/-- What of a pending set waits: the tables for their own wraps (R253, R259, R301), and the settings of the arbiters for their windows,
those of target `t` as number `t` (R299, R303). -/
def comWaits (page kind : Nat) (vals : Tbl Nat) : List Nat :=
  let r := (regionOf page).getD 0
  match comKind page with
  | .egress =>
    if kind = 3 then List.range 16
    else (List.range 16).filter (fun p =>
      vals.any (fun e => keyIn (wPACE r p) 0x800 e.1 || e.1 == Reg.PT_PACE_CYCLE_US.key (wPT r p) 0))
  | .stolon => [0, 1, 2].filter (fun p => vals.any (fun e => keyIn (wSTS r p) 0x400 e.1))
    ++ ([0, 1, 2].filter (fun p => vals.any (fun e => stKey r p e.1))).map (8 + ·)
  | .culm => List.range 8
  | _ => []

/-- The commit point of a pending set: what waits for no wrap becomes active. -/
def Dev.comPoint (d : Dev) (page : Nat) (x : Pend) : Dev :=
  let r := (regionOf page).getD 0
  let d := match comKind page with
    | .egress =>
      if x.kind = 3 then d
      else (d.loadKeys x.vals (fun k => !(keyIn (wPACE r 0) 0x8000 k)
        && !((List.range 16).any (fun p => k == Reg.PT_PACE_CYCLE_US.key (wPT r p) 0)))).cutTokens r
    | .stolon => d.loadKeys x.vals (fun k => keyIn page 0x1000 k && !([0, 1, 2].any (fun p => stKey r p k)))
    | .memport =>
      let p := page % 0x04000000 / 0x1000 - ixMEMPORT
      let d := d.loadKeys x.vals (fun _ => true)
      let d := d.each (d.mp r p).need (fun d y => if (d.mp r p).panic.contains y.1 then d.panicAt r p y.1 y.2 else d)
      d.drainCheck r p
    | .lane => d.laneApply r (page % 0x04000000 / 0x1000 - ixLANE) x.vals
    | .refs => (d.loadKeys x.vals (fun _ => true)).refCommitted d
    | _ => d
  let w := comWaits page x.kind x.vals
  if w.isEmpty then d.comDone page x.id else { d with pend := tput d.pend page { x with waiting := w, kind := if x.kind = 4 then 0 else x.kind } }

/-- The pending set that waits for a TB instant applies once it is reached (R396). -/
def Dev.comDue (d : Dev) (page : Nat) : Dev :=
  match tget? d.pend page with
  | some x => if x.kind = 4 ∧ x.tb ≤ d.now then d.comPoint page x else d
  | none => d

/-- A commit by the lock's holder: kinds 0 IMMEDIATE, 1 FRAME, 2 SLICE, 3 WRAP, 4 TB. A pending set whose instant is reached applies first
(R410). -/
def Dev.commit (d : Dev) (w page kind chan id : Nat) : Dev :=
  d.locked w page (fun d =>
    let d := d.comDue page
    let vals := d.comVals page
    let code := d.comCheck page kind vals
    let d := (d.wr Reg.COMMIT_RESULT_CODE page code).wr Reg.COMMIT_RESULT_ID page id
    if code ≠ 0 then d.event page 30 (id % 256) 0
    else
      let tb := d.rdS Reg.COMMIT_TB_LO page + d.rdS Reg.COMMIT_TB_HI page * 2 ^ 32
      let x : Pend := { id := id % 256, kind := kind, chan := chan, tb := tb, posted := d.now, vals := vals, waiting := [] }
      let d := { d with pend := tput d.pend page x }
      let d := (d.wr Reg.COMMIT_RESULT_PENDING page 1).wr Reg.STATUS_PENDING page 1
      let d := d.event page 30 (id % 256) 0
      if kind = 4 then d else d.comPoint page x)

/-- COMMIT_IMMEDIATE (R253, R299, R303, R313, R324, R348, R367, R395, R396). -/
def execCommitImmediate (w page chan id : Nat) (s : State) : Host.Outcome State Fault Refusal :=
  s.onDev (fun d => d.commit w page 0 chan id)

/-- COMMIT_FRAME (R396): no page accepts this class; it is refused with OP_INVALID. -/
def execCommitFrame (w page chan id : Nat) (s : State) : Host.Outcome State Fault Refusal :=
  s.onDev (fun d => d.commit w page 1 chan id)

/-- COMMIT_SLICE (R396): as COMMIT_FRAME. -/
def execCommitSlice (w page chan id : Nat) (s : State) : Host.Outcome State Fault Refusal :=
  s.onDev (fun d => d.commit w page 2 chan id)

/-- COMMIT_WRAP (R253, R259, R301, R396). -/
def execCommitWrap (w page chan id : Nat) (s : State) : Host.Outcome State Fault Refusal :=
  s.onDev (fun d => d.commit w page 3 chan id)

/-- COMMIT_TB (R396). -/
def execCommitTb (w page chan id : Nat) (s : State) : Host.Outcome State Fault Refusal :=
  s.onDev (fun d => d.commit w page 4 chan id)

/-- COMMIT_TB_APPLY (R396): TB has reached COMMIT_TB. -/
def execCommitTbApply (page t : Nat) (s : State) : Host.Outcome State Fault Refusal :=
  s.onDev (fun d => (d.advanceTo t).comDue page)

/-- One table of a pending set becomes active at its wrap; the last ends the commit. -/
def Dev.comWrap (d : Dev) (page i : Nat) (load : Dev → Pend → Dev) : Dev :=
  match tget? d.pend page with
  | some x =>
    if x.waiting.contains i then
      let d := load d x
      let left := x.waiting.filter (· != i)
      if left.isEmpty then d.comDone page x.id else { d with pend := tput d.pend page { x with waiting := left } }
    else d
  | none => d

/-- Whether the TB is at a wrap of a cycle of `n` ns strictly after a commit's posting (R259). -/
def Dev.wraps (d : Dev) (page n : Nat) : Bool :=
  decide (d.now % max 1 n = 0) && (match tget? d.pend page with
    | some x => decide (x.posted < d.now)
    | none => false)

/-- PACER_WRAP (R253, R257 to R259): a port's cycle ends. -/
def execPacerWrap (r p t : Nat) (s : State) : Host.Outcome State Fault Refusal :=
  s.onDev (fun d0 =>
    let d := d0.advanceTo t
    let page := blk r ixEGRESS
    if d.active r && d.wraps page (d.rd Reg.PT_PACE_CYCLE_US (wPT r p) * 1000) then
      d.comWrap page p (fun d x => (d.loadKeys x.vals (d.portKeys r p x.vals)).cutTokens r)
    else d)

/-- STOLON_WRAP (R259, R301): the cycle of 4,096 ns ends. -/
def execStolonWrap (r p t : Nat) (s : State) : Host.Outcome State Fault Refusal :=
  s.onDev (fun d0 =>
    let d := d0.advanceTo t
    let page := blk r ixSTOLON
    if d.active r && d.wraps page 4096 then
      d.comWrap page p (fun d x =>
        let d := d.loadKeys x.vals (fun k => keyIn (wSTS r p) 0x400 k)
        d.wr Reg.ST_RSV_SLOTS page (d.regs.filter (fun e => keyIn (wSTS r p) 0x400 e.1)).length p)
    else d)

/-- The keys of the CULM page that belong to a target (R298). -/
def cuKey (r t k : Nat) : Bool :=
  k == Reg.CU_ARB_N.key (cuPage r) t || keyIn (cuPage r + 0x200 + t * 0x80) 0x80 k

/-- CULM_WINDOW_START (R291, R294, R297, R299, R300): a waiting commit applies first, then the refill. -/
def execCulmWindowStart (r tgt cyc : Nat) (s : State) : Host.Outcome State Fault Refusal :=
  s.onDev (fun d =>
    if d.active r = false ∨ 11 ≤ tgt ∨ cyc % 256 ≠ 0 then d
    else
      let d := d.sawCycle r tgt cyc
      let page := if tgt < 8 then cuPage r else blk r ixSTOLON
      let due := match tget? d.pend page with
        | some x => x.waiting.contains tgt
        | none => false
      let d := if due then
          let d := d.comWrap page tgt (fun d x => d.loadKeys x.vals (if tgt < 8 then cuKey r tgt else stKey r (tgt - 8)))
          d.setArb r tgt (fun x =>
            { x with c := min x.c (d.lwPeriod r tgt - 1),
                     credit := tmap (fun q v => min v ((2 * d.weightOf r tgt q : Nat) : Int)) x.credit })
        else d
      d.setArb r tgt (fun x =>
        { x with used := [],
                 credit := (List.range (reqCount tgt)).foldl (fun m q =>
                   let w : Int := ((d.weightOf r tgt q : Nat) : Int)
                   let v := min (2 * w) (x.creditOf q + w)
                   if v = 0 then tdel m q else tput m q v) x.credit }))

end Sys2Proof.Machine
end

