-- ==== Sys2Proof/Machine/Sheaf.lean ====
section
/-! DEFINITION. The chip level (R27 to R37, R276, R345, R374, R479): elections, the holder's role and how it moves, heartbeats,
the Awn ring, egress-kill, and the chip-fatal state. -/

namespace Sys2Proof.Machine

/-! ## Egress-kill (R278, R345) -/

/-- An island stops every transmitter of its region: a frame in progress counts as one discard, and every port goes down. -/
def Dev.kill (d : Dev) (r : Nat) : Dev :=
  if (d.region r).killed then d
  else
    let d := if r = 0 then d.llKill else d
    let d := d.setRegion r (fun x => { x with killed := true })
    let d := d.each (List.range 16) (fun d n => d.wr Reg.LN_STAT_KILLED (lanePage (r * 16 + n)) 1)
    let cut := d.busy.filter (fun x => x.1 / 16 == r && decide (d.now < x.2.1))
    let d := d.each cut (fun d x =>
      { (d.inc Reg.FL_STATE_DROP (wFLOW r x.2.2)) with busy := tput d.busy x.1 (d.now, x.2.2) })
    d.lanesNow r

/-- EGRESS_KILL (R278, R345): the island of region `r` receives the command. -/
def execEgressKill (r : Nat) (s : State) : Host.Outcome State Fault Refusal :=
  s.onDev (fun d => if (d.island r).aon then d.kill r else d)

/-! ## Elections (R29 to R35) -/

/-- An island that is healthy but for reachability. -/
def Dev.ownHealth (d : Dev) (i : Nat) : Bool := (d.island i).aon && (d.island i).verified && !(d.island i).ue

/-- The healthy islands in the view of `obs` (R29). -/
def Dev.healthSet (d : Dev) (obs : Nat) : List Nat := regions.filter (d.healthy obs)

/-- ELECT.HEALTHY and REACH_AWN in the holder's view (R35). -/
def Dev.syncElect (d : Dev) : Dev :=
  let sum (p : Nat → Bool) : Nat := regions.foldl (fun a i => a + b2n (p i) * 2 ^ i) 0
  let d := d.wr Reg.ELECT_HEALTHY pSHM (sum (d.healthy d.holder))
  d.wr Reg.ELECT_REACH_AWN pSHM (sum (fun i => i == d.holder || !(d.sys.reachLost.contains (reachKey d.holder i 0))))

/-- SHM.ELECT as a word. -/
def Dev.electWord (d : Dev) : Nat :=
  d.rd Reg.ELECT_HOLDER pSHM + d.rd Reg.ELECT_SHADOW pSHM * 2 ^ 4 + d.rd Reg.ELECT_SHADOW_VALID pSHM * 2 ^ 7
    + d.rd Reg.ELECT_HEALTHY pSHM * 2 ^ 8 + d.rd Reg.ELECT_REACH_AWN pSHM * 2 ^ 16 + d.rd Reg.ELECT_ELECT_COUNT pSHM * 2 ^ 24

/-- The outcome of an election (R30, R34, R35): the new holder goes on from its own timebase at the rate in force, and with a
scheduled adjustment; what was left of its offset from the old master is no longer slewed. -/
def Dev.setRole (d : Dev) (h : Nat) (sh : Option Nat) : Dev :=
  let old := d.holder
  let oldSh := (d.rd Reg.ELECT_SHADOW pSHM, d.rd Reg.ELECT_SHADOW_VALID pSHM)
  let first := !d.sys.elected
  let inc := d.tbInc
  let pend := d.rd Reg.TB_ADJ_PENDING (blk old ixTIMEBASE)
  let d := d.wr Reg.ELECT_HOLDER pSHM h
  let d := { d with tbs := tmod d.tbs h ⟨0, 0⟩ (fun x => { x with ofs := 0 }) }
  let d := if h = old then d
    else
      let d := d.wrPair Reg.TB_INC_LO Reg.TB_INC_HI (blk h ixTIMEBASE) inc
      (d.wr Reg.TB_ADJ_PENDING (blk old ixTIMEBASE) 0).wr Reg.TB_ADJ_PENDING (blk h ixTIMEBASE) pend
  let d := (d.wr Reg.ELECT_SHADOW pSHM (sh.getD oldSh.1)).wrB Reg.ELECT_SHADOW_VALID pSHM sh.isSome
  let por := first && d.rd Reg.RST_INFO_LAST pSHM == 0
  let d := if por then d.wr Reg.ELECT_ELECT_COUNT pSHM 1 else d.incWrap Reg.ELECT_ELECT_COUNT pSHM
  let d := { d with sys := { d.sys with elected := true, electAt := none, firstElect := d.sys.firstElect.orElse (fun _ => some d.now) } }
  let d := d.syncElect
  let moved := h != old || (d.rd Reg.ELECT_SHADOW pSHM, d.rd Reg.ELECT_SHADOW_VALID pSHM) != oldSh
  let d := if first || moved then d.event pSHM 0 d.electWord 0 else d
  if sh.isNone then d.event pSHM 1 0 0 else d

/-- A chip-fatal error (R479): egress-kill everywhere, and every channel stops with no further packet. -/
def Dev.chipFatal (d : Dev) : Dev :=
  if d.sys.chipFatal then d
  else
    let d := { d with sys := { d.sys with chipFatal := true } }
    let d := d.each regions (fun d r => (d.emit (.kill d.holder r false)).kill r)
    d.each d.liveChans Dev.loseChan

/-- A region core starts its firmware: in BOOT dispatch, with its lanes' settings and its links trained (R239, R300, R342). -/
def Dev.coreUp (d : Dev) (r : Nat) : Dev :=
  let d := d.setRegion r (fun x => { x with core := .run, ready := false })
  let d := { d with arbs := tkeep (fun k _ => !(k / 16 == r && 8 ≤ k % 16)
    && !(regions.any (fun x => (linkOf r x).isSome && k == x * 16 + 8 + sportOf x r))) d.arbs }
  let d := ((d.lanesNow r).stolonTables).pgEvalAll
  if r < 2 then d.signalPending r (List.range 64) else d

/-- Whether a verified region core may start its firmware (R6, R31, R449). -/
def Dev.mayStart (d : Dev) (r : Nat) : Bool :=
  (d.region r).ready && d.sys.mediaOk && d.sys.mode != 3 && !(d.region r).held && (d.region r).core != .off

/-- The media firmware that waited for the election of this reset starts (R31). -/
def Dev.startMedia (d : Dev) : Dev :=
  ({ d with sys := { d.sys with mediaOk := true } } : Dev).each regions (fun d r => d.when (d.mayStart r) (fun d => d.coreUp r))

/-- Runs the election in the view of `obs` (R30), after which media firmware may start (R31); chip-fatal where no island can take
the role. -/
def Dev.elect (d : Dev) (obs : Nat) : Dev :=
  match d.healthSet obs with
  | [] => d.chipFatal
  | h :: rest => (d.setRole h rest.head?).startMedia

/-- The island that runs an election: the holder while it is healthy, else the lowest-numbered healthy one. -/
def Dev.elector (d : Dev) : Nat :=
  if d.sys.elected && d.ownHealth d.holder then d.holder else (regions.find? d.ownHealth).getD d.holder

/-- ELECTION (R30, R31, R35): after a POR, PIN or WARM reset, and after the loss of a region. -/
def execElection (t : Nat) (s : State) : Host.Outcome State Fault Refusal :=
  s.onDev (fun d0 =>
    let d := d0.advanceTo t
    if d.sys.chipFatal = true ∨ (d.sys.elected = true ∧ d.sys.electAt = none) then d else d.elect d.elector)

/-- An election falls due (R31). -/
def Dev.electDue (d : Dev) : Dev := { d with sys := { d.sys with electAt := some d.now } }

/-- Whether `x` has missed the heartbeats of `i` on both paths (R32). -/
def Dev.missed (d : Dev) (x i : Nat) : Bool := x != i && !(d.reachable x i)

/-- HOLDER_LOST (R32 to R35): the shadow takes the role, or, where the shadow is lost with the holder, the lowest-numbered
healthy island that has declared both losses. -/
def execHolderLost (fatal : Bool) (t : Nat) (s : State) : Host.Outcome State Fault Refusal :=
  s.onDev (fun d0 =>
    let d := d0.advanceTo t
    let h := d.holder
    let sh := d.rd Reg.ELECT_SHADOW pSHM
    let shOk := d.rd Reg.ELECT_SHADOW_VALID pSHM == 1 && d.ownHealth sh
    let gone (x : Nat) : Bool := (fatal && (d.island h).fatal) || !(d.ownHealth h) || d.missed x h
    let next : Option Nat :=
      if shOk && gone sh then some sh
      else if shOk && !(regions.any (fun x => x != h && x != sh && d.missed x sh)) then none
      else regions.find? (fun x => x != h && d.ownHealth x && gone x && (!shOk || d.missed x sh)
        && (d.healthSet x).all (fun y => x ≤ y || y == h))
    match next with
    | some n => d.setRole n ((d.healthSet n).find? (fun y => n < y))
    | none => if regions.any (fun x => x != h && d.ownHealth x) || d.ownHealth h then d else d.chipFatal)

/-- ISLAND_UE (R29, R31, R479): an island's store yields an uncorrectable word; the island becomes unhealthy and the election
runs again. -/
def execIslandUe (i t : Nat) (s : State) : Host.Outcome State Fault Refusal :=
  s.onDev (fun d0 =>
    let d := d0.advanceTo t
    if 8 ≤ i then d
    else
      let d := d.setIsland i (fun x => { x with ue := true })
      if regions.any d.ownHealth then (d.err pSHM 0x5C 2 i).elect d.elector
      else (d.err pSHM 0x5C 4 i).chipFatal)

/-! ## The Awn ring (R27) -/

/-- The islands in ring order. -/
def ringOrder : List Nat := [0, 1, 2, 3, 7, 6, 5, 4]

/-- The place of a region in the Awn ring (R27). -/
def ringPos (i : Nat) : Nat := (ringOrder.findIdx? (· == i)).getD 0

/-- The segment from ring position `n` to the next joins two islands. -/
def segmentOf (a b : Nat) : Option Nat :=
  let x := ringPos a
  let y := ringPos b
  if 8 ≤ a ∨ 8 ≤ b then none
  else if (x + 1) % 8 = y then some x else if (y + 1) % 8 = x then some y else none

/-- Whether a message from `a` reaches `b` in either direction of the ring. -/
def Dev.awnJoined (d : Dev) (a b : Nat) : Bool :=
  let x := ringPos a
  let y := ringPos b
  let arc (from_ to_ : Nat) : List Nat := (List.range ((to_ + 8 - from_) % 8)).map (fun i => (from_ + i) % 8)
  (arc x y).all (fun n => !(d.sys.awnBroken.contains n)) || (arc y x).all (fun n => !(d.sys.awnBroken.contains n))

/-- The islands that island `i` can reach over the ring, one bit each. -/
def Dev.ringMask (d : Dev) (i : Nat) : Nat := regions.foldl (fun a j => a + b2n (j == i || d.awnJoined i j) * 2 ^ j) 0

/-- In a partitioned ring each island reports which islands it can still reach (R27). -/
def Dev.reportReach (d : Dev) : Dev :=
  d.when (2 ≤ d.sys.awnBroken.length) (fun d =>
    d.each (regions.filter (fun i => (d.island i).aon)) (fun d i => d.emit (.awnReach i (d.ringMask i))))

/-- AWN_SEGMENT (R27): raised on the AWN page of the lower-numbered island at the break; a second break partitions the ring. -/
def execAwnSegment (a b : Nat) (s : State) : Host.Outcome State Fault Refusal :=
  s.onDev (fun d =>
    match segmentOf a b with
    | none => d
    | some n =>
      if d.sys.awnBroken.contains n then d
      else
        let d := { d with sys := { d.sys with awnBroken := n :: d.sys.awnBroken } }
        (d.event (blk (min a b) ixAWN) 0 (min a b + max a b * 256) 0).reportReach)

/-! ## Heartbeats (R28, R37, R374) -/

/-- The Stolon ports that a region has (R20). -/
def sports (r : Nat) : List Nat := (if r % 4 = 0 then [] else [0]) ++ (if r % 4 = 3 then [] else [1]) ++ [2]

/-- AWN_HEARTBEAT_SEND (R28, R374): on Awn, and on each Stolon port while the region is active; the holder's carry the master's
timebase and TB_INC. -/
def execAwnHeartbeatSend (i t : Nat) (s : State) : Host.Outcome State Fault Refusal :=
  s.onDev (fun d0 =>
    let d := d0.advanceTo t
    if 8 ≤ i ∨ (d.island i).aon = false then d
    else
      let tb := if i = d.holder then (d.tb i).cnt / 2 ^ 16 else 0
      let inc := if i = d.holder then d.tbInc else 0
      let d := { d with sys := { d.sys with beats := tput d.sys.beats i ((d.tb i).cnt / 2 ^ 16) } }
      let d := d.emit (.beat i .awn 0 tb inc)
      if d.active i then d.each (sports i) (fun d p => d.emit (.beat i .stolon p tb inc)) else d)

/-- A slave's offset from the master in 2^-32 ns, as a beat of the master shows it (R374): its own count less the beat's value and
half the sum of the ring's delays. -/
def Dev.beatOfs (d : Dev) (r tb : Nat) (ringPs : Nat × Nat) : Int :=
  ((d.tb r).cnt : Int) - ((tb * 2 ^ 16 + (ringPs.1 + ringPs.2) * 2 ^ 32 / 2000 : Nat) : Int)

/-- The correction of a slave (R37, R374): the offset that an Awn heartbeat shows is slewed as time passes, or stepped at once where
the region carries no channel. -/
def Dev.slaveBeat (d : Dev) (r : Nat) (ofs : Int) : Dev :=
  let b := blk r ixTIMEBASE
  let d := d.wrI Reg.TB_OFS_MASTER b (floorDiv (ofs * 1000) (2 ^ 32))
  let d := if 2 * 2 ^ 32 < ofs.natAbs then d.event b 0 r (unsignedOf 32 (floorDiv ofs (2 ^ 32))) else d
  { d with tbs := tmod d.tbs r ⟨0, 0⟩ (fun x =>
      if (d.chansOn r).isEmpty then ⟨addInt x.cnt (-ofs), 0⟩ else { x with ofs := ofs }) }

/-- The witness of a group (R276). -/
def Dev.inGroup (d : Dev) (n r : Nat) : Bool := d.pgMode n != 0 && (d.pgActs n ++ [d.pgStby n]).contains r

/-- The witness of a group (R276). -/
def Dev.witness (d : Dev) (n : Nat) : Nat :=
  let h := d.holder
  let sh := d.rd Reg.ELECT_SHADOW pSHM
  if !(d.inGroup n h) then h
  else if d.rd Reg.ELECT_SHADOW_VALID pSHM == 1 && !(d.inGroup n sh) then sh
  else (regions.find? (fun i => d.healthy h i && !(d.inGroup n i))).getD h

/-- A beat from an active region to the witness cancels its declaration while the token is not granted (R277): the region no longer counts as
failed. -/
def Dev.beatCancels (d : Dev) (obs src : Nat) : Dev :=
  match d.slotOf src with
  | some x =>
    if d.witness x.1 = obs ∧ (d.pg x.1 x.2).declared.any (fun y => y.1 == 1) = true then
      (d.setPg x.1 x.2 (fun y => { y with declared := none })).setRegion src (fun y => { y with failedAt := none })
    else d
  | none => d

/-- AWN_HEARTBEAT_RX (R28, R37, R277, R374): over Awn where the ring joins the two islands, over Stolon where both regions are active
and a route joins them. -/
def execAwnHeartbeatRx (obs src : Nat) (path : Path) (ringPs : Nat × Nat) (t : Nat) (s : State) : Host.Outcome State Fault Refusal :=
  s.onDev (fun d0 =>
    let d := d0.advanceTo t
    let can : Bool := match path with
      | .awn => d.awnJoined src obs
      | .stolon => d.active src && d.active obs && (d.route src obs).isSome
    if 8 ≤ obs ∨ 8 ≤ src ∨ obs = src ∨ (d.island src).aon = false ∨ (d.island obs).aon = false ∨ can = false then d
    else
      let key := reachKey obs src (pathNum path)
      let d := { d with sys := { d.sys with heard := tput d.sys.heard key d.now, reachLost := d.sys.reachLost.filter (· != key) } }
      let d := match tget? d.sys.beats src with
        | some tb => if src = d.holder ∧ path = Path.awn then d.slaveBeat obs (d.beatOfs obs tb ringPs) else d
        | none => d
      let d := d.beatCancels obs src
      (if obs = d.holder then d.syncElect else d).pgEvalAll)

end Sys2Proof.Machine
end

