-- ==== Sys2Proof/Machine/Protection.lean ====
section
/-! DEFINITION. Protection groups (R264 to R287): configuration, the records a standby holds, failures, take-over, and the
return of a region. -/

namespace Sys2Proof.Machine

/-! ## Configuration (R264, R265) -/

/-- Crossings of the mirror route between two regions (R21, R22). -/
def hopCount (a b : Nat) : Nat := (routeH a b).length

/-- Whether the regions of a configuration are valid (R265). -/
def Dev.pgValid (d : Dev) (n mode a b s hold : Nat) : Bool :=
  let acts := if mode = 0 then [] else if mode = 1 then [a] else [a, b]
  let all := if mode = 0 then [] else acts ++ [s]
  mode != 3 && hold != 0 && decide (all.eraseDups.length = all.length)
    && all.all (fun r => groups.all (fun m => m == n || !(d.inGroup m r)))
    && acts.all (fun x => hopCount x s ≤ 2)

/-- RESULT of the last PG_CFG or PG_CMD of a group. -/
def Dev.pgResult (d : Dev) (n code : Nat) : Dev := d.wr Reg.PG_STATUS_RESULT pSHM code n

/-- An accepted configuration: the slots start over (R265, R273). -/
def Dev.pgAccept (d : Dev) (n v : Nat) : Dev :=
  let d := ((d.wr Reg.PG_CFG_MODE pSHM v n).wr Reg.PG_CFG_ACT_A pSHM (v / 2 ^ 4) n).wr Reg.PG_CFG_ACT_B pSHM (v / 2 ^ 8) n
  let d := (d.wr Reg.PG_CFG_STBY pSHM (v / 2 ^ 12) n).wr Reg.PG_CFG_HOLDOFF_S pSHM (v / 2 ^ 16) n
  let d := (d.wr Reg.PG_STATUS_HOLD_A pSHM 0 n).wr Reg.PG_STATUS_HOLD_B pSHM 0 n
  let d := d.each [0, 1] (fun d slot =>
    let d := (d.wrNotReady n slot 0).setPg n slot (fun _ => PgSlot.init)
    match (d.pgActs n)[slot]? with
    | some a => (d.setServer n slot a).setPgState n slot 1
    | none => (d.setServer n slot 0).setPgState n slot 0)
  d.stolonTables.pgEvalAll

/-- PG_CFG_WRITE (R264, R265): the checks in order; a refused write changes nothing but RESULT. -/
def Dev.pgCfg (d : Dev) (w n v : Nat) : Dev :=
  if 4 ≤ n then d
  else d.locked w pSHM (fun d =>
    let mode := v % 4
    let a := bitsOf v 4 3
    let b := bitsOf v 8 3
    let s := bitsOf v 12 3
    let hold := bitsOf v 16 8
    let named := if mode = 0 then [] else if mode = 1 then [a, s] else [a, b, s]
    let old := if d.pgMode n = 0 then [] else d.pgActs n ++ [d.pgStby n]
    let rd (row : Row) : Nat := d.rd row pSHM n
    let holdOnly : Bool := rd Reg.PG_CFG_MODE == mode && rd Reg.PG_CFG_ACT_A == a && rd Reg.PG_CFG_ACT_B == b && rd Reg.PG_CFG_STBY == s
    if d.pgValid n mode a b s hold = false then d.pgResult n 0x3E
    else if d.sys.mode ≠ 0 ∧ named.contains 0 = true then d.pgResult n 0x09
    else if holdOnly then (d.wr Reg.PG_CFG_HOLDOFF_S pSHM hold n).pgResult n 0
    else if (old ++ named).any (fun r => !((d.chansOn r).isEmpty)) then d.pgResult n 0x3F
    else (d.pgAccept n v).pgResult n 0)

/-- PG_CFG_WRITE (R264, R265). -/
def execPgCfgWrite (w n v : Nat) (s : State) : Host.Outcome State Fault Refusal := s.onDev (fun d => d.pgCfg w n v)

/-! ## Records in the standby (R270, R271, R224) -/

/-- MIRROR_COMMIT (R189, R224, R270, R271): the commit word follows the acknowledged body; a body that arrived poisoned fails its
CRC. -/
def execMirrorCommit (c rd seq : Nat) (poisoned : Bool) (s : State) : Host.Outcome State Fault Refusal :=
  s.onDev (fun d =>
    let m := tget d.mirs (c * 8 + rd) Mirror.init
    match if seq % 2 = 0 then m.rec0 else m.rec1 with
    | none => d
    | some x =>
      if d.live c = false ∨ x.seq ≠ seq ∨ x.ok = true then d
      else
        let x := { x with ok := !poisoned }
        let d := { d with mirs := tput d.mirs (c * 8 + rd) (if seq % 2 = 0 then { m with rec0 := some x } else { m with rec1 := some x }) }
        let r := d.lead c
        let d := ((d.incWrap Reg.MR_CNT (blk r ixMIRROR)).emit (.mirrorWrite c rd seq 0x98 ((x.bytes c rd).drop 0x98))).emit
          (.mirror c rd seq (!poisoned))
        match (d.rend c rd).dus.find? (fun u => u.i == seq) with
        | some u => d.sendToken r 0x0C c rd u.j u.k seq 0
        | none => d)

/-- UNIT_ARRIVED (R193, R224): the last byte of a tracked unit has reached the standby region; `row` is its tick slice. -/
def execUnitArrived (r c rd row bytes : Nat) (s : State) : Host.Outcome State Fault Refusal :=
  s.onDev (fun d =>
    if d.live c = false ∨ d.active r = false ∨ (d.tracked r).contains c = false then d
    else match (tget d.mirs (c * 8 + rd) Mirror.init).dus.reverse.find? (fun u => u.j == row) with
    | some u =>
      let d := { d with mirs := tmod d.mirs (c * 8 + rd) Mirror.init (fun m => { m with got := if m.got.contains u.i then m.got else m.got ++ [u.i] }) }
      d.releaseUnit r 0x09 c rd row u.k bytes
    | none => d)

/-! ## A channel moves between the regions of a group (R269, R280, R285) -/

/-- A flow or a service's registers in another region. -/
def Dev.copyRows (d : Dev) (rows : List Row) (from_ to_ : Nat) : Dev :=
  d.each (rows.flatMap (fun row => (List.range (max 1 row.count)).map (fun i => (row, i)))) (fun d x =>
    let v := d.rd x.1 from_ x.2
    let d := d.wr x.1 to_ v x.2
    { d with regs := tdel d.regs (x.1.key from_ x.2) })

/-- PT_MAC, PT_IPV4 and PT_IPV6 of a port. -/
def Dev.portAddr (d : Dev) (r p : Nat) : Nat × Nat × Nat :=
  let b := wPT r p
  (d.rd Reg.PT_MAC_LO b + d.rd Reg.PT_MAC_HI b * 2 ^ 32, d.rd Reg.PT_IPV4 b,
    (List.range 4).foldl (fun a i => a + d.rd Reg.PT_IPV6 b i * 2 ^ (32 * i)) 0)

/-- One flow moves with its ID, generation, rank and addresses (R269); it sends on the port with the same local number. -/
def Dev.moveFlow (d : Dev) (from_ to_ f : Nat) (home keep : Bool) : Dev :=
  let x := d.flow from_ f
  let p := d.flF from_ f Reg.FL_CTRL_PORT
  let addr := if home then none else some (x.addr.getD (d.portAddr from_ p))
  let d := d.copyRows (Reg.rows_flow ++ Reg.rows_shaper) (wFLOW from_ f) (wFLOW to_ f)
  let y : Flow := { x with addr := addr, port := p, prank := x.rank, back := none, resume := 0, queue := if keep then x.queue else [] }
  let d := { d with flows := tput (tdel d.flows (slotKey from_ f)) (slotKey to_ f) y }
  (d.setFlState to_ f (if d.pUp to_ p then 1 else 2)).syncOfs to_ f

/-- The flows and services of a channel move (R269). -/
def Dev.moveFlows (d : Dev) (c from_ to_ : Nat) (home keep : Bool) : Dev :=
  let fs := (d.liveFlows from_).filter (fun f => d.flowCh from_ f c)
  let svs := (fs.map (fun f => d.flF from_ f Reg.FL_CTRL_SERVICE)).eraseDups
  let d := d.each svs (fun d sv =>
    let n := d.node (svNode from_ sv)
    { (d.copyRows (Reg.rows_service ++ Reg.rows_shaper) (wSV from_ sv) (wSV to_ sv)) with
      nodes := tput (tdel d.nodes (svNode from_ sv)) (svNode to_ sv) n })
  d.each fs (fun d f => d.moveFlow from_ to_ f home keep)

/-- The streams of a channel when it moves (R280, R285): tracking in the region that takes it becomes confidence decoding; the
region left tracks with bit-exact references where it goes on. -/
def Dev.moveStreams (d : Dev) (c from_ to_ : Nat) (exact : Bool) : Dev :=
  let g := (d.chan c).cfg
  let d := d.each (rdList g) (fun d rd =>
    let slot := c * 8 + rd
    match tget? d.strms (slotKey to_ slot) with
    | some x =>
      { (d.wr Reg.DS_STATE_USE (wDS to_ slot) 0) with strms := tput d.strms (slotKey to_ slot) { x with use := 0 } }
    | none => d)
  let d := d.dropStreams from_ c
  let d := if exact then
      let d := d.track from_ c
      d.each (rdList g) (fun d rd =>
        { d with slots := tmod d.slots (slotKey from_ (c * 8 + rd)) DecSlot.init (fun y =>
            { y with clean := refreshCycle g rd * fields g, started := true }) })
    else d
  (d.syncDe from_).syncDe to_

/-- A channel is carried by another region from now on. -/
def Dev.setLead (d : Dev) (c to_ : Nat) : Dev := d.setChan c (fun x => { x with regions := [to_], handTo := none, sbyK := none })

/-! ## Take-over (R280 to R283) -/

/-- The valid record of a rendition that R280 names for resume slice `m`. -/
def Dev.recordFor (d : Dev) (c rd m : Nat) : Option MirRec :=
  let x := tget d.mirs (c * 8 + rd) Mirror.init
  let ok := (x.rec0.toList ++ x.rec1.toList).filter (fun y => y.ok && y.gen == d.chGen c && y.seq ≤ m)
  ok.foldl (fun b y => match b with
    | none => some y
    | some z => if z.seq < y.seq then some y else some z) none

/-- Records that a take-over finds invalid (R287). -/
def Dev.badRecords (d : Dev) (c rd : Nat) : Nat :=
  let x := tget d.mirs (c * 8 + rd) Mirror.init
  ((x.rec0.toList ++ x.rec1.toList).filter (fun y => !(y.ok && y.gen == d.chGen c))).length

/-- Whether the taker need not code slice `i` (R280): it is emitted, or a complete copy of it has arrived. -/
def Mirror.holds (y : Mirror) (m i : Nat) : Bool := decide (i < m) || y.got.contains i

/-- The first tick slice of the model unit of slice `i` (R163). -/
def unitStart (g : Tbl Nat) (rd i : Nat) : Nat := if duUnits g rd then i else i / picSlices g * picSlices g

/-- The slices from `base` on as the taker knows them: those it holds with their bits, the others to be coded; `deep` is LEVEL_PREV. -/
def Dev.takenOpens (d : Dev) (c rd base deep : Nat) : List Open :=
  let ch := d.chan c
  let x := d.rend c rd
  let y := tget d.mirs (c * 8 + rd) Mirror.init
  (List.range (x.i - base)).map (fun n =>
    let i := base + n
    let s := slot4 ch.cfg rd x (stopFor ch x) i
    let du := (y.dus ++ x.dus).find? (fun u => u.i == i)
    let o : Open := (x.opens.find? (fun o => o.i == i)).getD
      { i := i, k := s.k, j := s.j, grant := 0, qp := 0, nv := 0,
        nonVcl := ((du.map (·.nals)).getD []).filter (fun v => match v.1 with
          | .slice _ => false
          | .filler => false
          | .eob => false
          | _ => true),
        rows := [], deep := 0, heads := none, bits := none, alf := [] }
    if y.holds x.sent i then { o with bits := o.bits.orElse (fun _ => du.map (·.bits)), deep := deep }
    else { o with nv := 8 * sumL (o.nonVcl.map (·.2)) + eobBits ch.cfg rd x (stopFor ch x) s, rows := [], deep := 0, heads := none, bits := none })

/-- What is gathered of the pictures of slices to be coded again starts over without them. -/
def accsWithout (g : Tbl Nat) (x : Rend) (todo : List Open) : Tbl PicAcc :=
  ((todo.map (fun o => o.i / picSlices g)).eraseDups).foldl (fun m key =>
    let mine := todo.filter (fun o => o.i / picSlices g == key)
    let old := mine.filterMap (fun o => x.opens.find? (fun y => y.i == o.i))
    let done := sumL (old.map (fun o => b2n o.bits.isSome))
    tmod m key { PicAcc.init ((mine.head?.map (·.k)).getD 0) false with slices := picSlices g - (mine.length - old.length) } (fun a =>
      { a with meas := [(0, 0, 0), (0, 0, 0), (0, 0, 0)], qpSum := 0, qpN := 0, sse := 0, ctus := [], mvs := [],
               slices := a.slices - done, bits := a.bits - sumL (old.map (fun o => o.bits.getD 0)),
               granted := a.granted - sumL (old.map (·.grant)) })) x.accs

/-- The rate state that the taker takes from a record, rolled forward through the copies (R189, R280): t_af from the start of the record's
unit, the drift, θ, C_fc, carry, QI and LEVEL_PREV; what the slices held have settled since stands as they settled it. Each ĉ starts over
(R73). -/
def Dev.fromRecord (d : Dev) (c rd : Nat) (y : MirRec) : Dev :=
  let ch := d.chan c
  let g := ch.cfg
  let x := d.rend c rd
  let mir := tget d.mirs (c * 8 + rd) Mirror.init
  let ps := picSlices g
  let f (n : Nat) : Int := y.fields.getD n 0
  let base := unitStart g rd y.seq
  let opens := d.takenOpens c rd base (f 14).toNat
  let todo := opens.filter (fun o => o.bits.isNone)
  let whole (key : Nat) : Bool := (List.range ps).all (fun n => mir.holds x.sent (key * ps + n) && decide (key * ps + n < x.i))
  let ends := ((List.range (x.i - y.seq)).map (· + y.seq)).filter (fun i => (i + 1) % ps == 0 && mir.holds x.sent i)
  let closed := ends.any (fun i => whole (i / ps))
  let t0 : Int := ((d.departAt c x.firstK x.firstK 0 0 : Nat) : Int)
  let e : Int := f 7 + ((rSig g rd * y.seq * (period g).1 / ((period g).2 * slices g) : Nat) : Int)
    - ((sumL ((opens.filter (fun o => o.i < y.seq)).map (fun o => o.bits.getD 0)) : Nat) : Int)
  let w := wRCS c rd
  let d := if closed then d else d.each [0, 1, 2] (fun d th => d.wr (thetaRow th) w (f (8 + th)).toNat)
  let d := d.wr Reg.RCS_QP_QI w (f 13).toNat
  d.setRend c rd (fun x =>
    { x with taf := floorDiv ((f 6 - t0) * ((rSig g rd * ledgerDen g rd : Nat) : Int)) 1000000000,
             eBits := if cfR g rd Reg.RC_CTRL_MODE = 0 then e.toNat else x.eBits, doneI := base, opens := opens,
             v := if closed then x.v else if cfR g rd Reg.RC_CTRL_MODE = 2 then f 7 else x.v,
             cfc := if ends.isEmpty then (if f 11 = 0 then none else some (f 11).toNat) else x.cfc,
             carry := (f 12).toNat, deep := (f 14).toNat, cyc := [], accs := accsWithout g x todo })

/-- Without a valid record the taker goes on from what was settled (log entry 170). -/
def Dev.withoutRecord (d : Dev) (c rd : Nat) : Dev :=
  let x := d.rend c rd
  let g := (d.chan c).cfg
  let base := min x.doneI (unitStart g rd x.sent)
  let opens := d.takenOpens c rd base 0
  d.setRend c rd (fun x =>
    { x with doneI := base, opens := opens, cyc := [], accs := accsWithout g x (opens.filter (fun o => o.bits.isNone)) })

/-- The taker grants a slice that it codes, from its own ledger (R280), and sends its rows' budgets in its region. -/
def Dev.regrant (d : Dev) (c rd s i : Nat) : Dev :=
  let ch := d.chan c
  let g := ch.cfg
  let x := d.rend c rd
  match x.opens.find? (fun o => o.i == i) with
  | none => d
  | some o =>
    let z := slot4 g rd x (stopFor ch x) i
    let gr := d.grantOf c rd { x with opens := x.opens.filter (fun y => y.i < i) } z o.nv
    let key := i / picSlices g
    let d := d.setRend c rd (fun x =>
      { x with opens := x.opens.map (fun y => if y.i = i then
                 { y with grant := gr.g, qp := gr.qp, rows := gr.rows.map (fun p => ⟨p.1, p.2, false, none, p.2⟩) } else y),
               accs := tmod x.accs key (PicAcc.init z.k z.bottom) (fun a =>
                 { a with granted := a.granted + gr.g, type := d.typeAt c rd x z, poc := pocOf g rd x z.k (b2n z.bottom) }) })
    d.each gr.rows (fun d p => d.sendToken s 0x04 c rd p.1 z.k p.2 gr.qp)

/-- The next sequence number and continuity counter of slice `m` from a record (R281), rolled through the packets of the slices after it. -/
def Rend.rollSeq (x : Rend) (y : MirRec) (m : Nat) : Nat × Nat :=
  match x.dus.find? (fun u => u.i == m && u.pkts.isSome) with
  | some u => if y.seq = m then ((y.fields.getD 17 0).toNat, (y.fields.getD 20 0).toNat) else (u.seq0, u.cc)
  | none =>
    let sent := (x.dus.filter (fun u => y.seq ≤ u.i && u.i < m)).map (fun u => ((u.pkts.getD []).length))
    (((y.fields.getD 17 0).toNat + sumL sent) % 65536, (y.fields.getD 20 0).toNat)

/-- The region that takes a rendition resumes it (R280 to R282): the slices of which it holds complete copies are sent again from slice m,
numbered from FIRST_SEQ + MAX_PKTS_PER_SLICE, and it codes the others itself, from the state that its record gives; a channel that is not
READY codes the rest of the picture as minimal CTUs and starts a new sequence at the next frame. Without a valid record the first
sequence number is a free value. -/
def Dev.resumeRend (d : Dev) (c rd s : Nat) (ready : Bool) : Dev :=
  let g := (d.chan c).cfg
  let x := d.rend c rd
  let m := x.sent
  let mir := tget d.mirs (c * 8 + rd) Mirror.init
  let bad := d.badRecords c rd
  let rec_ := d.recordFor c rd m
  let o := wOS c rd
  let z : Dev × Nat × Nat := match rec_ with
    | some y => (d.fromRecord c rd y, x.rollSeq y m)
    | none => ((d.withoutRecord c rd).freeNext, d.freeVal, d.rd Reg.OS_TS_CC o)
  let d := z.1
  let rtp := cfR g rd Reg.OUT_CTRL_ENCAP != 2
  let d := if rtp then d.wr Reg.OS_SEQ_NEXT_SEQ o (z.2.1 + d.rd Reg.OS_SEQ_MAX_PKTS o) else d
  let d := d.wr Reg.OS_TS_CC o z.2.2
  let todo := (d.rend c rd).opens.filter (fun o => o.bits.isNone)
  let copies := x.dus.filter (fun u => m ≤ u.i && mir.holds m u.i)
  let at_ := slot4 g rd x (stopFor (d.chan c) x) ((todo.head?.map (·.i)).getD x.i)
  let nextK := if at_.jj = 0 then at_.k else at_.k + 1
  let d := d.setRend c rd (fun (x : Rend) =>
    let y : Rend :=
      { x with
             pk := m, psi := (((x.dus.find? (fun u => u.i == m && u.pkts.isSome)).map (·.psi)).getD x.psi),
             dus := (x.dus.filter (fun u => mir.holds m u.i)).map (fun u => if m ≤ u.i then { u with pkts := none, left := false } else u),
             minimalTo := if ready || at_.jj == 0 then x.minimalTo else some at_.k,
             resumeI := some (m, none),
             irs := if ready then x.irs else x.irs ++ [nextK], segs := if ready then x.segs else x.segs ++ [nextK] }
    y.fold g rd)
  let mr := blk s ixMIRROR
  let d := d.incBy Reg.MR_ERR_INVALID mr bad
  let d := (d.incBy Reg.MR_TAKE_RESENT mr copies.length).incBy Reg.MR_TAKE_RECODED mr todo.length
  let d := d.emit (.resume c rd m (cfR g rd Reg.OUT_CTRL_ENCAP != 0))
  let d := { d with mirs := tdel d.mirs (c * 8 + rd) }
  let d := d.each todo (fun d y => d.regrant c rd s y.i)
  let d := d.each ((List.range x.an).filter (fun i => at_.i ≤ i)) (fun d i =>
    let z := slot4 g rd x (stopFor (d.chan c) x) i
    (d.sendToken s 0x01 c rd z.j z.k 0 0).sendToken s 0x02 c rd z.j z.k (sumL ((sliceRowList g rd z.jj).map (fun y => sumL (rowCplx g rd x z.pic y)))) 0)
  d.packetise c rd

/-- Whether S could take a protected channel over as READY (R274, R282). -/
def Dev.chanReady (d : Dev) (s c : Nat) : Bool :=
  d.trackReady s c && d.stbyInput c && (rdList (d.chan c).cfg).all (fun rd => (d.recordFor c rd (d.rend c rd).sent).isSome)

/-- One channel is taken over by region `s` (R280). DEDUCED: it stays RUNNING, so no CH_STATE_CHG is raised (R78; log entry 202). -/
def Dev.takeChan (d : Dev) (c from_ s n slot : Nat) (home : Bool) : Dev :=
  let ready := d.pgState n slot == 2 || d.chanReady s c
  let jobs := d.ces.filter (fun x => x.1 / 8 == from_ && x.2.c == c)
  let d := { d with ces := tkeep (fun k _ => !(jobs.any (fun y => y.1 == k))) d.ces }
  let d := if from_ = s then d else ((d.cancelTasks from_ c (fun _ => true)).moveFlows c from_ s home false).moveStreams c from_ s false
  let d := d.setLead c s
  let d := d.each (rdList (d.chan c).cfg) (fun d rd =>
    let d := match tget? d.olds (c * 8 + rd) with
      | some o => d.asOf c rd (o.1.ended.getD 0 - 1) (fun d => d.resumeRend c rd s ready)
      | none => d
    if (tget? d.rends (c * 8 + rd)).isSome then d.resumeRend c rd s ready else d)
  if ready then d else d.event pSHM 6 (n * 2 + slot) c

/-- Protected channels whose region failed with no taker stop with REGION_LOST (R273, R283). -/
def Dev.slotLost (d : Dev) (n slot from_ : Nat) : Dev :=
  let d := d.each (d.protOn from_) Dev.loseChan
  ((d.setPgState n slot 7).setPg n slot (fun _ => PgSlot.init)).pgEvalAll

/-- The region that carries a slot's channels, and the one that takes them if it fails: the standby; in a revert whose handover
record is written, the survivor (R280, R285). -/
def Dev.slotTaker (d : Dev) (n slot a : Nat) : Nat :=
  let s := d.pgStby n
  if d.pgServer n slot = s then (if d.active s then s else a) else if d.active a then a else s

/-- The grant of a slot's token, recorded in the shadow first, the egress-kill that follows, and the take-over (R277, R278, R280 to R283). The
failed region's transmitters stop when its island receives the command (EGRESS_KILL). -/
def Dev.takeOver (d : Dev) (n slot a cause at_ : Nat) : Dev :=
  let from_ := d.pgServer n slot
  let s := d.slotTaker n slot a
  let st := d.pgState n slot
  let gone := if from_ = s then (if s = a then d.pgStby n else a) else from_
  let d := d.pgEvalAll
  let st := if st = 1 ∨ st = 2 then (if d.pgState n slot = 3 then 3 else st) else st
  let v := d.notReady n slot from_ s
  let exposed : Bool := st == 3 || (st ≤ 2 && (bitOf v 0 || bitOf v 4 || bitOf v 5))
  if exposed then d.slotLost n slot from_
  else if d.active s = false ∨ (d.region s).failedAt.isSome = true then d.slotLost n slot from_
  else
    let d := if d.rd Reg.ELECT_SHADOW_VALID pSHM = 1 then d.emit (.noteGrant (d.rd Reg.ELECT_SHADOW pSHM) n slot s) else d
    let d := d.emit (.grant n slot s)
    let d := ((d.emit (.kill (d.witness n) gone false)).emit (.kill s gone false)).emit (.kill s gone true)
    let d := d.setMode s 3
    let d := d.each ((d.chansOn s).filter d.preemptible) (fun d c => d.stopChan c 0x22 true 0)
    let d := d.each (d.protOn from_) (fun d c => d.takeChan c from_ s n slot (s == a))
    let d := d.setServer n slot s
    let d := d.wr Reg.PG_LAST_CAUSE pSHM cause n
    let d := d.inc Reg.PG_STATUS_TAKEOVERS pSHM n
    let d := d.setPg n slot (fun _ => { PgSlot.init with takeAt := some at_, doneAt := some d.now })
    let d := d.setPgState n slot (if s = a then 1 else 4)
    (d.event pSHM 5 (n * 2 + slot) s).stolonTables.pgEvalAll

/-- Whether the other active region of a group, lower-numbered, was declared at the same instant (R283). -/
def Dev.declaredBefore (d : Dev) (n slot a at_ : Nat) : Bool :=
  match (d.pgActs n)[1 - slot]? with
  | some b => decide (b < a) && (d.pg n (1 - slot)).declared.any (fun y => y.2 == at_)
  | none => false

/-- The grant for a slot that is declared failed. When both active regions were declared at one instant, the lower-numbered is
taken over and the other is lost. -/
def Dev.grantSlot (d : Dev) (n slot : Nat) : Dev :=
  match (d.pgActs n)[slot]?, (d.pg n slot).declared with
  | some a, some (cause, at_) =>
    if d.declaredBefore n slot a at_ then d.slotLost n slot a else d.takeOver n slot a cause at_
  | _, _ => d

/-- TAKEOVER (R59, R277 to R283): the standby receives the grant. -/
def execTakeover (n slot t : Nat) (s : State) : Host.Outcome State Fault Refusal :=
  s.onDev (fun d0 => (d0.advanceTo t).grantSlot n slot)

/-! ## Failures (R32, R68, R275 to R279, R477, R478) -/

/-- A slot's region fails while it carries the slot's channels, or takes part in a revert whose handover record is written: the
failure is declared and waits for the grant. A returning region that fails leaves the slot TAKEN. -/
def Dev.declareSlot (d : Dev) (n slot r cause : Nat) : Dev :=
  let st := d.pgState n slot
  let put (d : Dev) : Dev := d.setPg n slot (fun x => { x with declared := some (x.declared.getD (cause, d.now)) })
  let half := st == 6 && !((d.pg n slot).handed.isEmpty)
  if half then put d
  else if d.pgServer n slot = r then (if st = 1 ∨ st = 2 ∨ st = 3 ∨ st = 6 then put (if st = 6 then d.setPgState n slot 2 else d) else d)
  else if st = 5 ∨ st = 6 then (d.setPg n slot (fun _ => PgSlot.init)).setPgState n slot 4
  else d

/-- A standby fails (R283): the channels that it carries stop, and its slots lose it. -/
def Dev.standbyFails (d : Dev) (n r : Nat) : Dev :=
  (d.each [0, 1] (fun d slot =>
    match (d.pgActs n)[slot]? with
    | none => d
    | some a =>
      let st := d.pgState n slot
      let half := st == 6 && !((d.pg n slot).handed.isEmpty)
      if half then d
      else if d.standbyServes n slot then
        let d := d.each (d.protOn r) Dev.loseChan
        let d := (d.setServer n slot a).setPg n slot (fun _ => PgSlot.init)
        d.setPgState n slot (if d.active a then 3 else 7)
      else if st = 6 then (d.setPg n slot (fun _ => PgSlot.init)).setPgState n slot 3
      else d)).pgEvalAll

/-- A region is lost (R31, R68, R275, R283, R449, R477): its unprotected channels stop with REGION_LOST, its role in a group is
declared failed, and the election falls due. -/
def Dev.regionLost (d : Dev) (r cause : Nat) : Dev :=
  if (d.region r).failedAt.isSome then d
  else
    let d := d.each ((d.chansOn r).filter (fun c => !(d.protectedCh c))) Dev.loseChan
    let d := d.setRegion r (fun x => { x with failedAt := some d.now })
    let d := match d.slotOf r with
      | some x => d.declareSlot x.1 x.2 r cause
      | none => d
    let d := match d.stbyOf r with
      | some n =>
        let half := [0, 1].filter (fun slot => d.pgState n slot == 6 && !((d.pg n slot).handed.isEmpty))
        (d.each half (fun d slot => d.declareSlot n slot r cause)).standbyFails n r
      | none => d
    d.electDue.pgEvalAll

/-- A region has failed (R275, R477, R478): the error tells its cause. -/
def Dev.regionFails (d : Dev) (r cause : Nat) : Dev :=
  if (d.region r).failedAt.isSome then d
  else
    let d := d.regionLost r cause
    let d := d.err pSHM 0x5B 3 (r + cause * 256) false [] r
    d.event pSHM 9 r 2

/-- FW_BEAT_MISS (R275, R478): the island stops the transmitters and reports a fatal error. Of the two errors of one severity that reach
the SHM page at once, ERR_CODE and ERR_INFO show FW_BEAT, the lower code. -/
def execFwBeatMiss (r t : Nat) (s : State) : Host.Outcome State Fault Refusal :=
  s.onDev (fun d0 =>
    let d := d0.advanceTo t
    if 8 ≤ r ∨ d.active r = false then d
    else
      let d := (d.kill r).setIsland r (fun x => { x with fatal := true })
      (d.regionFails r 3).err pSHM 0x5A 3 r false [] r)

/-- ISLAND_FATAL_REPORT (R32, R275): an island reports a fatal error of its region. -/
def execIslandFatalReport (i t : Nat) (s : State) : Host.Outcome State Fault Refusal :=
  s.onDev (fun d0 =>
    let d := d0.advanceTo t
    if 8 ≤ i ∨ (d.island i).aon = false then d
    else ((d.kill i).setIsland i (fun x => { x with fatal := true })).regionFails i 2)

/-- REGION_FAIL_DECLARE (R275 to R277): the witness has missed the beats of the slot's region on both paths for 300 µs. -/
def execRegionFailDeclare (n slot t : Nat) (s : State) : Host.Outcome State Fault Refusal :=
  s.onDev (fun d0 =>
    let d := d0.advanceTo t
    match (d.pgActs n)[slot]? with
    | none => d
    | some a =>
      let r := d.pgServer n slot
      if d.missed (d.witness n) r = false then d
      else if r = a then d.regionFails a 1
      else d.regionFails r 1)

/-- WITNESS_BEAT_LOSS (R279): an active region that has heard neither the witness nor the standby for 300 µs stops its protected
flows after the tick slice in progress. -/
def execWitnessBeatLoss (r t : Nat) (s : State) : Host.Outcome State Fault Refusal :=
  s.onDev (fun d0 =>
    let d := d0.advanceTo t
    match d.slotOf r with
    | some x =>
      if d.missed r (d.witness x.1) && d.missed r (d.pgStby x.1) then d.setRegion r (fun y => { y with cutOff := true }) else d
    | none => d)

/-! ## Return and commands (R284 to R286) -/

/-- HOLD of a slot. -/
def Dev.pgHeld (d : Dev) (n slot : Nat) : Bool :=
  d.rd (if slot = 0 then Reg.PG_STATUS_HOLD_A else Reg.PG_STATUS_HOLD_B) pSHM n == 1

/-- The HOLD bit of a slot (R286). -/
def Dev.setHold (d : Dev) (n slot : Nat) (b : Bool) : Dev :=
  d.wrB (if slot = 0 then Reg.PG_STATUS_HOLD_A else Reg.PG_STATUS_HOLD_B) pSHM b n

/-- A revert is scheduled (R285). -/
def Dev.pgSchedule (d : Dev) (n slot : Nat) (swit : Bool) : Dev :=
  (d.setPg n slot (fun x => { x with revert := some d.now, handed := [], swit := swit, readySince := none })).setPgState n slot 6

/-- PG_CMD (R286): 1 SWITCH, 2 HOLD, 3 RELEASE. -/
def Dev.pgCmd (d : Dev) (w n slot op : Nat) : Dev :=
  d.locked w pSHM (fun d =>
    let n := n % 4
    let slot := slot % 2
    let st := d.pgState n slot
    if op = 0 ∨ 3 < op then d.pgResult n cOpInvalid
    else if op = 1 then
      if st = 2 then (d.pgSchedule n slot true).pgResult n 0 else d.pgResult n 0x3F
    else if op = 2 then
      if 4 ≤ st ∧ st ≤ 6 then (d.setHold n slot true).pgResult n 0 else d.pgResult n 0x3F
    else if d.pgHeld n slot then
      let d := (d.setHold n slot false).pgResult n 0
      if st = 6 ∧ (d.pg n slot).handed.isEmpty = true then d.setPg n slot (fun x => { x with revert := some d.now }) else d
    else d.pgResult n 0x3F)

/-- PG_SWITCH (R286). -/
def execPgSwitch (w n slot : Nat) (s : State) : Host.Outcome State Fault Refusal := s.onDev (fun d => d.pgCmd w n slot 1)

/-- PG_HOLD (R286). -/
def execPgHold (w n slot : Nat) (s : State) : Host.Outcome State Fault Refusal := s.onDev (fun d => d.pgCmd w n slot 2)

/-- PG_RELEASE (R286). -/
def execPgRelease (w n slot : Nat) (s : State) : Host.Outcome State Fault Refusal := s.onDev (fun d => d.pgCmd w n slot 3)

/-- REVERT_SCHEDULE (R285): READY without interruption for HOLDOFF_S, and no HOLD. -/
def execRevertSchedule (n slot t : Nat) (s : State) : Host.Outcome State Fault Refusal :=
  s.onDev (fun d0 =>
    let d := (d0.advanceTo t).pgEvalAll
    match (d.pg n slot).readySince with
    | some x =>
      if d.pgState n slot = 5 ∧ d.pgHeld n slot = false ∧ x + d.rd Reg.PG_CFG_HOLDOFF_S pSHM n * 1000000000 ≤ d.now then
        d.pgSchedule n slot false
      else d
    | none => d)

/-- The grant instant of slice 0 of frame `k` (R63, R172), in 2^-16 ns. -/
def Dev.frameGrant (d : Dev) (c k : Nat) : Int :=
  let g := (d.chan c).cfg
  d.arriveAt c k (if ladder g then slices g - 1 else 0) + ((tsTu g : Nat) : Int)

/-- The frame x of R285 for a revert scheduled at an instant: the first whose grant lies at least 2 × T_s after it. -/
def Dev.revertFrame (d : Dev) (c at_ : Nat) : Nat :=
  let ch := d.chan c
  let lim : Int := ((at_ * 65536 + tickTu ch.cfg 2 : Nat) : Int)
  let k0 := d.frameFrom c ((at_ * 65536 : Nat) : Int) - 3
  let ks := (List.range 12).map (fun i => max ch.startK (k0 + i))
  (ks.find? (fun k => decide (lim ≤ d.frameGrant c k))).getD (k0 + 12)

/-- The departure instant of slice 0 of frame `k`, in ns. -/
def Dev.frameDepart (d : Dev) (c k : Nat) : Nat :=
  (d.arriveAt c k 0 + ((latTu (d.chan c).cfg 1 : Nat) : Int)).toNat / 65536

/-- The regions of a revert: the one that carries the channels and the one that takes them. -/
def Dev.revertEnds (d : Dev) (n slot a : Nat) : Nat × Nat :=
  if d.pgServer n slot = a then (a, d.pgStby n) else (d.pgStby n, a)

/-- The handover record of a rendition (R285): the state at the start of x, with the grants in flight. -/
def Dev.handRecord (d : Dev) (c rd : Nat) : Dev :=
  let ch := d.chan c
  let x := d.rend c rd
  let z := slot4 ch.cfg rd x (stopFor ch x) x.i
  let fs := d.snapOf c rd x z
  let rec_ : MirRec := ⟨z.i, d.chGen c, 2, fs.take 17 ++ List.replicate 7 0 ++ fs.drop 17, true⟩
  let d := { d.freeNext with mirs := tmod d.mirs (c * 8 + rd) Mirror.init (fun m =>
    if z.i % 2 = 0 then { m with rec0 := some rec_ } else { m with rec1 := some rec_ }) }
  (d.emit (.mirrorWrite c rd z.i 0 (rec_.bytes c rd))).emit (.mirror c rd z.i true)

/-- REVERT_HANDOVER (R285): at the grant instant of x, a channel's state passes to the region that takes it, which codes from x
on. -/
def execRevertHandover (n slot t : Nat) (s : State) : Host.Outcome State Fault Refusal :=
  s.onDev (fun d0 =>
    let d := d0.advanceTo t
    let x := d.pg n slot
    match (d.pgActs n)[slot]?, x.revert with
    | some a, some at_ =>
      let ends := d.revertEnds n slot a
      if d.pgState n slot ≠ 6 ∨ (d.pgHeld n slot = true ∧ x.handed.isEmpty = true) then d
      else
        let due := (d.protOn ends.1).filter (fun c =>
          !(x.handed.contains c) && decide (d.frameGrant c (d.revertFrame c at_) ≤ (d.nowTu : Int)))
        let d := if due.isEmpty then d
          else d.each ((d.chansOn ends.2).filter d.preemptible) (fun d c => d.stopChan c 0x22 true 0)
        d.each due (fun d c =>
          let k := d.revertFrame c at_
          let d := d.each (rdList (d.chan c).cfg) (fun d rd =>
            (d.handRecord c rd).setRend c rd (fun x => { x with resumeI := x.resumeI.map (fun z => (z.1, some x.i)) }))
          let d := d.setChan c (fun y => { y with handTo := some (k, ends.2) })
          d.setPg n slot (fun y => { y with handed := y.handed ++ [c] }))
    | _, _ => d)

/-- REVERT_COMPLETE (R285 to R287): at d_x the token passes, and the flows move without a gap in their sequence. -/
def execRevertComplete (n slot t : Nat) (s : State) : Host.Outcome State Fault Refusal :=
  s.onDev (fun d0 =>
    let d := d0.advanceTo t
    let x := d.pg n slot
    match (d.pgActs n)[slot]?, x.revert with
    | some a, some at_ =>
      let ends := d.revertEnds n slot a
      let chs := d.protOn ends.1
      let passed (c : Nat) : Bool := match (d.chan c).handTo with
        | some (k, _) => decide (d.frameDepart c k ≤ d.now)
        | none => false
      let empty : Bool := !(chs.isEmpty) || (decide (at_ ≤ d.now) && !(d.pgHeld n slot))
      if d.pgState n slot ≠ 6 ∨ chs.all passed = false ∨ empty = false then d
      else
        let d := d.each chs (fun d c =>
          let d := (d.cancelTasks ends.1 c (fun _ => true)).moveFlows c ends.1 ends.2 (ends.2 == a) true
          let d := d.moveStreams c ends.1 ends.2 true
          { (d.setLead c ends.2) with mirs := tkeep (fun k _ => k / 8 != c) d.mirs })
        let d := (d.setServer n slot ends.2).setPg n slot (fun _ => PgSlot.init)
        let d := d.emit (.grant n slot ends.2)
        let d := if x.swit then
            let d := ((d.wr Reg.PG_LAST_CAUSE pSHM 4 n).inc Reg.PG_STATUS_TAKEOVERS pSHM n).setPgState n slot 4
            d.event pSHM 5 (n * 2 + slot) ends.2
          else (d.setPgState n slot 2).event pSHM 7 (n * 2 + slot) ends.2
        d.stolonTables
    | _, _ => d)

end Sys2Proof.Machine
end

