-- ==== Sys2Proof/Machine/Nvm.lean ====
section
/-! DEFINITION. The NOR's records and the fault log: requests, completion, hold-up and power fail, the log's commands (R342, R439
to R442, R482 to R485). -/

namespace Sys2Proof.Machine

/-! ## Hold-up (R441, R468, R485, R490) -/

/-- HOLDUP_LOW (R441): E falls below 1.5 times the need of the largest record, the equalisation table of 64 sectors and 256 KiB;
at most once per TB second. -/
def Dev.holdLow (d : Dev) : Dev :=
  let low := !(d.enough 64 262144)
  let was := d.rd Reg.HU_STAT_LOW pHOLDUP == 1
  let d := d.wrB Reg.HU_STAT_LOW pHOLDUP low
  if low && !was && d.mayRaise 0x700 then (d.markRaised 0x700).event pHOLDUP 1 0 d.energyMj else d

/-- HOLDUP_SAMPLE (R468, R485): the code of HOLDUP_SENSE, V by the board record's divider, and E in µJ. Without a board record V
has no stated value and HU_ENERGY reads all ones. -/
def execHoldupSample (raw t : Nat) (s : State) : Host.Outcome State Fault Refusal :=
  s.onDev (fun d0 =>
    let d := (d0.advanceTo t).wr Reg.HU_SENSE_RAW pHOLDUP raw
    if d.nvm.board.isSome then
      let d := d.wr Reg.HU_SENSE_MV pHOLDUP (min 0xFFFF (raw % 4096 * 1200 * d.boardAt 0x18 4 / (4096 * 65536)))
      (d.wr Reg.HU_ENERGY pHOLDUP (min 0xFFFFFFFF ((d.twiceE.getD 0) / 2000000))).holdLow
    else (d.freeNext.wr Reg.HU_SENSE_MV pHOLDUP d.freeVal).wr Reg.HU_ENERGY pHOLDUP 0xFFFFFFFF)

/-- PFAIL_ASSERT (R442): no store starts; one in progress runs on. -/
def execPfailAssert (t : Nat) (s : State) : Host.Outcome State Fault Refusal :=
  s.onDev (fun d0 =>
    let d := d0.advanceTo t
    if d.nvm.pfail then d
    else
      let d := d.setNvm (fun n => { n with pfail := true, pfailStart := d.now })
      let d := (d.wr Reg.HU_STAT_PFAIL pHOLDUP 1).inc Reg.HU_STAT_PFAIL_COUNT pHOLDUP
      d.event pHOLDUP 0 0 d.energyMj)

/-- PFAIL_DEASSERT (R442): the waiting stores resume in order; the next fault-log store records the interval. -/
def execPfailDeassert (t : Nat) (s : State) : Host.Outcome State Fault Refusal :=
  s.onDev (fun d0 =>
    let d := d0.advanceTo t
    if d.nvm.pfail then
      let d := d.setNvm (fun n => { n with pfail := false, pfailLog := n.pfailLog ++ [(n.pfailStart, d.now)] })
      (d.wr Reg.HU_STAT_PFAIL pHOLDUP 0).storeNext
    else d)

/-! ## Stores (R440, R441) -/

/-- Sectors and bytes of a record's store: of the adapted settings, 4 sectors and 16,384 bytes. -/
def storeSize (record len : Nat) : Nat × Nat := if record = 3 then (4, 16384) else (ceilDiv len 4096, len)

/-- Requests the store of a record (R441). -/
def Dev.recordReq (d : Dev) (record : Nat) (body : List Nat) : Dev :=
  d.storeReq { record := record, body := body, sectors := (storeSize record body.length).1,
               bytes := (storeSize record body.length).2, deferred := false, entries := [] }

/-- NVM_STORE_REQUEST (R440, R441, R490): the device never writes the board record. -/
def execNvmStoreRequest (rec_ : Nat) (body : List Byte) (s : State) : Host.Outcome State Fault Refusal :=
  s.onDev (fun d =>
    if rec_ = 1 ∨ 5 < rec_ then d
    else if rec_ = 5 then d.holdLow.logStore
    else d.holdLow.recordReq rec_ (body.map (·.toNat)))

/-- STORE_RECHECK (R441): every 100 ms. -/
def execStoreRecheck (t : Nat) (s : State) : Host.Outcome State Fault Refusal :=
  s.onDev (fun d0 =>
    let d := d0.advanceTo t
    if d.nvm.queue.any (·.deferred) && d.nvm.checkAt + 100000000 ≤ d.now then d.holdLow.storeNext else d)

/-- The NOR address of copy `i` of a record, or of sector `i` of the fault log's ring (R439). -/
def norAddr (record i : Nat) : Nat :=
  if record = 1 then 0x1810000 + i * 0x10000
  else if record = 2 then 0x1830000 + i * 0x50000
  else if record = 3 then 0x18D0000 + i * 0x10000
  else if record = 4 then 0x18F0000 + i * 0x8000
  else 0x1900000 + i * 0x1000

/-- The bytes of a fault-log sector up to its last entry (R482): FORMAT, BOOT_COUNT, SERIAL, the first entry's SEQ and the number of
entries, then the entries. -/
def Dev.sectorBytes (d : Dev) (otp : Otp) (mine : List LogEntry) : List Nat :=
  leBytes 2 1 ++ leBytes 2 0 ++ leBytes 4 d.nvm.bootCount ++ padTo 16 otp.serial ++ leBytes 4 ((mine.head?.map (·.seq)).getD 0)
    ++ leBytes 2 mine.length ++ List.replicate 26 0 ++ mine.flatMap LogEntry.bytes

/-- A completed fault-log sector leaves the buffer (R482, R483). -/
def Dev.sectorDone (d : Dev) (otp : Otp) (mine : List LogEntry) : Dev :=
  let keep := (d.nvm.buf.zip d.nvm.bufAt).filter (fun x => !(mine.contains x.1))
  let d := d.setNvm (fun n =>
    { n with sectors := n.sectors ++ [mine], sectorSeq := (n.sectorSeq + 1) % 2 ^ 32, buf := keep.map (·.1), bufAt := keep.map (·.2) })
  let d := d.syncTail
  (d.emit (.norWrite 5 0 (norAddr 5 (d.nvm.sectorSeq % 1792)) d.nvm.sectorSeq (d.sectorBytes otp mine))).event pNVM 0 5 d.nvm.sectorSeq

/-- A record's copy is complete (R440): the commit word carries SEQ one above the newest. -/
def Dev.copyDone (d : Dev) (j : StoreJob) : Dev :=
  let p : Nat × Nat := match d.newest j.record with
    | some (i, c) => (1 - i, (c.seq + 1) % 2 ^ 32)
    | none => (0, 1)
  let d := d.setNvm (fun n => { n with recs := tput n.recs (2 * j.record + p.1) ⟨p.2, j.body, true⟩ })
  (d.emit (.norWrite j.record p.1 (norAddr j.record p.1) p.2 j.body)).event pNVM 0 j.record p.2

/-- The running store completes (R440, R482). -/
def Dev.storeFinish (d : Dev) (otp : Otp) : Dev :=
  match d.nvm.running with
  | none => d
  | some j =>
    let d := (d.wr Reg.NVM_STAT_BUSY pNVM 0).setNvm (fun n => { n with running := none })
    if j.record = 5 then d.sectorDone otp j.entries else d.copyDone j

/-- STORE_DONE (R440, R482): the running store completes and the next one is checked. -/
def execStoreDone (t : Nat) (s : State) : Host.Outcome State Fault Refusal :=
  s.onDev (fun d0 =>
    let d := d0.advanceTo t
    if d.nvm.running.isNone then d
    else
      let d := d.storeFinish s.otp
      (if 63 ≤ d.unstored.length then d.logStore else d).storeNext)

/-! ## Adapted lane settings (R342) -/

/-- A code within ±4 of its seed and within its range. -/
def nearSeed (seed v lo hi : Int) : Int := max (max lo (seed - 4)) (min (min hi (seed + 4)) v)

/-- CTLE and DFE_1 to DFE_4 of an entry (R341). -/
def eqCodes (e : Nat) : List Int :=
  (bitsOf e 16 5 : Int) :: [24, 32, 40, 48].map (fun b => signed 8 (bitsOf e b 8))

/-- An entry with other codes. -/
def withCodes (e : Nat) (cs : List Int) : Nat :=
  let at_ (i : Nat) : Int := cs.getD i 0
  e - bitsOf e 16 5 * 2 ^ 16 - bitsOf e 24 32 * 2 ^ 24 + unsignedOf 5 (at_ 0) * 2 ^ 16
    + (List.range 4).foldl (fun a i => a + unsignedOf 8 (at_ (i + 1)) * 2 ^ (24 + 8 * i)) 0

/-- The codes that adaptation reaches from a table entry (R342). -/
def adapted (entry v : Nat) : List Int :=
  (List.range 5).map (fun i =>
    let lo : Int := if i = 0 then 0 else -128
    let hi : Int := if i = 0 then 31 else 127
    nearSeed ((eqCodes entry).getD i 0) ((eqCodes v).getD i 0) lo hi)

/-- Whether a code is held at its bound. -/
def atBound (entry : Nat) (cs : List Int) : Bool :=
  (List.range 5).any (fun i =>
    let c := cs.getD i 0
    let seed := (eqCodes entry).getD i 0
    c == seed - 4 || c == seed + 4 || (if i = 0 then c == 0 || c == 31 else c == -128 || c == 127))

/-- A lane's adapted entry takes effect: global lane, class, table entry and the entry with the adapted codes. None for a lane
that does not adapt, or that uses built-in settings. -/
def Dev.adaptLane (d : Dev) (r : Nat) (x : Nat × Nat) : Option (Nat × Nat × Nat × Nat) :=
  let g := r * 16 + x.1 % 16
  let k := eqClass (d.lnMode g) (d.lnRate g) (d.rd Reg.LN_STAT_SDI_RATE (lanePage g))
  let e := (d.lane g).entry
  if d.lnMode g = 1 ∧ (k = 1 ∨ k = 2) ∧ e ≠ 0 then some (g, k, e, withCodes e (adapted e x.2)) else none

/-- Whether an adapted entry differs from the stored copy, or from the seeds where none is stored, by 2 codes or more. -/
def Dev.adaptNew (d : Dev) (x : Nat × Nat × Nat × Nat) : Bool :=
  let old := eqCodes ((d.storedAdapt x.1 x.2.1 x.2.2.1).getD x.2.2.1)
  (List.range 5).any (fun i => 2 ≤ ((eqCodes x.2.2.2).getD i 0 - old.getD i 0).natAbs)

/-- ADAPT_STORE (R342): the values that the lanes have adapted to, and their store at most once per hour and region. -/
def execAdaptStore (r : Nat) (vals : List (Nat × Nat)) (t : Nat) (s : State) : Host.Outcome State Fault Refusal :=
  s.onDev (fun d0 =>
    let d := d0.advanceTo t
    let r := r % 8
    let xs := vals.filterMap (d.adaptLane r)
    if d.active r = false then d
    else
      let d := d.each xs (fun d x =>
        (d.useEq x.1 x.2.1 x.2.2.2).wrB Reg.LN_STAT_ADAPT_LIMIT (lanePage x.1) (atBound x.2.2.1 (eqCodes x.2.2.2)))
      let last := tget? d.lastSec (0x800 + r)
      if xs.any d.adaptNew && (last.all (fun p => p + 3600 ≤ d.second)) then
        let old := match d.newest 3 with
          | some (_, c) => adaptEntries c.body
          | none => []
        let keep := old.filter (fun o => !(xs.any (fun x => x.1 == o.1 && x.2.1 == o.2.1)))
        (d.markRaised (0x800 + r)).recordReq 3 ((keep ++ xs).flatMap (fun x => [x.1, x.2.1, x.2.2.1, x.2.2.2]))
      else d)

/-! ## The fault log's commands (R483, R485) -/

/-- An entry held in the buffer or in NOR. -/
def Dev.logFind (d : Dev) (seq : Nat) : Option LogEntry := (d.nvm.buf ++ d.nvm.sectors.flatten).find? (fun e => e.seq == seq)

/-- NVM_CMD (R398, R483, R485): 1 LOG_READ, 2 LOG_FLUSH. -/
def Dev.nvmCmd (d : Dev) (w op tag : Nat) : Dev :=
  d.locked w pNVM (fun d =>
    let post (d : Dev) (code : Nat) : Dev :=
      ((d.wr Reg.NVM_RESULT_CODE pNVM code).wr Reg.NVM_RESULT_TAG pNVM tag).wr Reg.NVM_RESULT_DONE pNVM 1
    if op = 1 then
      match d.logFind (d.rd Reg.NVM_LOG_RSEQ pNVM) with
      | some e =>
        post (d.each (List.range 16) (fun d i => d.wr Reg.NVM_LOG_ENTRY pNVM (fromLE ((e.bytes.drop (4 * i)).take 4)) i)) 0
      | none => post d 0x5E
    else if op = 2 then post d.logStore 0
    else post d cOpInvalid)

/-- LOG_READ (R485). -/
def execLogRead (w tag : Nat) (s : State) : Host.Outcome State Fault Refusal := s.onDev (fun d => d.nvmCmd w 1 tag)

/-- LOG_FLUSH (R483). -/
def execLogFlush (w tag : Nat) (s : State) : Host.Outcome State Fault Refusal := s.onDev (fun d => d.nvmCmd w 2 tag)

/-- LOG_ENTRY_WAIT (R483): an entry of degraded class or above has waited 1 s. -/
def execLogEntryWait (t : Nat) (s : State) : Host.Outcome State Fault Refusal :=
  s.onDev (fun d0 =>
    let d := d0.advanceTo t
    if (d.nvm.buf.zip d.nvm.bufAt).any (fun x => decide (2 ≤ x.1.sev) && decide (x.2 + 1000000000 ≤ d.now) && d.unstored.contains x.1)
    then d.logStore else d)

/-- LOG_SUMMARY (R483, R484): the region's counts, where they have changed since its last SUMMARY, once per hour since BOOT. -/
def execLogSummary (r hour : Nat) (s : State) : Host.Outcome State Fault Refusal :=
  s.onDev (fun d =>
    let r := r % 8
    let x := tget d.nvm.sevCnt r (0, 0)
    if x = tget d.nvm.sumSeen r (0, 0) ∨ (tget? d.nvm.sumHour r).any (fun h => hour ≤ h) then d
    else
      let d := d.setNvm (fun n => { n with sumSeen := tput n.sumSeen r x, sumHour := tput n.sumHour r hour })
      d.logAdd 2 0 r (sourceOf (blk r ixRGN)) 0 0 hour 0 (leBytes 4 x.1 ++ leBytes 4 x.2))

end Sys2Proof.Machine
end

