-- ==== Sys2Proof/Machine/Glume.lean ====
section
/-! DEFINITION. Glume (R429 to R438, R444): image checks, attestation, unlock and fuses; and the standalone defaults (R445). -/

namespace Sys2Proof.Machine

/-! ## State and results (R444) -/

/-- FLAGS of R437. -/
def Dev.glFlags (d : Dev) (otp : Otp) : Nat :=
  b2n otp.custKey.isSome + 2 * b2n otp.consent + 4 * b2n d.sys.unlocked + d.sys.bootSource % 4 * 8 + d.sys.bootSlot % 2 * 32

/-- GL_STATE and GL_SVN as the fuses and the boot stand. -/
def Dev.syncGl (d : Dev) (otp : Otp) : Dev :=
  let d := (d.wr Reg.GL_STATE_FLAGS pGLUME (d.glFlags otp)).wr Reg.GL_STATE_BOOT_COUNT pGLUME d.nvm.bootCount
  d.wr Reg.GL_SVN_FUSED pGLUME (fromLE (padTo 3 otp.svn))

/-- Posts GL_RESULT. -/
def Dev.glPost (d : Dev) (tag code : Nat) : Dev :=
  ((d.wr Reg.GL_RESULT_CODE pGLUME code).wr Reg.GL_RESULT_TAG pGLUME tag).wr Reg.GL_RESULT_DONE pGLUME 1

/-- The bytes of a field that repeats over `n` words. -/
def Dev.glBytes (d : Dev) (row : Row) (n : Nat) : List Nat :=
  (List.range n).flatMap (fun i => leBytes 4 (d.rd row pGLUME i))

/-- Writes bytes into a field that repeats over `n` words. -/
def Dev.glPut (d : Dev) (row : Row) (n : Nat) (bs : List Nat) : Dev :=
  d.each (List.range n) (fun d i => d.wr row pGLUME (fromLE ((bs.drop (4 * i)).take 4)) i)

/-- A GL_CMD from `w` (R398, R444, R445): under the page lock; a host's shows that a host has appeared. -/
def Dev.glCmd (d : Dev) (w : Nat) (f : Dev → Dev) : Dev :=
  d.locked w pGLUME (fun d => f { d with sys := { d.sys with hostSeen := d.sys.hostSeen || isHost w } })

/-- A context string of R432 to R438 as bytes. -/
def ctxBytes (x : String) : List Nat := x.toList.map (·.toNat)

/-! ## Images (R430 to R432) -/

/-- The result of R432 and the AUTH_FAIL object: 0 valid. A digest failure's image is not among the operands: its class is a
free value. -/
def Dev.imageCode (d : Dev) (otp : Otp) (img : ImageSet) : Nat × Nat :=
  let f (i : Nat) : Nat := otp.svn.getD i 0
  if img.vendorSigOk = false ∨ (otp.custKey.isSome = true ∧ img.custSigOk = false) then (0x4B, 0xFF)
  else if img.digestOk = false then (0x4B, d.freeVal % 3)
  else if img.svn0 < f 0 then (0x4C, 0)
  else if img.svn1 < f 1 then (0x4C, 1)
  else if img.svn2 < f 2 then (0x4C, 2)
  else (0, 0)

/-- AUTH_FAIL (R430, R444): result code, source and slot. -/
def Dev.authFail (d : Dev) (obj code source slot : Nat) : Dev :=
  d.event pGLUME 0 obj (code + source % 4 * 2 ^ 8 + slot % 2 * 2 ^ 16)

/-- The BOOT entry of the fault log (R484): MODE_SEL, BOOT_SEL, BOARD_ID, source and slot. -/
def Dev.bootEntry (d : Dev) : Dev :=
  d.logAdd 3 0 0xF (sourceOf pGLUME) 0 0 0 0 [d.sys.mode, d.sys.bootSel, d.sys.boardId, d.sys.bootSource, d.sys.bootSlot]

/-- PCIE_BOOT (R429, R430, R432): the device reads the set from HOST_A's memory and verifies it. -/
def Dev.pcieBoot (d : Dev) (otp : Otp) (tag : Nat) (img : ImageSet) : Dev :=
  let a := d.rdPair Reg.GL_BOOT_ADDR_LO Reg.GL_BOOT_ADDR_HI pGLUME
  let d := { d with sys := { d.sys with hostSeen := true } }
  if d.bootWaits = false ∨ a % 0x1000 ≠ 0 then d.glPost tag cOpInvalid
  else
    let d := d.emit (.imageRead a (d.rd Reg.GL_BOOT_LEN pGLUME))
    let v := d.imageCode otp img
    let d := d.freeNext
    if v.1 ≠ 0 then (d.authFail v.2 v.1 2 0).glPost tag v.1
    else
      let d := { d with sys := { d.sys with booted := true, bootSource := 2, bootSlot := 0,
                                            svnRun := [img.svn0 % 64, img.svn1 % 64, img.svn2 % 64] } }
      ((d.syncGl otp).bootEntry).glPost tag 0

/-- GL_PCIE_BOOT (R430, R444): no lock is needed while the boot ROM waits. -/
def execGlPcieBoot (w tag : Nat) (img : ImageSet) (s : State) : Host.Outcome State Fault Refusal :=
  s.onDev (fun d =>
    if d.bootWaits = true ∧ w = 1 then (if d.pageAnswers w pGLUME then d.pcieBoot s.otp tag img else d)
    else d.glCmd w (fun d => if w = 1 then d.pcieBoot s.otp tag img else d.glPost tag cOpInvalid))

/-! ## Attestation (R435 to R437) -/

/-- CFG_MEAS (R437): the straps, the fused key hashes, FLAGS bits 2:0, and the class-B and class-K fields by address. -/
def Dev.cfgMeas (d : Dev) (otp : Otp) : List Nat :=
  let bk := tkeep (fun k _ => classOf k == some .b || classOf k == some .k) d.regs
  Config.shake256 ([d.sys.mode, d.sys.boardId, d.sys.bootSel] ++ (List.range 64).map Config.vendorKeyHash ++ otp.custKey.getD []
    ++ [d.glFlags otp % 8] ++ bk.flatMap (fun e => [e.1, e.2]))

/-- The first 0x1E0 bytes of the report (R437). -/
def Dev.reportBody (d : Dev) (otp : Otp) : List Nat :=
  let tb := if d.tbValid then d.now else 0
  let meas (x : Option (List Nat)) : List Nat := match x with
    | some b => padTo 64 (Config.shake256 b)
    | none => List.replicate 64 0
  leBytes 2 1 ++ leBytes 2 0x260 ++ leBytes 4 (d.glFlags otp) ++ padTo 16 otp.serial ++ leBytes 4 d.nvm.bootCount
    ++ leBytes 4 0 ++ leBytes 8 tb ++ padTo 3 d.sys.svnRun ++ padTo 3 otp.svn ++ List.replicate 18 0
    ++ d.glBytes Reg.GL_NONCE 8
    ++ [0, 1, 2].flatMap (fun k => (List.range 64).map (fun i => Config.imageDigest d.nvm.bootCount k i % 256))
    ++ meas d.nvm.board ++ meas d.nvm.eqTable ++ padTo 64 (d.cfgMeas otp)

/-- ATTEST (R436, R437). -/
def Dev.attest (d : Dev) (otp : Otp) (tag : Nat) : Dev :=
  let body := d.reportBody otp
  let report := body ++ padTo 114 (Config.ed448Sign 0 (ctxBytes "DF8-ATT-1" ++ body)) ++ List.replicate 14 0
  ((d.glPut Reg.GL_REPORT 152 report).glPost tag 0).event pGLUME 1 tag 0

/-- GL_ATTEST (R436). -/
def execGlAttest (w tag : Nat) (s : State) : Host.Outcome State Fault Refusal :=
  s.onDev (fun d => d.glCmd w (fun d => d.attest s.otp (tag % 256)))

/-! ## Unlock (R438, R443) -/

/-- CHALLENGE (R438): a fresh challenge, eight words of free values, replaces any earlier one. -/
def Dev.challenge (d : Dev) (tag : Nat) : Dev :=
  let d := d.each (List.range 8) (fun d i => (d.wr Reg.GL_CHAL pGLUME d.freeVal i).freeNext)
  ({ d with sys := { d.sys with chalLive := true } }).glPost tag 0

/-- GL_CHALLENGE (R438). -/
def execGlChallenge (w tag : Nat) (s : State) : Host.Outcome State Fault Refusal :=
  s.onDev (fun d => d.glCmd w (fun d => d.challenge (tag % 256)))

/-- Whether a channel, a band or a protection role is admitted (R438). -/
def Dev.anyAdmitted (d : Dev) : Bool := !d.liveChans.isEmpty || groups.any (fun n => d.pgMode n != 0)

/-- Whether the tokens at GL_TOKEN verify: the 4-byte scope, the vendor's signature, and the customer's when the consent fuse is
set, over serial number, challenge and scope. -/
def Dev.tokensOk (d : Dev) (otp : Otp) : Bool :=
  let bs := d.glBytes Reg.GL_TOKEN 128
  let msg := ctxBytes "DF8-UNL-1" ++ padTo 16 otp.serial ++ d.glBytes Reg.GL_CHAL 8 ++ bs.take 4
  d.sys.chalLive && Config.ed448Verify 1 msg ((bs.drop 4).take 114)
    && (!otp.consent || Config.ed448Verify 2 msg ((bs.drop 118).take 114))

/-- UNLOCK (R438): a challenge serves once; an accepted unlock is written to the fault log. -/
def Dev.unlock (d : Dev) (otp : Otp) (tag : Nat) : Dev :=
  let ok := d.tokensOk otp
  let d := { d with sys := { d.sys with chalLive := false } }
  if !ok then d.glPost tag 0x4E
  else if d.anyAdmitted then d.glPost tag 0x4F
  else
    let d := { d with sys := { d.sys with unlocked := true } }
    let d := d.logAdd 5 0 0xF (sourceOf pGLUME) 0 0 0 0 ((d.glBytes Reg.GL_TOKEN 128).take 4)
    (d.syncGl otp).glPost tag 0

/-- GL_UNLOCK (R438, R443): admitted work refuses it. -/
def execGlUnlock (w tag : Nat) (s : State) : Host.Outcome State Fault Refusal :=
  s.onDev (fun d => d.glCmd w (fun d => d.unlock s.otp (tag % 256)))

/-! ## Fuses (R433, R443) -/

/-- Fused SVNs after SVN_COMMIT: of each class the running SVN, never lowered. -/
def svnMax (fused run : List Nat) : List Nat := (List.range 3).map (fun i => max (fused.getD i 0) (run.getD i 0))

/-- Whether a GL_CMD of `w` takes effect. -/
def Dev.glOpen (d : Dev) (w : Nat) : Bool := (d.expire pGLUME).gate w pGLUME == .open_

/-- SVN_COMMIT on the whole state. -/
def State.svnCommit (s : State) (w tag : Nat) : State :=
  let otp := if s.dev.glOpen w then { s.otp with svn := svnMax s.otp.svn s.dev.sys.svnRun } else s.otp
  { s with otp := otp, dev := s.dev.glCmd w (fun d => (d.syncGl otp).glPost (tag % 256) 0) }

/-- GL_SVN_COMMIT (R433, R443). -/
def execGlSvnCommit (w tag : Nat) (s : State) : Host.Outcome State Fault Refusal := .next (s.svnCommit w tag)

/-- CUST_KEY on the whole state: the hash of the 57-byte key at GL_TOKEN is fused once. -/
def State.custKey (s : State) (w tag : Nat) : State :=
  let fused := s.otp.custKey.isSome
  let otp :=
    if s.dev.glOpen w && !fused then { s.otp with custKey := some (Config.shake256 ((s.dev.glBytes Reg.GL_TOKEN 128).take 57)) }
    else s.otp
  { s with otp := otp, dev := s.dev.glCmd w (fun d => (d.syncGl otp).glPost (tag % 256) (if fused then 0x4D else 0)) }

/-- GL_CUST_KEY (R433). -/
def execGlCustKey (w tag : Nat) (s : State) : Host.Outcome State Fault Refusal := .next (s.custKey w tag)

/-- GL_CMD with any OP, as a register write gives it: PCIE_BOOT's image set is a command of its own. -/
def State.glCommand (s : State) (w op tag : Nat) : State :=
  if op = 1 then { s with dev := s.dev.glCmd w (fun d => d.attest s.otp (tag % 256)) }
  else if op = 2 then { s with dev := s.dev.glCmd w (fun d => d.challenge (tag % 256)) }
  else if op = 3 then { s with dev := s.dev.glCmd w (fun d => d.unlock s.otp (tag % 256)) }
  else if op = 4 then s.svnCommit w tag
  else if op = 5 then s.custKey w tag
  else { s with dev := s.dev.glCmd w (fun d => d.glPost (tag % 256) cOpInvalid) }

/-! ## Standalone defaults (R445) -/

/-- The regions that run standalone: all in native mode, 1 to 7 in hybrid mode. -/
def Dev.soloRegions (d : Dev) : List Nat :=
  if d.sys.mode = 0 then regions else if d.sys.mode = 2 then regions.drop 1 else []

/-- The source fields of a standalone channel. -/
structure SoloSrc where
  rate : Nat
  w : Nat
  h : Nat
  inter : Nat
  s444 : Nat
  d12 : Nat
  deriving DecidableEq, Repr

def soloSrc (v : Nat) : SoloSrc :=
  let ra := v / 16 % 4
  { rate := v % 16, w := [1280, 1920, 3840, 7680].getD ra 0, h := [720, 1080, 2160, 4320].getD ra 0,
    inter := v / 64 % 2, s444 := v / 128 % 2, d12 := v / 256 % 2 }

/-- Whether a single link carries it as an HD format, or as 12G 4K (R83, R445). -/
def soloSingle (x : SoloSrc) : Bool :=
  x.w ≤ 1920 || (x.w == 3840 && ((5 ≤ x.rate && x.rate ≤ 7 && x.s444 == 0) || (x.rate ≤ 4 && x.s444 == 1 && x.d12 == 1)))

/-- The descriptor of a standalone channel: the reset values of R117 and R190, with the source and MAX_KBPS. -/
def soloDesc (g : Nat) (quad : Bool) (x : SoloSrc) : Tbl Nat :=
  let put (m : Tbl Nat) (row : Row) (v : Nat) : Tbl Nat := stSet m row 0 0 v
  let m := put (put [] Reg.SRC_CTRL_IF (b2n quad)) Reg.SRC_CTRL_LANE g
  let m := put (put (put m Reg.SRC_FMT_WIDTH x.w) Reg.SRC_FMT_HEIGHT x.h) Reg.SRC_FMT_INTERLACED x.inter
  let m := put (put (put m Reg.SRC_RATE_RATE x.rate) Reg.SRC_RATE_SAMPLING x.s444) Reg.SRC_RATE_DEPTH x.d12
  stSet m Reg.RC_RATE_MAX_KBPS (stRN 0) 0 (if x.w = 7680 then 120000 else if x.w = 3840 then 40000 else 12000)

/-- The channels of a region with their lanes: a quad-link 8K source takes lanes 0 to 3, else each lane its own. -/
def soloChans (r : Nat) (sources : List (Nat × Nat)) : List (Nat × Tbl Nat) :=
  let mine := sources.filter (fun x => x.1 / 16 == r && x.1 % 16 < 4)
  match mine.find? (fun x => x.1 % 16 == 0 && (soloSrc x.2).w == 7680) with
  | some x => [(r * 4, soloDesc x.1 true (soloSrc x.2))]
  | none => (mine.filter (fun x => soloSingle (soloSrc x.2))).map (fun x =>
      (r * 4 + x.1 % 16, soloDesc x.1 false (soloSrc x.2)))

/-- PT_MAC and PT_IPV4 of port 8 and the group base of region `r` (R445, R490). -/
def Dev.soloAddr (d : Dev) (otp : Otp) (r : Nat) : Nat × Nat × Nat :=
  if bitOf (d.boardAt 4 4) 1 then (d.boardAt (0x130 + r * 16) 6, d.boardAt (0x138 + r * 16) 4, d.boardAt (0x13C + r * 16) 4)
  else
    let hash := Config.shake256 otp.serial
    let h := 1 + hash.getD 0 0 % 254
    let g := hash.getD 1 0 % 256
    (0x02DF08000000 + h * 2 ^ 16 + g * 2 ^ 8 + (16 * r + 8), 0xA9FE0000 + h * 2 ^ 8 + (16 + r), 0xEFFF0000 + h * 2 ^ 8 + 16 * r)

/-- Lanes 0 to 3 receive SDI at any rate; lane 8 is a 100 GbE port on one lane (R445). -/
def Dev.soloLanes (d : Dev) (otp : Otp) (r : Nat) : Dev :=
  let cfg (n : Nat) (l : List (Row × Nat)) : Tbl Nat := l.foldl (fun m x => tput m (x.1.key (lanePage (r * 16 + n)) 0) x.2) []
  let d := d.each [0, 1, 2, 3] (fun d n =>
    d.laneApply r n (cfg n [(Reg.LN_CFG_MODE, 2), (Reg.LN_CFG_RATE, 0), (Reg.LN_PORT_WIDTH, 0)]))
  let d := d.laneApply r 8 (cfg 8 [(Reg.LN_CFG_MODE, 1), (Reg.LN_CFG_RATE, 2), (Reg.LN_PORT_WIDTH, 0), (Reg.LN_PORT_ADMIN_UP, 1)])
  let a := d.soloAddr otp r
  let d := (d.wrPair Reg.PT_MAC_LO Reg.PT_MAC_HI (wPT r 8) a.1).wr Reg.PT_IPV4 (wPT r 8) a.2.1
  (d.wr Reg.SV_CTRL_PORT (wSV r 0) 8).wr Reg.SV_CTRL_RT (wSV r 0) 1

/-- The real-time flow of a standalone channel's rendition; its peak rate and burst have no stated value (free values). -/
def Dev.soloFlow (d : Dev) (otp : Otp) (r c : Nat) : Dev :=
  let b := wFLOW r c
  let put (m : Tbl Nat) (row : Row) (v : Nat) (i : Nat := 0) : Tbl Nat := tput m (row.key b i) v
  let m := put (put (put [] Reg.FL_CTRL_CHANNEL c) Reg.FL_CTRL_PORT 8) Reg.FL_CTRL_RT 1
  let m := put (put m Reg.FL_DST ((d.soloAddr otp r).2.2 + c % 16) 0) Reg.FL_DST 0xFFFF 1
  let m := put (put (put m Reg.FL_UDP_SRC_PORT 5004) Reg.FL_UDP_DST_PORT 5004) Reg.FL_L3_DSCP 34
  let m := put m Reg.SH_PIR (d.freeVal % 2 ^ 32)
  let d := d.freeNext
  let m := put m Reg.SH_PBS (d.freeVal % 2 ^ 32)
  let d := d.freeNext
  d.flNew r c m (lowestRank (d.ranksOn r 8 (some c)))

/-- A standalone channel is created by the Sheaf Manager where admission accepts it; the sizes of NAL units of R489 are free values. -/
def Dev.soloChan (d : Dev) (otp : Otp) (r c : Nat) (g : Tbl Nat) : Dev :=
  let nvs := [d.freeNv]
  let d := d.freeSkip 11
  let q : AdmReq :=
    { op := 1, tag := 0x100, chan := c, gen := 0, mask := 2 ^ r, span := 0, preempt := 0, protect := 0, prio := 0, cl4 := false, cfg := g }
  let o := d.evaluate q nvs
  if o.reason ≠ 0 then d else (d.create q o nvs).soloFlow otp r c

/-- A PTP time receiver on a region's port 8, as REFSEL entry 0 with PRIO 0, and the DPLL in AUTO. -/
def Dev.soloTime (d : Dev) (r : Nat) : Dev :=
  let b := pPTPI 0
  let old := d
  let d := ((d.wr Reg.PTP_CTRL_ROLE b 0).wr Reg.PTP_CTRL_PROFILE b 1).wr Reg.PTP_CTRL_PORT b (r * 16 + 8)
  let d := (((d.wr Reg.PTP_CTRL_EN b 1).setPtp 0 (fun x => { x with act := none })).ptpForget 0).ptpSet 0 ptpListening
  let e := pREF 0
  let d := ((d.wr Reg.REF_CTRL_EN e 1).wr Reg.REF_CTRL_TYPE e 2).wr Reg.REF_CTRL_SRC e (r * 16 + 8)
  let d := (d.wr Reg.REF_CTRL_PRIO e 0).wr Reg.DPLL_CTRL_MODE pDPLL 0
  d.refCommitted old

/-- Whether the device runs standalone (R445): the board record asks for it, or no host has appeared within 2 s. -/
def Dev.soloDue (d : Dev) : Bool :=
  d.sys.elected && !d.sys.standalone && d.sys.admOpen
    && (bitOf (d.boardAt 4 4) 0 || (!d.sys.hostSeen && (d.sys.firstElect.any (fun x => x + 2000000000 ≤ d.now))))

/-- STANDALONE_START (R445). -/
def execStandaloneStart (t : Nat) (sources : List (Nat × Nat)) (s : State) : Host.Outcome State Fault Refusal :=
  s.onDev (fun d0 =>
    let d := d0.advanceTo t
    if !d.soloDue then d
    else
      let rs := d.soloRegions.filter d.active
      let d := { d with sys := { d.sys with standalone := true } }
      let d := d.each rs (fun d r => d.soloLanes s.otp r)
      let d := d.each rs (fun d r => d.each (soloChans r sources) (fun d x => d.soloChan s.otp r x.1 x.2))
      match rs with
      | r :: _ => d.soloTime r
      | [] => d)

end Sys2Proof.Machine
end

