-- ==== Sys2Proof/Machine/Cl4.lean ====
section
/-! DEFINITION. The CL-4 personality (R411 to R427): its control port, commands, start-up and soft reset, timing and ASI outputs;
and the errors that a region SRAM reads (R309, R480). -/

namespace Sys2Proof.Machine

/-! ## Registers (R413 to R416, R421) -/

/-- The base of the channel block `n`. -/
def cl4Ch (n : Nat) : Nat := cl4B + 0x40 + n * 0x20

/-- The fields that lie at an SPI address, each with its base. -/
def cl4Fields (a : Nat) : List (Row × Nat) :=
  if a < 0x40 then (Reg.rows_cl4.filter (fun row => row.off == a)).map (fun row => (row, cl4B))
  else if a < 0xC0 then
    let n := (a - 0x40) / 0x20
    (Reg.rows_cl4ch.filter (fun row => row.off == (a - 0x40) % 0x20)).map (fun row => (row, cl4Ch n))
  else []

/-- CL4_IRQ_N is low (R421). -/
def Dev.cl4Irq (d : Dev) : Bool :=
  let stat := d.rd Reg.IRQ_STAT_BOOT cl4B + 2 * d.rd Reg.IRQ_STAT_CMD_DONE cl4B + 4 * d.rd Reg.IRQ_STAT_ALARM cl4B
  d.rd Reg.IRQ_STAT_BOOT cl4B == 1 || Nat.land stat (d.rd Reg.IRQ_EN cl4B) != 0

/-- STATUS.READY of the personality (R415). -/
def Dev.cl4Ready (d : Dev) : Bool := d.rd Reg.STATUS_READY cl4B == 1

/-- The settings of channel `n` as of its START (R418): FMT, HEVC, BIT10, the rate, VBV_MS, TS_RATE, and whether T_cpb was
raised (R417). -/
def Dev.cl4Settings (d : Dev) (n : Nat) : List Nat := tget d.sys.cl4Run n []

/-- STATUS and CH_STATE, which the personality computes when they are read; every other field is stored. -/
def Dev.cl4Word (d : Dev) (a : Nat) : Nat :=
  if a = 2 then
    let locked := d.dpllState == 2 && d.cl4Ref (d.rd Reg.DPLL_STATUS_REF pDPLL)
    b2n d.cl4Ready + 2 * b2n d.sys.cl4Cmd.isSome + 4 * b2n locked + 8 * b2n (d.llMode && d.llWidth != 3)
      + [0, 1, 2, 3].foldl (fun x n => x + b2n (d.chState n == 2) * 2 ^ (4 + n)) 0
  else if 0x40 ≤ a ∧ a < 0xC0 ∧ a % 0x20 = 0xA then
    let n := (a - 0x40) / 0x20
    d.chState n + 8 * b2n (d.live n && (d.cl4Settings n).getD 6 0 == 1)
  else (cl4Fields a).foldl (fun x f => if f.1.acc == .wo then x else x + d.rd f.1 f.2 * 2 ^ f.1.lo) 0

/-- One data word of a read: its value, and the device with the RC bits that it returned cleared (R413, R414, R421). EMU_ID is
no field of a table (R427). -/
def Dev.cl4Read (d : Dev) (bus a : Nat) : Nat × Dev :=
  if a = 0x3FE then (0xDF08, d)
  else
    let fs := cl4Fields a
    if fs.isEmpty then (bus, d)
    else (d.cl4Word a, d.each fs (fun d f => if f.1.acc == .rc then d.wr f.1 f.2 0 else d))

/-! ## Channels (R417) -/

/-- Whether a CL-4 format is 1080i, its SRC_RATE code and its size. -/
def cl4Fmt (f : Nat) : Bool × Nat × Nat × Nat :=
  (f < 2, [2, 3, 5, 6].getD (f % 4) 0, if f < 4 then 1920 else 3840, if f < 4 then 1080 else 2160)

/-- CH_RATE of a personality's channel (R416). -/
def Dev.cl4Rate (d : Dev) (n : Nat) : Nat := d.rd Reg.CH_RATE_HI (cl4Ch n) * 65536 + d.rd Reg.CH_RATE_LO (cl4Ch n)

/-- T_unit of a channel in whole µs, rounded up: a frame period, or a field period for 1080i. -/
def cl4Unit (f : Nat) : Nat :=
  let p := ratePeriod (cl4Fmt f).2.1
  ceilDiv (p.1 * 1000000) (p.2 * (if (cl4Fmt f).1 then 2 else 1))

/-- The settings in force of a START or APPLY. -/
def Dev.cl4Now (d : Dev) (n : Nat) : List Nat :=
  let b := cl4Ch n
  let f := d.rd Reg.CH_IN_FMT b
  [f, d.rd Reg.CH_CODEC_HEVC b, d.rd Reg.CH_CODEC_BIT10 b, d.cl4Rate n, d.rd Reg.CH_VBV_MS b, d.rd Reg.CH_TS_RATE b,
    b2n (decide (d.rd Reg.CH_VBV_MS b * 1000 < cl4Unit f))]

/-- The native descriptor of channel `n`. -/
def Dev.cl4Desc (d : Dev) (n : Nat) : Tbl Nat :=
  let b := cl4Ch n
  let f := d.rd Reg.CH_IN_FMT b
  let x := cl4Fmt f
  let hevc := d.rd Reg.CH_CODEC_HEVC b
  let ir := d.rd Reg.CH_GOP_IR b
  let top : List (Row × Nat) :=
    [(Reg.SRC_CTRL_IF, 0), (Reg.SRC_CTRL_LANE, n), (Reg.SRC_FMT_WIDTH, x.2.2.1), (Reg.SRC_FMT_HEIGHT, x.2.2.2),
     (Reg.SRC_FMT_INTERLACED, b2n x.1), (Reg.SRC_RATE_RATE, x.2.1), (Reg.ENC_CH_SLICES, 8), (Reg.ENC_CH_L_ENC, 2),
     (Reg.ENC_CH_CLASS, 0), (Reg.ENC_CH_NUM_REND, 1)]
  let rend : List (Row × Nat) :=
    [(Reg.RN_CTRL_CODEC, hevc), (Reg.RN_CTRL_PROFILE, 2), (Reg.RN_CTRL_EFFORT, 1), (Reg.RN_CTRL_CHROMA, 1),
     (Reg.RN_CTRL_DEPTH, if hevc = 1 then 1 else d.rd Reg.CH_CODEC_BIT10 b), (Reg.RN_CTRL_CONF_DEC, 1),
     (Reg.RN_GOP_MODE, if ir = 1 then 2 else 0), (Reg.RN_GOP_INTRA_PERIOD, if ir = 1 then 0 else d.rd Reg.CH_GOP_IDR b),
     (Reg.RN_GOP_REFRESH_PERIOD, 32), (Reg.RC_CTRL_MODE, 0), (Reg.RC_CTRL_AU_HRD, 1), (Reg.RC_RATE_MAX_KBPS, d.cl4Rate n),
     (Reg.RC_CPB_CPB_US, max (d.rd Reg.CH_VBV_MS b * 1000) (cl4Unit f)), (Reg.OUT_CTRL_ENCAP, 2),
     (Reg.OUT_PID_VIDEO_PID, d.rd Reg.CH_VPID b), (Reg.OUT_PID_PMT_PID, d.rd Reg.CH_PMTPID b),
     (Reg.OUT_PROG_PROGRAM, d.rd Reg.CH_PROG b)]
  rend.foldl (fun m y => stSet m y.1 (stRN 0) 0 y.2) (top.foldl (fun m y => stSet m y.1 0 0 y.2) [])

/-! ## ASI outputs (R340, R422, R423) -/

/-- The time of one packet at CH_TS_RATE, in ns (R423). -/
def Dev.asiPacketNs (d : Dev) (n : Nat) : Nat := ceilDiv 15040000 (max 1 ((d.cl4Settings n).getD 5 0))

/-- An output that sends a null packet is free again at `free`. -/
def Dev.setTsFree (d : Dev) (n free : Nat) : Dev :=
  let cur := tget d.sys.tsOut n (0, 0, 0)
  { d with sys := { d.sys with tsOut := tput d.sys.tsOut n (cur.1, cur.2.1, free) } }

/-- Packets whose instant passed while the output was off are not sent: the output goes on with those that are still to come. -/
def Dev.asiOn (d : Dev) (n : Nat) : Dev :=
  { d with sys := { d.sys with tsOut := tput d.sys.tsOut n (d.now, 0, d.now) } }

/-- ASI_PACKET_SEND (R340, R422, R423): the output, once free, sends the channel's next packet at its padded instant, and a null packet where
the next is more than one packet time away. -/
def execAsiPacketSend (r n t : Nat) (s : State) : Host.Outcome State Fault Refusal :=
  s.onDev (fun d0 =>
    let d := d0.advanceTo t
    let free := (tget d.sys.tsOut n (0, 0, 0)).2.2
    let len := d.asiPacketNs n
    if !(d.cl4On && d.cl4Ready && decide (r = 0) && decide (n < 4) && bitOf (d.rd Reg.ASI_CTRL_EN cl4B) n && d.lnMode (4 + n) == 4
        && !(d.region 0).killed && d.live n) || decide (d.now < free) then d
    else
      let null := (d.emit (.asi n none)).setTsFree n (d.now + len)
      match d.tsNext n n with
      | none => null
      | some x =>
        if x.1 ≤ d.now then ((d.tsPass n x (d.now + len)).emit (.asi n (some x.2.2))).emitted n
        else if d.now + len < x.1 then null
        else d)

/-! ## Commands (R418) -/

/-- Whether a field of channel `n` lies outside its range; a PID and a program number have their ranges from R242. -/
def Dev.cl4Bad (d : Dev) (n : Nat) : Bool :=
  let b := cl4Ch n
  let v := d.rd Reg.CH_VPID b
  let p := d.rd Reg.CH_PMTPID b
  let pid (x : Nat) : Bool := 0x10 ≤ x && x ≤ 0x1FFE
  7 < d.rd Reg.CH_IN_FMT b || d.cl4Rate n < 1000 || 150000 < d.cl4Rate n || d.rd Reg.CH_VBV_MS b < 20
    || 1000 < d.rd Reg.CH_VBV_MS b || (d.rd Reg.CH_GOP_IR b == 0 && d.rd Reg.CH_GOP_IDR b == 0) || !(pid v) || !(pid p)
    || v == p || d.rd Reg.CH_PROG b == 0

/-- FORMAT of R418. -/
def Dev.cl4Format (d : Dev) (n : Nat) : Bool :=
  let b := cl4Ch n
  let ts := d.rd Reg.CH_TS_RATE b * 100
  (d.rd Reg.CH_CODEC_HEVC b == 0 && 6 ≤ d.rd Reg.CH_IN_FMT b) || ts * 100 < d.cl4Rate n * 105 || 194400 < ts

/-- Posts CMD_RESULT. -/
def Dev.cl4Post (d : Dev) (code : Nat) : Dev :=
  let d := (d.wr Reg.CMD_RESULT_CODE cl4B code).wr Reg.IRQ_STAT_CMD_DONE cl4B 1
  { d with sys := { d.sys with cl4Cmd := none } }

/-- The request that the personality makes of admission (R411). -/
def Dev.cl4Req (d : Dev) (op n : Nat) : AdmReq :=
  { op := op, tag := 0x100, chan := n, gen := d.chGen n, mask := 1, span := 0, preempt := 0, protect := 0, prio := 8, cl4 := true,
    cfg := d.cl4Desc n }

/-- START and APPLY as admission answers them. The sizes of NAL units of R489 are free values, and so is the code of a native refusal
for which R418 has none. -/
def Dev.cl4Admit (d : Dev) (op n : Nat) : Dev :=
  let q := d.cl4Req op n
  let nvs := [d.freeNv]
  let d := d.freeSkip 11
  let other := d.freeVal
  let d := d.freeNext
  let o := d.evaluate q nvs
  if o.reason ≠ 0 then d.cl4Post (1 + other % 255)
  else
    let run := d.cl4Now n
    let d := if op = 1 then ((d.create q o nvs).asiOn n).asiOn (4 + n) else d.modifyTake q nvs
    ({ d with sys := { d.sys with cl4Run := tput d.sys.cl4Run n run } }).cl4Post 0

/-- The answer to a command (R418, R426). -/
def Dev.cl4Answer (d : Dev) (op n : Nat) : Dev :=
  let running := d.chState n == 1 || d.chState n == 2
  if op = 1 then
    if d.cl4Bad n then d.cl4Post 1
    else if d.live n then d.cl4Post 2
    else if d.cl4Format n then d.cl4Post 4
    else d.cl4Admit 1 n
  else if op = 2 then
    if running then (d.stopChan n 0x20 false (d.frameFrom n (d.nowTu : Nat))).cl4Post 0 else d.cl4Post 3
  else
    if d.cl4Bad n then d.cl4Post 1
    else if running && d.cl4Now n != d.cl4Settings n then d.cl4Post 2
    else if d.cl4Format n then d.cl4Post 4
    else d.cl4Admit 2 n

/-- A write of CMD (R418): ignored while BUSY; an undefined OP is answered with BAD_PARAM. -/
def Dev.cl4Command (d : Dev) (op n : Nat) : Dev :=
  if d.sys.cl4Cmd.isSome then d
  else if op = 0 ∨ 3 < op then d.cl4Post 1
  else { d with sys := { d.sys with cl4Cmd := some (op, n) } }

/-- The personality takes the command that waits, or one that is written and taken at once; it waits while the device is
re-placing and until admission opens (R59, R426, R447). -/
def Dev.cl4Take (d : Dev) (op n : Nat) : Dev :=
  if d.cl4On = false ∨ d.cl4Ready = false ∨ 4 ≤ n then d
  else
    let d := d.cl4Command op n
    if d.sys.cl4Cmd ≠ some (op, n) ∨ d.rd Reg.ADM_STATUS_INTERNAL pSHM = 1 ∨ d.sys.admOpen = false then d else d.cl4Answer op n

/-- CL4_START (R411, R417, R418). -/
def execCl4Start (n : Nat) (s : State) : Host.Outcome State Fault Refusal := s.onDev (fun d => d.cl4Take 1 n)

/-- CL4_STOP (R79, R418). -/
def execCl4Stop (n : Nat) (s : State) : Host.Outcome State Fault Refusal := s.onDev (fun d => d.cl4Take 2 n)

/-- CL4_APPLY (R62, R418, R426). -/
def execCl4Apply (n : Nat) (s : State) : Host.Outcome State Fault Refusal := s.onDev (fun d => d.cl4Take 3 n)

/-! ## Timing (R425) -/

/-- GENLOCK in CL-4-only mode. An undefined SRC changes nothing. -/
def Dev.genlock (d : Dev) : Dev :=
  let src := d.rd Reg.GENLOCK_SRC cl4B
  let e := pREF 11
  let old := d
  if d.sys.mode ≠ 1 ∨ 2 < src then d
  else if src = 0 then (d.wr Reg.DPLL_CTRL_MODE pDPLL 2).refCommitted old
  else
    let d := ((d.wr Reg.REF_CTRL_EN e 1).wr Reg.REF_CTRL_SRC e 0).wr Reg.DPLL_CTRL_MODE pDPLL 0
    let d := if src = 1 then
        let d := (d.wr Reg.REF_CTRL_TYPE e 1).wr Reg.REF_CTRL_PIN_KIND e 2
        (d.wr Reg.REF_CTRL_FRAME_RATE e (d.rd Reg.GENLOCK_RATE cl4B)).wr Reg.REF_CTRL_QL_SW e 3
      else d.wr Reg.REF_CTRL_TYPE e 4
    d.refCommitted old

/-! ## Start-up and soft reset (R419, R420) -/

/-- The lanes that the personality configures, with their MODE and RATE: SDI inputs, ASI outputs, and the legacy link. -/
def cl4Lanes : List (Nat × Nat × Nat) :=
  [(0, 2, 0), (1, 2, 0), (2, 2, 0), (3, 2, 0), (4, 4, 0), (5, 4, 0), (6, 4, 0), (7, 4, 0), (11, 3, 2)]

/-- Removes the personality's registers from a table: each takes its reset value. -/
def dropCl4 (t : Tbl Nat) : Tbl Nat := tkeep (fun k _ => k < cl4B * 32) t

/-- The start-up order (R419), up to READY and BOOT; the personality acquires the locks of the pages that it configures, and
recovers them. -/
def Dev.cl4Startup (d : Dev) : Dev :=
  if d.cl4On = false then d
  else
    let d := d.each cl4Lanes (fun d x =>
      let b := lanePage x.1
      let set (m : Tbl Nat) (row : Row) (v : Nat) : Tbl Nat := tput m (row.key b 0) v
      d.laneApply 0 x.1 (set (set (set [] Reg.LN_CFG_MODE x.2.1) Reg.LN_CFG_RATE x.2.2) Reg.LN_PORT_WIDTH 0))
    let d := d.each (cl4Lanes.map (·.1) ++ [12, 13, 14, 15]) (fun d n =>
      let b := lanePage n
      ((d.wr Reg.LOCK_OWNER b 0x30).wr Reg.LOCK_BROKEN b 0).wr Reg.STATUS_SUSPECT b 0)
    (d.genlock.wr Reg.STATUS_READY cl4B 1).wr Reg.IRQ_STAT_BOOT cl4B 1

/-- The CL-4 soft reset: the command in progress is discarded (R426). -/
def Dev.cl4Reset (d : Dev) : Dev :=
  let d := d.each [0, 1, 2, 3] (fun d n =>
    if d.chState n = 3 then (d.wr Reg.CH_STATE_STOP_REASON (wCHSTAT n) 0x20).toQuarantine n else d.stopChan n 0x20 true 0)
  let d := if d.llMode then d.llDown else d
  let d := { d with regs := dropCl4 d.regs, sys := { d.sys with spiLast := 0, cl4Cmd := none, cl4Run := [], tsOut := [] } }
  let d := (d.breakLocksOf 0x30).wr Reg.RGN_RST_CAUSE (blk 0 ixRGN) 6
  d.cl4Startup

/-- CL4_SOFT_RESET (R419, R420, R426, R446). -/
def execCl4SoftReset (s : State) : Host.Outcome State Fault Refusal :=
  s.onDev (fun d => if d.cl4On && d.active 0 then d.cl4Reset else d)

/-! ## The control port (R412 to R416) -/

/-- One data word of a write. -/
def Dev.cl4Write (d : Dev) (a v : Nat) : Dev :=
  if a = 0x00F then (if v = 0x5A5A ∧ d.active 0 = true then d.cl4Reset else d)
  else if d.cl4Ready = false then d
  else if a = 0x008 then d.cl4Command (v % 16) (v / 16 % 4)
  else
    let link := d.rd Reg.LL_CTRL_EN cl4B
    let asi := d.rd Reg.ASI_CTRL_EN cl4B
    let d := d.each (cl4Fields a) (fun d f => if f.1.acc == .rw then d.wr f.1 f.2 (v / 2 ^ f.1.lo) else d)
    if a = 0x010 then d.genlock
    else if a = 0x022 then d.each ((List.range 4).filter (fun n => bitOf v n && !(bitOf asi n))) Dev.asiOn
    else if a = 0x020 ∧ link = 1 ∧ v % 2 = 0 ∧ d.llMode = true then d.llDown
    else if a = 0x020 ∧ link = 0 ∧ v % 2 = 1 then d.each [4, 5, 6, 7] Dev.asiOn
    else d

/-- The address of data word `i` of a transaction. -/
def spiAddr (header i : Nat) : Nat :=
  if bitOf header 14 then (header % 1024 + i) % 1024 else header % 1024

/-- SPI_WRITE (R412, R414, R415, R416, R419, R425): each completed data word is applied in turn. -/
def execSpiWrite (header : Nat) (data : List Nat) (s : State) : Host.Outcome State Fault Refusal :=
  s.onDev (fun d =>
    if d.cl4On = false ∨ bitOf header 15 = true ∨ bitsOf header 10 4 ≠ 0 then d
    else
      (data.zipIdx).foldl (fun (d : Dev) x =>
        ({ d with sys := { d.sys with spiLast := x.1 % 65536 } } : Dev).cl4Write (spiAddr header x.2) (x.1 % 65536)) d)

/-- The data words of a read, from word `i`. -/
def Dev.spiWords (bus header : Nat) : Nat → Nat → Dev → List Nat × Dev
  | 0, _, d => ([], d)
  | n + 1, i, d =>
    let x := d.cl4Read bus (spiAddr header i)
    let y := Dev.spiWords bus header n (i + 1) x.2
    (x.1 :: y.1, y.2)

/-- SPI_READ (R12, R412, R414, R421): the turnaround word, then one word per address. -/
def execSpiRead (header n : Nat) (s : State) : Host.Outcome State Fault Refusal :=
  s.onDev (fun d =>
    if d.cl4On = false ∨ bitOf header 15 = false then d
    else if bitsOf header 10 4 ≠ 0 then d.emit (.spi (List.replicate (n + 1) 0) d.cl4Irq)
    else
      let bus := d.sys.spiLast
      let x := Dev.spiWords bus header n 0 d
      let d := { x.2 with sys := { x.2.sys with spiLast := x.1.getLast?.getD bus } }
      d.emit (.spi (bus :: x.1) d.cl4Irq))

/-! ## Region SRAM (R309, R480, R481) -/

/-- A store entry that reads uncorrectable (R480): its task ends FAILED, and the entry is retired. -/
def Dev.sramRetire (d : Dev) (r idx : Nat) (inj : Bool) : Dev :=
  let idx := idx % 4096
  let d := match tget? (d.rach r).ents idx with
    | some (.task ds _ (.held inst _) _) =>
      let ix := classBlock ds.cls inst
      let d := (d.endJob r idx inst ds true).setEnt r idx .retired
      let d := d.err (blk r ix) 0x55 1 (idx + d.entGen r idx * 4096) inj
      if ds.cls = 0 ∧ inj = false then d.jobFailure r ix else d
    | _ => d.setEnt r idx .retired
  (d.pump r).syncRach r

/-- The packet whose buffer word reads uncorrectable (R480): the first that waits on flow `f`. -/
def Dev.sramPacket (d : Dev) (r f : Nat) : Dev :=
  match (d.flow r f).queue with
  | q :: rest => ((d.setFlow r f (fun x => { x with queue := rest })).inc Reg.FL_STATE_DROP (wFLOW r f)).emit (.drop r f q.seq)
  | [] => d

/-- The statistics record whose staging word reads uncorrectable (R160, R480): the oldest complete one is not written. -/
def Dev.sramStat (d : Dev) (c rd : Nat) : Dev :=
  let full (x : PicAcc) : Bool := picSlices (d.chan c).cfg ≤ x.slices
  let d := if (tget? d.rends (c * 8 + rd)).isSome then
      d.setRend c rd (fun x => match x.accs with
        | (_, a) :: t => if full a then { x with accs := t } else x
        | [] => x)
    else d
  d.statLost c rd

/-- SRAM_READ_ERROR (R15, R16, R309, R477, R480, R481): `idx` is the task of a line-buffer job, the store entry, the flow, or
channel × 8 + rendition. An armed injection of that kind plants the error. -/
def execSramReadError (r sram word : Nat) (ue : Bool) (idx : Nat) (s : State) : Host.Outcome State Fault Refusal :=
  s.onDev (fun d =>
    let pg := blk r ixRGN
    if 8 ≤ r ∨ d.active r = false ∨ 4 ≤ sram then d
    else
      let inj := d.rd Reg.RGN_SRAM_INJ_ARM pg == 1 && d.rd Reg.RGN_SRAM_INJ_SRAM pg == sram
        && d.rd Reg.RGN_SRAM_INJ_UE pg == b2n ue
      let d := if inj then d.wr Reg.RGN_SRAM_INJ_ARM pg 0 else d
      let info := sram + word % 65536 * 65536
      if ue = false then (d.inc Reg.RGN_SRAM_CE pg).err pg 0x50 0 info inj
      else
        let d := (d.inc Reg.RGN_SRAM_UE pg).err pg 0x51 1 info inj
        if sram = 0 then d.jobFails r idx inj
        else if sram = 1 then d.sramRetire r idx inj
        else if sram = 2 then d.sramPacket r idx
        else d.sramStat (idx / 8 % 128) (idx % 8))

end Sys2Proof.Machine
end

