-- ==== Sys2Proof/Machine/Resets.lean ====
section
/-! DEFINITION. The resets (R446 to R450, R455, R456, R459, R460), boot (R429 to R434, R447, R490), the loss of links and heartbeats
(R24, R28), and what leads back to service (R284, R318, R449). -/

namespace Sys2Proof.Machine

/-! ## What a reset keeps (R455) -/

/-- Whether a key lies on region `r`'s pages and windows. -/
def inRegion (r k : Nat) : Bool := keyIn (regBase r) 0x04000000 k

/-- Whether a field belongs to one of the classes. -/
def hasCls (cs : List Cls) (k : Nat) : Bool :=
  match classOf k with
  | some x => cs.contains x
  | none => false

/-- Lists every entry of `m` in a table. -/
def putAll (t m : Tbl Nat) : Tbl Nat := m.foldl (fun (x : Tbl Nat) e => tput x e.1 e.2) t

/-- The last generation of a channel or a flow, which WARM and REGION keep (R251, R448). -/
def isGen (k : Nat) : Bool :=
  let o := k / 32 % 0x04000000
  k % 32 == 8 && ((0x01080000 ≤ o && o < 0x010A0000 && o % 0x40 == 0x3C)
    || (0x01000000 ≤ o && o < 0x01002000 && o % 0x40 == 0))

/-- What the island of region `r` goes on knowing through a reset of the core: its ports' configuration, its timebase's state
and the temperature. -/
def coreKeys (r : Nat) : List Nat :=
  [0, 1, 2, 3].flatMap (fun p =>
      [Reg.MP_CFG_RATE, Reg.MP_CFG_DENSITY, Reg.MP_CFG_RANKS, Reg.MP_CAP_DATA_MIB].map (fun row => row.key (mpPage r p) 0))
    ++ [Reg.TB_STATUS_VALID, Reg.TB_OFS_MASTER, Reg.TB_ADJ_RESULT, Reg.TB_ADJ_PENDING].map (fun row => row.key (blk r ixTIMEBASE) 0)
    ++ [Reg.RGN_TEMP_TJ.key (blk r ixRGN) 0]

/-! ## POR and PIN (R5 to R7, R429, R434, R446, R447, R463, R470, R490) -/

/-- What the islands agree on after comparing their straps: MODE_SEL, BOOT_SEL, BOARD_ID, and the object of STRAP_ERR. -/
def strapsOf (l : List Straps) : Nat × Nat × Nat × Option Nat :=
  match l with
  | [] => (3, 0, 0, some 0xFF)
  | x :: rest =>
    let m := x.modeSel % 4
    let b := x.bootSel % 4
    if rest.all (fun y => y == x) then
      (m, b, x.boardId % 16, if m = 3 ∨ b = 3 then some m else none)
    else (3, b, x.boardId % 16, some 0xFF)

/-- Whether a body is a board record with every field in its range (R490). -/
def boardOk (b : List Nat) : Bool :=
  let f (off n : Nat) : Nat := fromLE ((b.drop off).take n)
  let len := f 2 2
  let zero (off n : Nat) : Bool := ((b.drop off).take n).all (· == 0)
  let mem (i : Nat) : Bool :=
    let x := f (0x30 + i * 8) 1
    x < 64 && x / 2 % 4 ≤ 2 && x / 8 % 4 ≤ 2 && zero (0x31 + i * 8) 1
  f 0 2 == 1 && 0x1B0 ≤ len && len ≤ 0xFF00 && len ≤ b.length && zero 0x1B0 (len - 0x1B0) && zero 0x24 12 && f 4 4 < 4
    && 1 ≤ f 0xC 4 && f 0xC 4 ≤ 100000 && (List.range 32).all mem && (List.range 8).all (fun r => zero (0x136 + r * 16) 2)

/-- Whether a record's signature verifies, where the customer key slot is fused (R434): the last 114 bytes over those before. -/
def recordSigned (otp : Otp) (b : List Nat) : Bool :=
  otp.custKey.isNone || Config.ed448Verify 2 (ctxBytes "DF8-REC-1" ++ b.take (b.length - 114)) (b.drop (b.length - 114))

/-- The copy of a signed record that the device takes (R434, R440, R490), with AUTH_FAIL for each that does not verify. -/
def Dev.loadRecord (d : Dev) (otp : Otp) (rec_ : Nat) (good : List Nat → Bool) : Dev × Option (List Nat) :=
  let cs := [0, 1].filterMap (fun i => ((tget? d.nvm.recs (2 * rec_ + i)).filter (·.ok)).map (fun x => (i, x)))
  let d := d.each (cs.filter (fun c => !(recordSigned otp c.2.body))) (fun d c => d.authFail rec_ 0x4B 0 c.1)
  let us := cs.filter (fun c => recordSigned otp c.2.body && good c.2.body)
  let best := us.foldl (fun (b : Option RecCopy) c => match b with
    | some x => if newer32 c.2.seq x.seq then some c.2 else some x
    | none => some c.2) none
  (d, best.map (·.body))

/-- The number of the newest entry held, in the buffer or in NOR. -/
def Dev.syncHead (d : Dev) : Dev :=
  match (d.nvm.sectors.flatten ++ d.nvm.buf).getLast? with
  | some e => d.wr Reg.NVM_LOG_HEAD pNVM e.seq
  | none => d

/-- Whether PIN keeps a field: classes A and L (R455); of SHM.ELECT only the count since POR (R35). -/
def pinKeeps (k : Nat) : Bool :=
  hasCls [.a, .l] k && (k / 32 != 0x100 || k == Reg.ELECT_ELECT_COUNT.key pSHM 0) && k != Reg.RST_INFO_PARKED.key pSHM 0

/-- What survives in the NOR and, at a PIN reset, in the islands' buffer (R440, R442, R455, R483). -/
def Nvm.afterReset (n : Nvm) (pin : Bool) : Nvm :=
  { n with running := none, queue := [], buf := if pin then n.buf else [], bufAt := if pin then n.bufAt.map (fun _ => 0) else [],
           lostBefore := pin && n.lostBefore, bootCount := (n.bootCount + 1) % 2 ^ 32, board := none, eqTable := none,
           pfailStart := 0, pfailLog := if pin then n.pfailLog else [], sevCnt := [], sumSeen := [], sumHour := [], checkAt := 0 }

/-- The release of POR, or of PIN. -/
def Dev.powerReset (d0 : Dev) (otp : Otp) (pin : Bool) (st : Nat × Nat × Nat × Option Nat) : Dev :=
  let d : Dev :=
    { Dev.reset with
      regs := if pin then tkeep (fun k _ => pinKeeps k) d0.regs else []
      nvm := d0.nvm.afterReset pin
      free := d0.free
      out := d0.out
      sys := { Dev.reset.sys with mode := st.1, bootSel := st.2.1, boardId := st.2.2.1, strapErr := st.2.2.2.isSome,
                                  unlocked := pin && d0.sys.unlocked } }
  let d := d.wrB Reg.RST_INFO_LAST pSHM pin
  let d := d.each regions (fun d r => d.wrB Reg.RGN_RST_CAUSE (blk r ixRGN) pin)
  let d := ((d.wrB Reg.HU_STAT_PFAIL pHOLDUP d.nvm.pfail).syncTail).syncHead
  let d := match st.2.2.2 with
    | some obj => d.event pSHM 8 obj 0
    | none => d
  let x := d.loadRecord otp 1 boardOk
  let y := x.1.loadRecord otp 2 (fun _ => true)
  let d := y.1.setNvm (fun n => { n with board := x.2, eqTable := y.2 })
  let d := if x.2.isNone then d.event pHOLDUP 1 0 0 else d
  let d := d.syncGl otp
  if otp.intact then d else (d.freeNext.err pFUSE 0x5D 4 (d.freeVal % 2 ^ 32)).chipFatal

/-- The whole state at the release; every island samples its straps. -/
def State.powerReset (s : State) (pin : Bool) (straps : List Straps) : State :=
  if straps.length = 8 then { s with ram := [], dev := s.dev.powerReset s.otp pin (strapsOf straps) } else s

/-- POR (R4 to R7, R446, R447, R455, R456). -/
def execPor (straps : List Straps) (s : State) : Host.Outcome State Fault Refusal := .next (s.powerReset false straps)

/-- PIN_RESET (R446): RST_N held low for at least 10 µs. -/
def execPinReset (straps : List Straps) (lowUs : Nat) (s : State) : Host.Outcome State Fault Refusal :=
  .next (if 10 ≤ lowUs then s.powerReset true straps else s)

/-- The limits in mV at which a rail's monitor trips (R462, R463): VDD_CORE_0 to VDD_CORE_7, VDD_SRAM, VDD_PHY_MEM, VDDQ_MEM,
VDD_SERDES_LV, VDD_SERDES_HV, VDD_AON and VDDIO, whose monitor trips at 1.62 V. -/
def railLimits (rail : Nat) : Nat × Nat :=
  if rail < 8 ∨ rail = 9 then (720, 780)
  else if rail = 10 then (480, 520)
  else if rail = 12 then (1160, 1240)
  else if rail = 14 then (1620, 1890)
  else (770, 830)

/-- RAIL_FAULT (R462, R463): a rail at `mv` mV, outside its limits for more than 2 µs, raises POR; the straps are those of its release. -/
def execRailFault (rail : RailMv) (outNs : Nat) (straps : List Straps) (s : State) : Host.Outcome State Fault Refusal :=
  let x := railLimits rail.rail
  .next (if rail.rail < 15 ∧ 2000 < outNs ∧ (rail.mv < x.1 ∨ x.2 < rail.mv) then s.powerReset false straps else s)

/-! ## Boot (R429 to R432, R447) -/

/-- An island verifies an image set (R429 to R432): the sources in BOOT_SEL's order and both slots of each, until one yields a valid set; then
the set in use. After a WARM reset it verifies the region
images again (R448). The region's firmware starts once the election of this reset has run (R31). -/
def Dev.bootVerify (d : Dev) (otp : Otp) (i source slot : Nat) (img : ImageSet) : Dev :=
  let x := d.region i
  let warm : Bool := x.core == .warm
  let other : Bool := d.sys.booted && (source != d.sys.bootSource || slot % 2 != d.sys.bootSlot)
  let absent : Bool := !d.sys.booted && (d.bootNext != some source || d.sys.bootFails.contains (source * 2 + slot % 2))
  if 8 ≤ i ∨ 3 ≤ source ∨ (d.island i).aon = false ∨ other = true ∨ absent = true ∨ (warm = false ∧ (d.island i).verified = true) then d
  else
    let v := d.imageCode otp img
    let d := d.freeNext
    if v.1 ≠ 0 then
      let d := if d.sys.booted then d
        else { d.wr Reg.GL_RESULT_CODE pGLUME v.1 with sys := { d.sys with bootFails := d.sys.bootFails ++ [source * 2 + slot % 2] } }
      d.authFail v.2 v.1 source slot
    else
      let d := if d.sys.booted then d
        else
          let d := { d with sys := { d.sys with booted := true, bootSource := source, bootSlot := slot % 2,
                                                svnRun := [img.svn0 % 64, img.svn1 % 64, img.svn2 % 64] } }
          (d.syncGl otp).bootEntry
      let d := (d.setIsland i (fun y => { y with verified := true })).syncElect
      let d := d.setRegion i (fun y => { y with ready := true })
      d.when (d.mayStart i) (fun d => d.coreUp i)

/-- BOOT_IMAGE_VERIFY (R29, R430 to R432, R447, R448). -/
def execBootImageVerify (i source slot : Nat) (img : ImageSet) (s : State) : Host.Outcome State Fault Refusal :=
  s.onDev (fun d => d.bootVerify s.otp i source slot img)

/-- The redundancy records are reloaded from NVM record 4 (R439, R447, R455): each group that is valid. -/
def Dev.loadGroups (d : Dev) : Dev :=
  match d.newest 4 with
  | none => d
  | some (_, c) =>
    d.each groups (fun d n =>
      let v := fromLE ((c.body.drop (4 * n)).take 4)
      let a := bitsOf v 4 3
      let b := bitsOf v 8 3
      let s := bitsOf v 12 3
      let named := if v % 4 = 1 then [a, s] else [a, b, s]
      if v % 4 = 0 ∨ d.pgValid n (v % 4) a b s (bitsOf v 16 8) = false ∨ (d.sys.mode ≠ 0 ∧ named.contains 0 = true) then d
      else d.pgAccept n v)

/-- In a CL-4-only boot regions 1 to 7 enter PARK (R447). -/
def Dev.parkRest (d : Dev) : Dev :=
  if d.sys.mode ≠ 1 then d
  else d.each (regions.drop 1) (fun d r =>
    let d := d.setRegion r (fun x => { x with core := .off, pwr := .park, target := none })
    (d.wr Reg.RGN_PWR_STATE (blk r ixRGN) 3).lanesNow r)

/-- What the first NORMAL after a reset brings (R447), and the start-up of the CL-4 personality (R411, R419). -/
def Dev.afterNormal (d : Dev) (r : Nat) (first : Bool) : Dev :=
  let d := if first then d.parkRest.loadGroups else d
  if r = 0 ∧ d.cl4Ready = false then d.cl4Startup else d

/-- RA_MODE_NORMAL (R239, R318, R321, R447): firmware enters NORMAL dispatch; its ports' training is complete before. An attempt
of R321 that waited may now be made. -/
def execRaModeNormal (r : Nat) (s : State) : Host.Outcome State Fault Refusal :=
  s.onDev (fun d =>
    let training := d.raMode r == 0 && [0, 1, 2, 3].any (fun p => d.rd Reg.MP_STATE_STATE (mpPage r p) == 1)
    if d.active r = false ∨ d.raMode r = 1 ∨ training = true then d
    else
      let first := !d.sys.admOpen
      (d.modeNormal r).afterNormal r first)

/-! ## REGION reset (R31, R284, R400, R446, R449, R454 to R456) -/

/-- A slot's grant where region `r` takes part in it, before `r` is reset (R449). -/
def Dev.grantsOf (d : Dev) (r : Nat) : Dev :=
  d.each (groups.flatMap (fun n => [(n, 0), (n, 1)])) (fun d x =>
    if (d.pgActs x.1)[x.2]? = some r ∨ d.pgStby x.1 = r then d.grantSlot x.1 x.2 else d)

/-- The tables of a region that a reset or PARK empties. `gens` keeps the generations of its dispatcher. -/
def Dev.dropTables (d : Dev) (r : Nat) (gens : Bool) : Dev :=
  let out (n : Nat) (k : Nat) : Bool := k / n != r
  let ra : Rachis := { Rachis.init with gens := if gens then (d.rach r).gens else [] }
  { d with
    strms := tkeep (fun k _ => out 2048 k) d.strms
    slots := tkeep (fun k _ => out 2048 k) d.slots
    ces := tkeep (fun k _ => out 8 k) d.ces
    des := tkeep (fun k _ => out 2 k) d.des
    ras := if gens then tput d.ras r ra else tdel d.ras r
    flows := tkeep (fun k _ => out 2048 k) d.flows
    nodes := tkeep (fun k _ => if k < 0x1000 then out 256 k else (k - 0x1000) / 16 != r) d.nodes
    busy := tkeep (fun k _ => out 16 k) d.busy
    lanes := tkeep (fun k _ => out 16 k) d.lanes
    leg := if r = 0 then LegSt.init else d.leg
    pols := tkeep (fun k _ => out 256 k) d.pols
    arbs := tkeep (fun k _ => out 16 k) d.arbs
    mirs := tkeep (fun k _ => d.stbyFor (d.lead (k / 8)) != some r) d.mirs }

/-- The pending writes, commits and lock results of a region's pages (R397, R455). -/
def Dev.dropPending (d : Dev) (r : Nat) : Dev :=
  let page (p : Nat) : Bool := regionOf p != some r
  { d with
    shadow := tkeep (fun k _ => !(inRegion r k)) d.shadow
    pend := tkeep (fun k _ => page k) d.pend
    lockRes := tkeep (fun k _ => page (k / 256)) d.lockRes
    lease := tkeep (fun k _ => page k) d.lease
    snaps := tkeep (fun k _ => page (k % 2 ^ 32)) d.snaps
    lowWords := tkeep (fun k _ => page (k % 2 ^ 32)) d.lowWords
    setsWritten := d.setsWritten.filter (fun x => x / 32 != r) }

/-- The locks that an owner holds outside region `r`'s own pages break (R400); those inside return to their default (R455). -/
def Dev.breakAway (d : Dev) (w r : Nat) : Dev :=
  d.each (allPages.filter (fun p => regionOf p != some r)) (fun d p => if d.owns w p then d.breakLock p else d)

/-- The personality stops with region 0's firmware (R411, R419). -/
def Dev.cl4Stop (d : Dev) : Dev :=
  { d with regs := dropCl4 d.regs, sys := { d.sys with spiLast := 0, cl4Cmd := none, cl4Run := [], tsOut := [] } }

/-- The fields of region `r` that a REGION reset keeps: classes A, B (from the master), K and L; class C comes from the standing
copy. -/
def regionKeeps (r k : Nat) : Bool :=
  !(inRegion r k) || isGen k || hasCls [.a, .b, .k, .l] k || (coreKeys r).contains k

/-- A REGION reset begins. `cause` is that of RGN_RST; `down` that of REGION_DOWN. -/
def Dev.regionReset (d : Dev) (r cause down : Nat) : Dev :=
  let due := d.sys.electAt
  let d := d.event pSHM 9 r down
  let d := (d.regionLost r 2).grantsOf r
  let d := if cause = 3 then { d with sys := { d.sys with electAt := due } } else d
  let d := d.breakAway (fwOf r) r
  let d := if r < 2 then d.breakAway (r + 1) r else d
  let d := if r = 0 ∧ d.cl4On = true then d.cl4Stop else d
  let copy := (d.region r).laneCopy
  let d := (d.dropTables r false).dropPending r
  let d : Dev := { d with regs := putAll (tkeep (fun k _ => regionKeeps r k) d.regs) copy, mps := tkeep (fun k _ => k / 4 != r) d.mps }
  let d := d.setRegion r (fun x =>
    { Rgn.init with laneCopy := copy, held := x.held, failedAt := some (x.failedAt.getD d.now) })
  let d := (d.wr Reg.RGN_RST_CAUSE (blk r ixRGN) cause).inc Reg.RGN_RST_COUNT (blk r ixRGN)
  d.stolonTables.pgEvalAll

/-- The whole state: region memory is lost (R456). A region held after its thermal trip stays as it is, and one that a
CL-4-only boot parked stays parked (R447). -/
def State.regionReset (s : State) (r cause down : Nat) : State :=
  if (s.dev.region r).held || (s.dev.sys.mode == 1 && (s.dev.region r).pwr == .park) then s else { (s.loseRam r 0 (2 ^ 64)) with dev := s.dev.regionReset r cause down }

/-- A command under a page's lock whose effect goes beyond the device (R398). -/
def State.lockedS (s : State) (w page : Nat) (f : State → State) : State :=
  if isPage page && (s.dev.expire page).gate w page == .open_ then f { s with dev := (s.dev.expire page).restartLease page }
  else { s with dev := s.dev.locked w page id }

/-- REGION_RESET (R394, R446, R449, R460). -/
def execRegionReset (w r : Nat) (s : State) : Host.Outcome State Fault Refusal :=
  .next (if r < 8 then s.lockedS w (blk r ixRGN) (fun s => s.regionReset r 3 3) else s)

/-- REGION_UP (R273, R318, R449): the reset completes; the ports train and the region starts in BOOT dispatch. -/
def execRegionUp (r t : Nat) (s : State) : Host.Outcome State Fault Refusal :=
  s.onDev (fun d0 =>
    let d := d0.advanceTo t
    let x := d.region r
    if 8 ≤ r ∨ x.core ≠ .reset ∨ x.held = true ∨ (d.island r).verified = false ∨ d.sys.booted = false ∨ d.sys.mode = 3
        ∨ d.sys.mediaOk = false then d
    else
      let d := (d.setRegion r (fun y => { y with failedAt := none })).setIsland r (fun y => { y with fatal := false })
      (d.coreUp r).event pSHM 10 r 0)

/-- THERMAL_TRIP (R3, R449, R460, R466, R478): 160 °C, that is 640 units of 0.25 °C; the region is held in REGION reset. -/
def execThermalTrip (r : Nat) (tj : Int) (s : State) : Host.Outcome State Fault Refusal :=
  if 8 ≤ r ∨ tj < 640 then .next s
  else
    let b := blk r ixRGN
    let d := s.dev.wrI Reg.RGN_TEMP_TJ b tj
    let d := if d.rdI Reg.RGN_TEMP_TJ_MAX b < tj then d.wrI Reg.RGN_TEMP_TJ_MAX b tj else d
    if (d.region r).held then .next { s with dev := d }
    else
      let d := d.err pSHM 0x59 3 (r + unsignedOf 12 tj * 2 ^ 16) false [] r
      let s := ({ s with dev := d } : State).regionReset r 5 1
      .next { s with dev := s.dev.setRegion r (fun x => { x with held := true }) }

/-- THERMAL_RELEASE (R449): the temperature has stayed below 145 °C for 10 s; the reset may complete. -/
def execThermalRelease (r belowMs t : Nat) (s : State) : Host.Outcome State Fault Refusal :=
  s.onDev (fun d0 =>
    let d := d0.advanceTo t
    if (d.region r).held && decide (10000 ≤ belowMs) then d.setRegion r (fun x => { x with held := false }) else d)

/-- RETURN_RESET (R284): 100 ms after a take-over is complete, the Sheaf Manager resets the failed region once, where its island is
reachable. -/
def execReturnReset (n slot t : Nat) (s : State) : Host.Outcome State Fault Refusal :=
  let d := s.dev.advanceTo t
  let s := { s with dev := d }
  match (d.pgActs n)[slot]?, (d.pg n slot).doneAt with
  | some a, some x =>
    let r := if d.pgServer n slot = a then d.pgStby n else a
    if (d.region r).failedAt.isSome && (d.region r).core == .run && decide (x + 100000000 ≤ d.now) && d.reachable d.holder r then
      .next (s.regionReset r 4 3)
    else .next s
  | _, _ => .next s

/-! ## WARM reset (R394, R446, R448, R455, R456, R460) -/

/-- Counters of the chip-level blocks, which WARM clears while the rest of their state stays (R455). -/
def chipCounters : List Nat :=
  entries.flatMap (fun e => [Reg.REF_CNT_DISQ.key (pREF e) 0, Reg.REF_CNT_LOST.key (pREF e) 0])
    ++ [Reg.DPLL_CNT_SWITCHES.key pDPLL 0, Reg.DPLL_CNT_HOLDOVERS.key pDPLL 0]
    ++ (List.range 8).flatMap (fun n => [Reg.PTP_CNT_TS_MISS.key (pPTPI n) 0, Reg.PTP_CNT_GM_CHANGES.key (pPTPI n) 0])

/-- The state that the islands' blocks go on reporting through a WARM reset: they keep running. -/
def chipState (k : Nat) : Bool :=
  let a := k / 32
  [pDPLL, pREFSEL, pPTP, pNVM, pHOLDUP, pGLUME].contains (a / 0x1000 * 0x1000) && 0x100 ≤ a % 0x1000 && hasCls [.i] k
    && !(chipCounters.contains k)

/-- Whether a field is kept through WARM (R448, R455). -/
def warmKeeps (k : Nat) : Bool :=
  k < cl4B * 32 && (isGen k || hasCls [.a, .b, .c, .d, .l] k || chipState k
    || (match regionOf (k / 32) with
        | some r => (coreKeys r).contains k
        | none => false))

/-- A parked region's classes come back from its snapshot (R453). -/
def Dev.unsnap (d : Dev) (r : Nat) : Dev :=
  match (d.region r).snap with
  | some m => { (d.setRegion r (fun x => { x with snap := none })) with regs := putAll d.regs m }
  | none => d

/-- A region core under WARM: parked regions of CL-4-only mode stay parked (R447); egress-kill, a hold and a failure stay. -/
def Dev.coreWarm (d : Dev) (r : Nat) : Dev :=
  let x := d.region r
  if d.sys.mode = 1 ∧ x.pwr = .park then d.wr Reg.RGN_PWR_STATE (blk r ixRGN) 3
  else
    let core : CoreSt := if x.core = .run ∨ x.core = .off then .warm else x.core
    let d := d.setRegion r (fun x =>
      { Rgn.init with core := core, laneCopy := x.laneCopy, killed := x.killed, held := x.held, failedAt := x.failedAt })
    let d := if x.killed then d.each (List.range 16) (fun d n => d.wr Reg.LN_STAT_KILLED (lanePage (r * 16 + n)) 1) else d
    d.wr Reg.RGN_RST_CAUSE (blk r ixRGN) 2

/-- The tables that are empty after a WARM reset. -/
def Dev.warmTables (d : Dev) : Dev :=
  { d with
    shadow := [], pend := [], lockRes := [], lease := [], snaps := [], lowWords := [], setsWritten := [], adm := none, tags := []
    chans := [], rends := [], olds := [], stats := [], strms := [], slots := [], ces := [], des := []
    ras := tmap (fun _ x => { Rachis.init with gens := x.gens }) d.ras
    flows := [], nodes := [], busy := [], lanes := [], leg := LegSt.init, pols := []
    mps := tmap (fun _ m => { MpSt.init with bad := m.bad }) d.mps
    arbs := [], mirs := [], pgs := []
    hosts := tmap (fun _ h => { h with seq := 0, lostBefore := false }) d.hosts
    sys := { d.sys with electAt := some d.now, firstElect := none, mediaOk := false, hostSeen := false, standalone := false, admOpen := false,
                        spiLast := 0, cl4Cmd := none, cl4Run := [], tsOut := [] } }

/-- A WARM reset: a store in progress completes first (R460); every channel is FREE; what R455 keeps stays. -/
def Dev.warmReset (d : Dev) (otp : Otp) : Dev :=
  let d := d.storeFinish otp
  let d := d.each regions Dev.disarm
  let d := d.each (d.chans.map (·.1)) (fun d c => d.setChState c 0)
  let d := if d.sys.mode = 1 then d else d.each regions Dev.unsnap
  let d := { d with regs := tkeep (fun k _ => warmKeeps k) d.regs }.warmTables
  let d := ((d.inc Reg.RST_INFO_WARM_COUNT pSHM).wr Reg.RST_INFO_LAST pSHM 2).each regions Dev.coreWarm
  d.storeNext

/-- WARM_RESET (R394, R446, R448): the write to SHM.CTRL.SOFT_RESET. -/
def execWarmReset (w : Nat) (s : State) : Host.Outcome State Fault Refusal :=
  s.onDev (fun d => d.locked w pSHM (fun d => d.warmReset s.otp))

end Sys2Proof.Machine
end

