-- ==== Sys2Proof/Machine/Power.lean ====
section
/-! DEFINITION. BLOCK resets (R394, R450), the power states (R451 to R454, R458), the Stolon links (R20 to R24), and the loss of
heartbeats on a path (R28, R275). -/

namespace Sys2Proof.Machine

/-! ## BLOCK reset (R17 to R19, R394, R450, R455) -/

/-- Whether a LANE block carries admitted work. -/
def Dev.laneCarries (d : Dev) (r n : Nat) : Bool :=
  let g := r * 16 + n
  let p := d.owner r n
  let flow := d.flows.any (fun x =>
    x.1 / 2048 == r && d.rd Reg.FL_STATE_STATE (wFLOW r (x.1 % 2048)) != 0
      && (d.rd Reg.FL_CTRL_PORT (wFLOW r (x.1 % 2048)) == p || x.2.port == p))
  let link := r == 0 && 11 ≤ n && d.llMode && (List.range 8).any (fun i => d.rd Reg.LL_MAP_EN ll11 i == 1)
  d.sourceLanes.contains g || (d.isEth r p && flow) || link

/-- Whether a block carries admitted work (R394). -/
def Dev.blockCarries (d : Dev) (r ix : Nat) : Bool :=
  if ix = ixDE ∨ ix = ixDE + 1 then d.strms.any (fun x => x.1 / 2048 == r && x.2.eng == ix - ixDE)
  else if ixLANE ≤ ix ∧ ix < ixLANE + 16 then d.laneCarries r (ix - ixLANE)
  else d.inService r

/-- The class-I counters of a block's page. -/
def pageCounters (ix : Nat) : List Row :=
  Reg.ERR_COUNT ::
    (if ix = ixRACHIS then
      [Reg.RA_DLY_SPILL, Reg.RA_CNT_BP_MEDIA, Reg.RA_CNT_BP_FW, Reg.RA_CNT_TAG_STALE, Reg.RA_CNT_TAG_REUSE, Reg.RA_CNT_TOK_ORPHAN,
       Reg.RA_CNT_TOK_STALE_CH, Reg.RA_CNT_TOK_BAD, Reg.RA_CNT_LATE_LATE, Reg.RA_CNT_PRE_PREEMPT, Reg.RA_CNT_PRE_CANCEL, Reg.RA_BP_MAX_US]
    else if ix = ixCULM then [Reg.CU_GRANTS, Reg.CU_ARB_LW, Reg.CU_ARB_CANCEL, Reg.CU_REQ_REVOKE]
    else if ixMEMPORT ≤ ix ∧ ix < ixMEMPORT + 4 then
      [Reg.MP_REF_FORCED, Reg.MP_ECC_CE, Reg.MP_ECC_UE_UE, Reg.MP_ECC_UE_SCRUB_FIX, Reg.MP_TRAIN_COUNT]
    else if ix = ixDE ∨ ix = ixDE + 1 then [Reg.DE_WD_EXPIRED, Reg.DE_WD_BUDGET, Reg.DE_BND_BYTE, Reg.DE_BND_BUF]
    else if ix = ixEGRESS then [Reg.EG_CNT_STALE, Reg.EG_CNT_LATE]
    else if ix = ixSTOLON then [Reg.ST_CNT_LW, Reg.ST_CNT_QMASK]
    else if ix = ixMIRROR then [Reg.MR_CNT, Reg.MR_ERR_LATE, Reg.MR_ERR_INVALID, Reg.MR_TAKE_RESENT, Reg.MR_TAKE_RECODED]
    else if ixLANE ≤ ix ∧ ix < ixLANE + 16 then
      [Reg.LN_CNT0_LOS, Reg.LN_CNT0_LOL, Reg.LN_CNT1_SYNC_LOSS, Reg.LN_CNT1_CODE_ERR, Reg.LN_FEC_CE, Reg.LN_MOVE_MOVED, Reg.LN_MOVE_SUSP,
       Reg.LN_LL_FALLBACKS, Reg.LN_LL_ABORTS]
    else [])

/-- Counters back to their reset values. -/
def Dev.clearCounters (d : Dev) (page : Nat) (rows : List Row) : Dev :=
  d.each (rows.flatMap (fun row => (List.range (max 1 row.count)).map (fun i => row.key page i))) (fun d k => { d with regs := tdel d.regs k })

/-- Whether a shadow's key belongs to a page or to a window that it guards; a channel's entries to its lead region's page. -/
def Dev.guardedBy (d : Dev) (page k : Nat) : Bool :=
  let a := k / 32 / 4 * 4
  match guardOf a with
  | none => false
  | some g =>
    if winBase ≤ g then
      g % 0x04000000 == page % 0x04000000 && (match winChan (a % 0x04000000) with
        | some c => some (d.lead c) == regionOf page
        | none => false)
    else g == page

/-- The shadows and the pending commits of a block are discarded, those of the entries that its page guards too. -/
def Dev.dropBlock (d : Dev) (r ix : Nat) : Dev :=
  let page := blk r ix
  let d := { d with shadow := tkeep (fun k _ => !(d.guardedBy page k)) d.shadow, pend := tdel d.pend page }
  let d := (d.wr Reg.COMMIT_RESULT_PENDING page 0).wr Reg.STATUS_PENDING page 0
  let mine := (d.chans.map (·.1)).filter (fun c => d.lead c == r)
  if ix = ixCOMPOSE then
    d.each mine (fun d c => (d.wr Reg.CMP_RESULT_PENDING (wCMP c) 0).setChan c (fun x => { x with lyPend := none, lyWait := none }))
  else if ix = ixRCU then
    d.each mine (fun d c => (d.wr Reg.ROI_RESULT_PENDING (wROI c) 0).setChan c (fun x => { x with roiPend := none }))
  else d

/-- A block returns to service (R19). -/
def Dev.unfence (d : Dev) (r ix : Nat) : Dev :=
  let d := d.wr Reg.STATUS_FENCED (blk r ix) 0
  let d := (d.each (blockReqs ix) (fun d q => d.wr Reg.CU_REQ_FENCED (cuPage r) 0 q)).maskFall r (blockReqs ix)
  let d := d.setRach r (fun x =>
    { x with fails := tdel x.fails ix,
             ents := tmap (fun _ e => match e with
               | .task ds vals (.held i b) eff => .task ds vals (.held i b) eff
               | .task ds vals st _ => .task ds vals st (d.effAff r ds.cls ds.aff)
               | e => e) x.ents })
  ((d.pump r).syncRach r).pgEvalAll

/-- The reset of one block. -/
def Dev.blockReset (d : Dev) (r ix : Nat) : Dev :=
  let page := blk r ix
  let d := (if d.blockCarries r ix then d.fence r ix else d).maskRise r (blockReqs ix)
  let d := (d.dropBlock r ix).clearCounters page (pageCounters ix)
  let d := if ixLANE ≤ ix ∧ ix < ixLANE + 16 ∧ d.lnMode (r * 16 + (ix - ixLANE)) ≠ 0 then d.loadEq (r * 16 + (ix - ixLANE)) else d
  let d := if ixMEMPORT ≤ ix ∧ ix < ixMEMPORT + 4 ∧ d.rd Reg.MP_STATE_STATE page ≠ 0 then
      (d.wr Reg.MP_STATE_STATE page 1).setMp r (ix - ixMEMPORT) (fun _ => MpSt.init)
    else d
  d.unfence r ix

/-- SOFT_RESET of a page (R394): RGN asks for a REGION reset, SHM for a WARM reset, the other chip pages ignore it. -/
def State.softReset (s : State) (page : Nat) : State :=
  match placeOf page with
  | .chip j => if j = 0 then { s with dev := s.dev.warmReset s.otp } else s
  | .block r ix =>
    if ix = ixRGN then s.regionReset r 3 3
    else
      let s := { s with dev := s.dev.blockReset r ix }
      if ixMEMPORT ≤ ix ∧ ix < ixMEMPORT + 4 then s.losePort r (ix - ixMEMPORT) else s
  | _ => s

/-- BLOCK_RESET (R394, R446, R450, R456). -/
def execBlockReset (w page : Nat) (s : State) : Host.Outcome State Fault Refusal :=
  .next (s.lockedS w page (fun s => s.softReset page))

/-! ## Power states (R451 to R454, R458, R460) -/

/-- The code of a power state (R451). -/
def pwrCode : Pwr → Nat
  | .active => 0
  | .idle => 1
  | .nap => 2
  | .park => 3

/-- The refusals of R452 in the order of its list; 0 accepted. -/
def Dev.pwrRefusal (d : Dev) (r : Nat) (p : Pwr) : Nat :=
  let busy := !(d.chansOn r).isEmpty || (d.slotOf r).isSome || ((p == .idle || p == .nap) && (d.stbyOf r).isSome)
  let port := [0, 1].any (fun h => h != r && d.active h && !(h == 1 && d.sys.mode == 1))
  if p ≠ .active ∧ busy = true then cBlockBusy
  else if p ≠ .active ∧ port = false then cOpInvalid
  else if (r = 0 ∧ (d.sys.mode = 1 ∨ d.sys.mode = 2)) ∨ (d.sys.mode = 1 ∧ (d.region r).pwr = .park) then 0x09
  else 0

/-- A write of RGN_PWR.REQ. Refused with OP_INVALID during a transition, and while the region is in a reset or has failed. -/
def Dev.pwrReq (d : Dev) (w r : Nat) (p : Pwr) : Dev :=
  if 8 ≤ r then d
  else d.locked w (blk r ixRGN) (fun d =>
    let b := blk r ixRGN
    let x := d.region r
    let up : Bool := (x.core == .run || (x.core == .off && x.pwr == .park)) && x.failedAt.isNone && !x.held
    let code := if d.rd Reg.RGN_PWR_BUSY b = 1 ∨ up = false then cOpInvalid else d.pwrRefusal r p
    let d := d.wr Reg.RGN_PWR_RESULT b code
    if code ≠ 0 then d
    else
      let d := d.wr Reg.RGN_PWR_REQ b (pwrCode p)
      if p = x.pwr then d
      else
        let d := (d.wr Reg.RGN_PWR_BUSY b 1).setRegion r (fun y => { y with target := some p })
        let d := d.pgEvalAll
        if r < 2 ∧ x.pwr = .active then d.breakLocksOf (r + 1) else d)

/-- PWR_ACTIVE (R451, R452, R458). -/
def execPwrActive (w r : Nat) (s : State) : Host.Outcome State Fault Refusal := s.onDev (fun d => d.pwrReq w r .active)

/-- PWR_IDLE (R451, R452, R458). -/
def execPwrIdle (w r : Nat) (s : State) : Host.Outcome State Fault Refusal := s.onDev (fun d => d.pwrReq w r .idle)

/-- PWR_NAP (R344, R451, R452, R458). -/
def execPwrNap (w r : Nat) (s : State) : Host.Outcome State Fault Refusal := s.onDev (fun d => d.pwrReq w r .nap)

/-- PWR_PARK (R344, R452, R453, R458). -/
def execPwrPark (w r : Nat) (s : State) : Host.Outcome State Fault Refusal := s.onDev (fun d => d.pwrReq w r .park)

/-- Pages whose registers the island keeps serving while its region is parked. -/
def islandPage (r k : Nat) : Bool :=
  [ixRGN, ixAWN, ixTIMEBASE].any (fun ix => keyIn (blk r ix) 0x1000 k)

/-- What PARK leaves in place: other regions' fields; of this one's the generations of flows, what the island knows, and on the
pages that it serves classes A, B, D, K and L. -/
def parkKeeps (r k : Nat) : Bool :=
  !(inRegion r k) || isGen k || (coreKeys r).contains k || (islandPage r k && hasCls [.a, .b, .d, .k, .l] k)

/-- The fields that the snapshot of R453 takes. -/
def snapTakes (r k : Nat) : Bool := inRegion r k && !(islandPage r k) && hasCls [.b, .c, .d, .k, .l] k

/-- Entry to PARK (R453): the snapshot is taken and the core goes off; region memory stays. -/
def Dev.parkCore (d : Dev) (r : Nat) : Dev :=
  let snap := tkeep (fun k _ => snapTakes r k) d.regs
  let d := (d.dropTables r false).dropPending r
  let d := { d with regs := tkeep (fun k _ => parkKeeps r k) d.regs,
                    mps := tmap (fun k m => if k / 4 = r then { MpSt.init with bad := m.bad } else m) d.mps }
  let d := d.setRegion r (fun x => { x with core := .off, pwr := .park, snap := some snap, killed := false, cutOff := false })
  (d.wr Reg.RGN_PWR_STATE (blk r ixRGN) 3).wr Reg.RGN_PWR_REQ (blk r ixRGN) 3

/-- Whether the package is parked (R454). -/
def Dev.packageParked (d : Dev) : Bool :=
  regions.all (fun r => (r == 0 && d.sys.mode == 1) || (d.region r).pwr == .park)

/-- Exit from PARK (R318, R453): the snapshot is restored; the region leaves BOOT dispatch after its ports verify. -/
def Dev.unpark (d : Dev) (r : Nat) : Dev :=
  let d := if d.packageParked then { d with regs := tkeep (fun k _ => !(keyIn pEVTREE 0x1000 k)) d.regs } else d
  d.unsnap r

/-- The ports leave self-refresh: each in service runs the verification of R318. -/
def Dev.portsWake (d : Dev) (r : Nat) : Dev :=
  d.each [0, 1, 2, 3] (fun d p =>
    let b := mpPage r p
    let st := d.rd Reg.MP_STATE_STATE b
    if st = 2 ∨ st = 3 then (d.wr Reg.MP_STATE_STATE b 1).setMp r p (fun m => { m with since := none }) else d)

/-- A power transition ends (R318, R342, R451 to R454). -/
def Dev.pwrDone (d : Dev) (r : Nat) (p : Pwr) : Dev :=
  let b := blk r ixRGN
  let from_ := (d.region r).pwr
  let d := if from_ = .park ∧ p ≠ .park then d.unpark r else d
  let d := d.setRegion r (fun x => { x with pwr := p, target := none })
  let d := (d.wr Reg.RGN_PWR_BUSY b 0).wr Reg.RGN_PWR_STATE b (pwrCode p)
  if p = .park then (((d.parkCore r).lanesNow r).event pSHM 9 r 4).pgEvalAll
  else if from_ = .park then (d.coreUp r).event pSHM 10 r 0
  else
    let d := if from_ = .nap then d.portsWake r else d
    let d := (d.lanesNow r).pgEvalAll
    if r < 2 ∧ p = .active then d.signalPending r (List.range 64) else d

/-- POWER_TRANSITION_DONE (R344, R409, R451 to R454). -/
def execPowerTransitionDone (r t : Nat) (s : State) : Host.Outcome State Fault Refusal :=
  s.onDev (fun d0 =>
    let d := d0.advanceTo t
    match (d.region r).target with
    | some p => if r < 8 then d.pwrDone r p else d
    | none => d)

/-! ## Stolon links (R20 to R24) -/

/-- The regions that a link joins, the lower first. -/
def linkEnds (l : Nat) : Nat × Nat := if l < 3 then (l, l + 1) else if l < 6 then (l + 1, l + 2) else (l - 6, l - 2)

/-- Whether a spanning channel's halo and boundary traffic uses a link (R23): its regions' direct links. -/
def Dev.spanUses (d : Dev) (c l : Nat) : Bool :=
  let rs := (d.chan c).regions
  2 ≤ rs.length && rs.contains (linkEnds l).1 && rs.contains (linkEnds l).2

/-- The event of a link on the STOLON pages of both its ends. -/
def Dev.linkEvent (d : Dev) (l bit : Nat) : Dev :=
  let e := linkEnds l
  let d := d.event (blk e.1 ixSTOLON) bit (sportOf e.1 e.2) 0
  d.event (blk e.2 ixSTOLON) bit (sportOf e.2 e.1) 0

/-- The pairs of regions between which no route is left (R22). -/
def Dev.noRoutes (d : Dev) : List (Nat × Nat) :=
  (regions.flatMap (fun a => regions.map (fun b => (a, b)))).filter (fun p => p.1 != p.2 && (d.route p.1 p.2).isNone)

/-- STOLON_DOWN (R22 to R24, R68, R478): destinations that both routes have lost are reported as unreachable; the spanning channels that use the link stop with SPAN_LINK_DOWN. -/
def execStolonDown (link : Nat) (s : State) : Host.Outcome State Fault Refusal :=
  s.onDev (fun d =>
    if 10 ≤ link ∨ d.sys.linksDown.contains link = true then d
    else
      let e := linkEnds link
      let before := d.noRoutes
      let d := { d with sys := { d.sys with linksDown := link :: d.sys.linksDown } }
      let d := d.linkEvent link 0
      let d := d.each (d.noRoutes.filter (fun p => !(before.contains p))) (fun d p => d.emit (.noRoute p.1 p.2))
      let d := d.err (blk e.1 ixSTOLON) 0x58 2 (sportOf e.1 e.2) false [] (sportOf e.1 e.2)
      let d := d.err (blk e.2 ixSTOLON) 0x58 2 (sportOf e.2 e.1) false [] (sportOf e.2 e.1)
      let d := d.each (d.liveChans.filter (fun c => d.spanUses c link)) (fun d c =>
        if d.chState c = 3 then (d.wr Reg.CH_STATE_STOP_REASON (wCHSTAT c) 0x23).toQuarantine c else d.stopChan c 0x23 true 0)
      d.stolonTables.pgEvalAll)

/-- STOLON_UP (R22, R300): the link has trained again; each direction holds its 256 flits per class. -/
def execStolonUp (link : Nat) (s : State) : Host.Outcome State Fault Refusal :=
  s.onDev (fun d =>
    if d.sys.linksDown.contains link then
      let e := linkEnds link
      let d := { d with sys := { d.sys with linksDown := d.sys.linksDown.filter (· != link) } }
      let d := { d with arbs := tdel (tdel d.arbs (e.1 * 16 + 8 + sportOf e.1 e.2)) (e.2 * 16 + 8 + sportOf e.2 e.1) }
      let d := (d.syncCrd e.1 (sportOf e.1 e.2)).syncCrd e.2 (sportOf e.2 e.1)
      (d.linkEvent link 1).stolonTables.pgEvalAll
    else d)

/-! ## Heartbeats lost (R28, R29, R31, R275) -/

/-- A path on which `obs` has heard nothing from `src` for 300 µs is lost. -/
def Dev.pathLost (d : Dev) (obs src p : Nat) : Dev :=
  let both := d.sys.reachLost.contains (reachKey obs src (1 - p))
  let d := { d with sys := { d.sys with reachLost := reachKey obs src p :: d.sys.reachLost } }
  let d := if both = false ∧ (p = 0 ∨ d.active src = true) then d.event pSHM 3 src p else d
  let d := if obs = d.holder then d.syncElect else d
  let d := if both && obs == d.holder && (d.slotOf src).isNone && (d.region src).core == .run then d.regionFails src 1 else d
  d.pgEvalAll

/-- REACH_TIMEOUT (R28, R29, R31, R275): 300 µs without a heartbeat on one path. The loss of one path alone only raises HB_PATH;
the holder declares a region outside every group, and a standby, failed when both are lost. -/
def execReachTimeout (obs src : Nat) (path : Path) (t : Nat) (s : State) : Host.Outcome State Fault Refusal :=
  s.onDev (fun d0 =>
    let d := d0.advanceTo t
    let key := reachKey obs src (pathNum path)
    if 8 ≤ obs ∨ 8 ≤ src ∨ obs = src ∨ d.sys.reachLost.contains key = true ∨ d.now < tget d.sys.heard key 0 + 300000 then d
    else d.pathLost obs src (pathNum path))

end Sys2Proof.Machine
end

