-- ==== Sys2Proof/Machine/RegWrite.lean ====
section
/-! DEFINITION. Recovery of a page (R401), the enable of a block (R394), BAR2 (R390), and register writes: the access types and
lock rules (R12, R392, R395, R398), and the commands that a register's own table gives to a write of it. -/

namespace Sys2Proof.Machine

/-! ## Recovery (R400, R401) -/

/-- The recovery action of a page beyond its shadows. A store in progress on NVM completes of itself. -/
def Dev.recoverAction (d : Dev) (page : Nat) : Dev :=
  match placeOf page with
  | .chip j =>
    if j = 0 then { d with regs := tkeep (fun k _ => !(0x400 * 32 ≤ k && k < 0x1000 * 32)) d.regs } else d
  | .block r ix =>
    if ix = ixRACHIS then
      let rows := [Reg.RA_POST, Reg.RA_TOKEN]
      let d := d.each rows (fun d row => d.each (List.range row.count) (fun d i => d.wr row page 0 i))
      (d.setRach r (fun x => { x with stalls := x.stalls.filter (fun y => !y.fw) })).wr Reg.RA_POST_RESULT_BUSY page 0
    else if ix = ixCOMPOSE then
      let free := (List.range 32).filter (fun s => d.setsWritten.contains (r * 32 + s) && !((d.lutInUse r).contains s))
      let d := { d with setsWritten := d.setsWritten.filter (fun k => !(free.any (fun s => k == r * 32 + s))) }
      d.each free (fun d s => d.wr Reg.LUT_VALID page (setBit (d.rd Reg.LUT_VALID page) s false))
    else if ixMEMPORT ≤ ix ∧ ix < ixMEMPORT + 4 then d.startRetrain r (ix - ixMEMPORT)
    else if ixLANE ≤ ix ∧ ix < ixLANE + 16 then
      let n := ix - ixLANE
      let link := r == 0 && 11 ≤ n && d.llMode
      let lanes := if link then d.groupLanes 0 11 else d.groupLanes r (d.owner r n)
      let d := d.each lanes (fun d x => d.restartLane (r * 16 + x))
      (if link then d.llDown else d).lanesNow r
    else d
  | _ => d

/-- A page recovers: its shadows are those of the active values again, COMMIT_TB is 0, a pending commit stays. -/
def Dev.recover (d : Dev) (page : Nat) : Dev :=
  let d := { d with shadow := tkeep (fun k _ => !(d.guardedBy page k)) d.shadow }
  let d := (d.recoverAction page).restartLease page
  (d.wr Reg.LOCK_BROKEN page 0).wr Reg.STATUS_SUSPECT page 0

/-- A write of LOCK.RECOVER: the owner's needs no more than the lock, of a suspect page too (R398, R400). -/
def Dev.lockRecover (d : Dev) (w page : Nat) : Dev :=
  if !(isPage page) || !(d.pageAnswers w page) then d
  else
    let d := d.expire page
    if d.owns w page then d.recover page
    else if d.rd Reg.STATUS_SUSPECT page = 1 then d.ignored page cSuspect
    else d.ignored page cNotOwner

/-- LOCK_RECOVER (R400, R401). -/
def execLockRecover (w page : Nat) (s : State) : Host.Outcome State Fault Refusal := s.onDev (fun d => d.lockRecover w page)

/-! ## CTRL (R394) -/

/-- Queued tasks take their affinity from the blocks now in service. -/
def Dev.reaffine (d : Dev) (r : Nat) : Dev :=
  let d := d.setRach r (fun x =>
    { x with
      ents := tmap (fun _ e => match e with
        | .task ds vals (.held i b) eff => .task ds vals (.held i b) eff
        | .task ds vals st _ => .task ds vals st (d.effAff r ds.cls ds.aff)
        | e => e) x.ents })
  (d.pgEvalAll.pump r).syncRach r

/-- A write of CTRL.ENABLE: fixed at 1 on chip pages, RGN, AWN, TIMEBASE and CTLCORE. -/
def Dev.setEnable (d : Dev) (page v : Nat) : Dev :=
  match placeOf page with
  | .block r ix =>
    if ix = ixRGN ∨ ix = ixAWN ∨ ix = ixTIMEBASE ∨ ixCTL ≤ ix ∨ d.rd Reg.CTRL_ENABLE page = v % 2 then d
    else if v % 2 = 0 ∧ d.blockCarries r ix = true then d.ignored page cBlockBusy
    else
      let d := (d.wr Reg.CTRL_ENABLE page v).wr Reg.STATUS_ENABLED page v
      (if v % 2 = 0 then d.readmit r else d).reaffine r
  | _ => d

/-- BLOCK_ENABLE_WRITE (R18, R19, R394). -/
def execBlockEnableWrite (w page v : Nat) (s : State) : Host.Outcome State Fault Refusal :=
  s.onDev (fun d => d.locked w page (fun d => d.setEnable page v))

/-- A write of the whole of CTRL. -/
def State.ctrlWrite (s : State) (w page v : Nat) : State :=
  s.lockedS w page (fun s =>
    let s := { s with dev := s.dev.setEnable page v }
    if bitOf v 1 then s.softReset page else s)

/-! ## BAR2 (R305, R308, R390) -/

/-- An access of port `h` at BAR2 offset `off`, as requester 26: a write of `wdata`, or a read of `len` bytes, `errs` the errors of its
codewords. A poisoned read raises MEM_UE, one of an unmapped address on the page of the port whose window lies there. -/
def State.bar2 (s : State) (h off len : Nat) (wdata : Option (List Byte)) (errs : List Nat) : State :=
  let d := s.dev
  let r := d.rd Reg.BAR2_APER_REGION (aperPage h)
  let a := d.rd Reg.BAR2_APER_BASE_GIB (aperPage h) * 2 ^ 30 + off
  let n := match wdata with
    | some data => data.length
    | none => len
  let ones (d : Dev) : Dev := d.emit (.hostData (h + 1) (List.replicate len 0xFF))
  if 2 ≤ h ∨ d.portUp h = false ∨ 2 ^ 36 < off + n then s
  else if d.answers r = false then
    { s with dev := match wdata with
      | some _ => d.countErr pSHM
      | none => ones (d.countErr pSHM) }
  else match wdata with
  | some data =>
    if d.sys.mode = 2 ∧ r = 0 then { s with dev := d.countErr pSHM }
    else if d.queueRoom r (cwList a data.length) then s.memStore r 26 a data errs
    else s
  | none =>
    let z := s.memLoad r a len errs
    let lost := ((cwList a len).find? (fun x => (d.portFor r x.1).isNone)).map (·.1)
    let z := match lost with
      | some x => ({ z.1 with dev := z.1.dev.event (mpPage r (x / 2 ^ 35)) 0 0 (z.1.dev.eccInfo (mpPage r (x / 2 ^ 35))) }, z.2)
      | none => z
    { z.1 with dev := if z.2.2 then ones z.1.dev else z.1.dev.emit (.hostData (h + 1) (z.2.1.map BitVec.toNat)) }

/-- BAR2_ACCESS (R305, R308, R390). -/
def execBar2Access (h off len : Nat) (wdata : Option (List Byte)) (errs : List Nat) (s : State) : Host.Outcome State Fault Refusal :=
  .next (s.bar2 h off len wdata errs)

/-! ## Plain fields (R12, R392, R395) -/

/-- Copies that a table fixes at their reset value: ENABLE of layer 0 (R92), the weights of requesters that do not exist and the quotas
of those that are not privileged (R289, R298). -/
def Slot.fixed (x : Slot) : Bool :=
  x.mainEnable ||
    (x.row.off == 0x200 && x.row.stride == 4 && x.row.count == 256 && (if x.row.lo = 0 then 29 ≤ x.ix % 32 else 4 ≤ x.ix % 32))

/-- A value reaches one field of a word: RW sets it; RWS sets the shadow, but the staging window has no shadows (R86). -/
def Dev.putSlot (d : Dev) (v : Nat) (x : Slot) : Dev :=
  if x.fixed then d
  else match x.row.acc with
  | .rw => d.wr x.row x.base (v / 2 ^ x.shift) x.ix
  | .rws =>
    if 0x440 ≤ x.base ∧ x.base < 0x1000 then d.wr x.row x.base (v / 2 ^ x.shift) x.ix
    else d.wrS x.row x.base (v / 2 ^ x.shift) x.ix
  | _ => d

/-- A value reaches every field of a word. -/
def Dev.putWord (d : Dev) (addr v : Nat) : Dev := d.each (slotsAt addr) (fun d x => d.putSlot v x)

/-- The multi-word field that a word belongs to (R392): its lowest word, and its number of words. -/
def multiOf (addr : Nat) : Option (Nat × Nat) :=
  (slotsAt addr).findSome? (fun x =>
    if x.row.multi = 1 then some (addr, 2)
    else if x.row.multi = 2 then some (addr - 4, 2)
    else if x.row.multi = 3 then some (addr - 4 * x.ix, x.row.count)
    else none)

/-- Keeps a lower word of a multi-word field for its writer (R392). -/
def Dev.keepLow (d : Dev) (w addr v : Nat) : Dev := { d with lowWords := tput d.lowWords (snapKey w addr) (v % 2 ^ 32) }

/-- A lower word as `w` last wrote it, or as it stands. -/
def Dev.lowWord (d : Dev) (w addr : Nat) : Nat := (tget? d.lowWords (snapKey w addr)).getD (d.storedWord addr)

/-- A word as R392 applies it: a multi-word field takes effect at its highest word. -/
def Dev.putMulti (d : Dev) (w addr v : Nat) : Dev :=
  match multiOf addr with
  | none => d.putWord addr v
  | some (a, n) =>
    if addr + 4 = a + 4 * n then
      (d.each (List.range (n - 1)) (fun d i => d.putWord (a + 4 * i) (d.lowWord w (a + 4 * i)))).putWord addr v
    else d.keepLow w addr v

/-- Whether a word holds a field that needs its page's lock (R398). -/
def needsLock (addr : Nat) : Bool :=
  (slotsAt addr).any (fun x => match x.row.acc with
    | .rw => true
    | .rws => true
    | .wo => true
    | .w1s => true
    | _ => false)

/-- The W1C fields of a word: each 1 clears its bit (R12). -/
def Dev.clearWord (d : Dev) (addr v : Nat) : Dev :=
  d.each ((slotsAt addr).filter (fun x => x.row.acc == .w1c)) (fun d x =>
    let m := v / 2 ^ x.shift % 2 ^ x.row.width
    d.wr x.row x.base (Nat.land (d.rd x.row x.base x.ix) (2 ^ x.row.width - 1 - m)) x.ix)

/-- A write with no meaning beyond its fields: under the lock of the guarding page, or of W1C fields with no lock. -/
def Dev.plainWrite (d : Dev) (w addr v : Nat) : Dev :=
  match guardOf addr with
  | none => d
  | some g =>
    if needsLock addr then d.locked w g (fun d => d.putMulti w addr v)
    else if d.pageAnswers w g then (d.touch w g).clearWord addr v
    else d

/-- A write of a command word that names no command: it needs the lock all the same. -/
def Dev.noCommand (d : Dev) (w page : Nat) : Dev := d.locked w page id

/-! ## The common layout (R393) -/

/-- A write of EV_MASK (R398, R407): it needs no lock; a source that it makes pending signals its vectors. -/
def Dev.evMask (d : Dev) (w page v : Nat) : Dev :=
  if !(d.pageAnswers w page) then d
  else
    let d := d.touch w page
    let before := d.evPend page
    let d := d.wr Reg.EV_MASK page v
    if before = 0 ∧ d.evPend page ≠ 0 then
      let src := sourceOf page
      d.each [0, 1] (fun d h => d.when (d.mapped src h) (fun d => d.signal h (d.vecOf src h)))
    else d

/-- A write of LOCK (R399, R401). -/
def Dev.lockWord (d : Dev) (w page v : Nat) : Dev :=
  let d := if bitOf v 8 then d.lockAcquire w page else d
  let d := if bitOf v 9 then d.lockRelease w page else d
  if bitOf v 10 then d.lockRecover w page else d

/-- A write of LOCK_LEASE (R399): a host's 0 is taken as 1,000 ms. -/
def Dev.leaseWrite (d : Dev) (w page v : Nat) : Dev :=
  d.locked w page (fun d =>
    let ms := v % 65536
    (d.wr Reg.LOCK_LEASE_LEASE_MS page (if isHost w && ms == 0 then 1000 else ms)).restartLease page)

/-- A write within the common layout. -/
def State.commonWrite (s : State) (w page o v : Nat) : State :=
  let dev (f : Dev → Dev) : State := { s with dev := f s.dev }
  if o = 0x8 then s.ctrlWrite w page v
  else if o = 0x10 then dev (fun d => d.evRawClear w page v)
  else if o = 0x14 then dev (fun d => d.evMask w page v)
  else if o = 0x1C then dev (fun d => d.evInject w page v)
  else if o = 0x30 then
    dev (fun d => if v % 2 = 1 then d.commit w page (bitsOf v 1 3) (bitsOf v 8 7) (bitsOf v 24 8) else d.noCommand w page)
  else if o = 0x38 then dev (fun d => d.lockWord w page v)
  else if o = 0x3C then dev (fun d => d.leaseWrite w page v)
  else dev (fun d => d.plainWrite w (page + o) v)

/-! ## Chip pages -/

/-- An image set of which nothing is known: free values. -/
def Dev.freeImage (d : Dev) : ImageSet :=
  let f (i : Nat) : Nat := Config.freeNat (d.free + i)
  ⟨f 0 % 2 == 1, f 1 % 2 == 1, f 2 % 2 == 1, f 3 % 64, f 4 % 64, f 5 % 64⟩

/-- A write of GL_CMD (R430, R444); the image set of a PCIE_BOOT is free here. -/
def State.glWord (s : State) (w v : Nat) : State :=
  let op := v % 16
  let tag := bitsOf v 8 8
  if op = 6 then
    let img := s.dev.freeImage
    let d : Dev := { s.dev with free := s.dev.free + 6 }
    if d.bootWaits = true ∧ w = 1 then (if d.pageAnswers w pGLUME then { s with dev := d.pcieBoot s.otp tag img } else s)
    else { s with dev := d.glCmd w (fun d => if w = 1 then d.pcieBoot s.otp tag img else d.glPost tag cOpInvalid) }
  else s.glCommand w op tag

/-- A write to the SHM page beyond the common layout (R57, R264, R286, R390). -/
def Dev.shmWrite (d : Dev) (w o v : Nat) : Dev :=
  if o = 0x140 then d.admCmd w (v % 16) (bitsOf v 8 8) (bitsOf v 16 7) (bitsOf v 24 8)
  else if 0x180 ≤ o ∧ o < 0x1C0 ∧ o % 16 = 0 then d.pgCfg w ((o - 0x180) / 16) v
  else if o = 0x1C0 then d.pgCmd w (bitsOf v 4 2) (bitsOf v 6 1) (v % 16)
  else if o = 0x200 then (if isHost w then d.aperWrite (w - 1) v else d)
  else d.plainWrite w o v

/-- A field that keeps its value, counted in the page's ERR_COUNT, where the value is out of range (R385). -/
def Dev.ranged (d : Dev) (page : Nat) (row : Row) (base v : Nat) (ok : Bool) : Dev :=
  if ok then d.wr row base v else d.countErr page

/-- A write of an instance's configuration (R385) applies at its next message interval: what it applies until then is kept. A disabled
instance has no messages, and takes it at once. -/
def Dev.ptpConfig (d : Dev) (w n : Nat) (f : Dev → Dev) : Dev :=
  d.locked w pPTP (fun d =>
    let b := pPTPI n
    let kept := (d.ptpSt n).act.getD (tkeep (fun k _ => b * 32 ≤ k && k < (b + 12) * 32) d.regs)
    let d := (f d).setPtp n (fun x => { x with act := some kept })
    if stGet kept Reg.PTP_CTRL_EN b 0 = 0 then d.ptpDue n else d)

/-- PTP_CTRL.PROFILE and TRANSPORT: an undefined encoding leaves its field, and IEEE 802.3 with another profile than the default leaves
both (R376, R385). -/
def Dev.ptpKind (d : Dev) (b p t : Nat) : Dev :=
  let p1 := if p ≤ 2 then p else d.rd Reg.PTP_CTRL_PROFILE b
  let t1 := if t ≤ 2 then t else d.rd Reg.PTP_CTRL_TRANSPORT b
  let ok := t1 != 2 || p1 == 0
  (d.ranged pPTP Reg.PTP_CTRL_PROFILE b p1 (ok && p ≤ 2)).ranged pPTP Reg.PTP_CTRL_TRANSPORT b t1 (ok && t ≤ 2)

/-- A write to PTP instance `n` (R385): one instance per port, so that a port which another enabled instance has leaves EN and PORT. -/
def Dev.ptpInstWrite (d : Dev) (w n o v : Nat) : Dev :=
  let b := pPTPI n
  if o = 0 then
    d.ptpConfig w n (fun d =>
      let taken := v % 2 == 1 && (List.range 8).any (fun m =>
        m != n && d.rd Reg.PTP_CTRL_EN (pPTPI m) == 1 && d.rd Reg.PTP_CTRL_PORT (pPTPI m) == bitsOf v 8 7)
      let d := if taken then d.countErr pPTP else (d.wr Reg.PTP_CTRL_EN b v).wr Reg.PTP_CTRL_PORT b (v / 256)
      let d := (d.wr Reg.PTP_CTRL_ROLE b (v / 2)).ptpKind b (bitsOf v 2 2) (bitsOf v 4 2)
      (d.wr Reg.PTP_CTRL_ONE_STEP b (v / 64)).wr Reg.PTP_CTRL_DELAY_UNICAST b (v / 128))
  else if o = 8 then
    d.ptpConfig w n (fun d => (d.wr Reg.PTP_PRIO_PRIORITY1 b v).wr Reg.PTP_PRIO_PRIORITY2 b (v / 256))
  else if o = 4 then
    d.ptpConfig w n (fun d =>
      let d := d.ranged pPTP Reg.PTP_CFG_DOMAIN b v (bitsOf v 0 8 ≤ 127)
      let neg (lo : Nat) (row : Row) (d : Dev) : Dev := d.ranged pPTP row b (v / 2 ^ lo) (bitsOf v lo 4 == 0 || 9 ≤ bitsOf v lo 4)
      let d := neg 12 Reg.PTP_CFG_LOG_DELAY (neg 8 Reg.PTP_CFG_LOG_SYNC d)
      let ann := bitsOf v 16 4
      let d := d.ranged pPTP Reg.PTP_CFG_LOG_ANN b ann (ann ≤ 1 || 13 ≤ ann)
      d.ranged pPTP Reg.PTP_CFG_ANN_TO b (v / 2 ^ 20) (2 ≤ bitsOf v 20 4 && bitsOf v 20 4 ≤ 10))
  else d.plainWrite w (b + o) v

/-- A write to the PTPCORE page beyond the common layout (R380, R382, R385). -/
def Dev.ptpWrite (d : Dev) (w o v : Nat) : Dev :=
  if o = 0x100 then
    d.locked w pPTP (fun d => (d.ranged pPTP Reg.PTP_SERVO_BW pPTP (v / 256) (bitsOf v 8 8 != 0)).servoMode v)
  else if o = 0x104 then
    d.locked w pPTP (fun d => d.ranged pPTP Reg.PTP_STEP_THR_US pPTP v (1 ≤ v && v ≤ 1000000))
  else if o = 0x108 then d.locked w pPTP (fun d => (d.wr Reg.PTP_UTC_UTC_OFS_SW pPTP v).syncUtc)
  else if 0x200 ≤ o ∧ o < 0x400 then d.ptpInstWrite w ((o - 0x200) / 0x40) (o % 0x40) v
  else d.plainWrite w (pPTP + o) v

/-- A write to the EVTREE page beyond the common layout (R398, R409): a port's block from that port alone. -/
def Dev.evtreeWrite (d : Dev) (w o v : Nat) : Dev :=
  if 0x180 ≤ o ∧ o < 0x200 then
    let h := (o - 0x180) / 0x40
    let x := o % 0x40
    if x = 0x1C ∨ x = 0x20 then
      (if w = h + 1 then d.evtArm h (b2n (x == 0x20)) v else if d.pageAnswers w pEVTREE then d.ignored pEVTREE cNotOwner else d)
    else if [0, 4, 8, 0xC, 0x14].contains x then d.evrConfig w h x v
    else d
  else d.plainWrite w (pEVTREE + o) v

/-- A write to a chip page beyond the common layout. -/
def State.chipWrite (s : State) (w j o v : Nat) : State :=
  let dev (f : Dev → Dev) : State := { s with dev := f s.dev }
  if j = 0 then dev (fun d => d.shmWrite w o v)
  else if j = 1 ∧ o = 0x100 then s.glWord w v
  else if j = 2 ∧ o = 0x110 then dev (fun d => d.dcoFofs w v)
  else if j = 4 then dev (fun d => d.ptpWrite w o v)
  else if j = 5 ∧ o = 0x114 then dev (fun d => d.nvmCmd w (v % 16) (bitsOf v 8 8))
  else if j = 9 then dev (fun d => d.evtreeWrite w o v)
  else dev (fun d => d.plainWrite w (chipPage j + o) v)

/-! ## Block pages -/

/-- RA_MODE (R239, R240): a host's write can only request TEST; the region's own firmware sets MODE. -/
def Dev.raModeWrite (d : Dev) (w r v : Nat) : Dev :=
  let pg := blk r ixRACHIS
  if isHost w then (if bitOf v 2 then d.reqTest w r else d)
  else if w ≠ fwOf r then d.noCommand w pg
  else
    d.locked w pg (fun d =>
      let first := !d.sys.admOpen
      if v % 4 = d.raMode r then d
      else if v % 4 = 1 then
        (if [0, 1, 2, 3].any (fun p => d.rd Reg.MP_STATE_STATE (mpPage r p) == 1) && d.raMode r == 0 then d
         else (d.modeNormal r).afterNormal r first)
      else d.setMode r (v % 4))

/-- TB_INC as its two words give it (R370, R392). -/
def Dev.tbIncWord (d : Dev) (w r o v : Nat) : Dev :=
  let b := blk r ixTIMEBASE
  if o = 0x110 then d.locked w b (fun d => d.keepLow w (b + 0x110) v)
  else d.tbWrite w r (fun d => d.loadInc ((d.lowWord w (b + 0x110) + v % 4 * 2 ^ 32 : Nat) : Int))

/-- A write to a TIMEBASE page beyond the common layout (R370, R371, R384). -/
def Dev.timebaseWrite (d : Dev) (w r o v : Nat) : Dev :=
  let b := blk r ixTIMEBASE
  if o = 0x110 ∨ o = 0x114 then d.tbIncWord w r o v
  else if o = 0x130 then d.tbAdjOp w r (v % 4)
  else if o = 0x134 then
    d.locked w b (fun d => d.ranged b Reg.TB_CTRL_SLEW_PPM b v (1 ≤ bitsOf v 0 7 && bitsOf v 0 7 ≤ 100))
  else d.plainWrite w (b + o) v

/-- A write to a LANE page beyond the common layout (R347, R386): LL_MAP exists on lane 11 of region 0 alone, the compensation
registers on a port's first lane. -/
def Dev.laneWrite (d : Dev) (w r n o v : Nat) : Dev :=
  let b := blk r (ixLANE + n)
  if 0x140 ≤ o ∧ o < 0x160 then (if r = 0 ∧ n = 11 then d.plainWrite w (b + o) v else d)
  else if 0x180 ≤ o ∧ o < 0x1A0 then (if d.isEth r n then (d.plainWrite w (b + o) v).syncCopy r else d)
  else d.plainWrite w (b + o) v

/-- A write to a RACHIS page beyond the common layout (R240). -/
def Dev.rachisWrite (d : Dev) (w r o v : Nat) : Dev :=
  let b := blk r ixRACHIS
  if o = 0x100 then d.raModeWrite w r v
  else if o = 0x240 then
    (if v % 2 = 1 then d.windowPost w r (if bitOf v 1 then some (bitsOf v 4 12) else none) else d.noCommand w b)
  else if o = 0x290 then (if v % 2 = 1 then d.windowToken w r else d.noCommand w b)
  else d.plainWrite w (b + o) v

/-- A write to a block page beyond the common layout. -/
def Dev.blockWrite (d : Dev) (w r ix o v : Nat) : Dev :=
  let b := blk r ix
  if ix = ixRGN ∧ o = 0x108 then
    d.pwrReq w r (if v % 4 = 0 then .active else if v % 4 = 1 then .idle else if v % 4 = 2 then .nap else .park)
  else if ix = ixRGN ∧ o = 0x118 then d.sramInj w r v
  else if ix = ixRACHIS then d.rachisWrite w r o v
  else if ixMEMPORT ≤ ix ∧ ix < ixMEMPORT + 4 ∧ o = 0x148 then d.mpInj w r (ix - ixMEMPORT) v
  else if ixMEMPORT ≤ ix ∧ ix < ixMEMPORT + 4 ∧ (o = 0x14C ∨ o = 0x150) then d.injWrite w r b (fun d => d.putMulti w (b + o) v)
  else if (ix = ixDE ∨ ix = ixDE + 1) ∧ o = 0x104 then
    d.locked w b (fun d => d.ranged b Reg.DE_BOUND_CYC_MULT b v (4 ≤ bitsOf v 0 4))
  else if ix = ixCOMPOSE ∧ o = 0x100 then d.lutValid w r v
  else if ix = ixEGRESS ∧ o = 0x100 then d.flCmd w r (v % 16) (bitsOf v 8 11) (bitsOf v 24 8)
  else if ix = ixEGRESS ∧ 0x10C ≤ o ∧ o < 0x11C then d.obsWrite w r o v
  else if ix = ixTIMEBASE then d.timebaseWrite w r o v
  else if ixLANE ≤ ix ∧ ix < ixLANE + 16 then d.laneWrite w r (ix - ixLANE) o v
  else d.plainWrite w (b + o) v

/-! ## Windows (R391) -/

/-- A write to a live entry (R156, R157): STAT_BASE and STAT_SIZE keep their values while EN is 1, and each such write is counted. -/
def Dev.liveWrite (d : Dev) (w g addr x v : Nat) : Dev :=
  let c := x / 0x200
  let rd := x / 0x40 % 8
  let o := x % 0x40
  if o = 4 then d.statCtrl w g c rd v
  else if o = 8 ∨ o = 0xC ∨ o = 0x10 then
    d.locked w g (fun d => if d.rd Reg.STAT_CTRL_EN (wLIVE c rd) = 1 then d.countErr g else d.putMulti w addr v)
  else d.plainWrite w addr v

/-- A write to the layer entries and header of a channel (R92, R95). -/
def Dev.layerWrite (d : Dev) (w g addr x v : Nat) : Dev :=
  let c := x / 0x400
  let o := x % 0x400
  if o = 0x200 then (if v % 2 = 1 then d.cmpCommit w g c (bitsOf v 8 8) else d.noCommand w g)
  else if o < 0x200 ∧ o % 0x40 = 0x20 then (if bitOf v 31 then d.layerPost w c (o / 0x40) (v % 4) else d.noCommand w g)
  else d.plainWrite w addr v

/-- A write to a colour-chain set (R106): one in use keeps its contents, and the write is counted. -/
def Dev.chainWrite (d : Dev) (w g r addr x v : Nat) : Dev :=
  let set := x / 0x80000
  if !(needsLock addr) then d
  else d.locked w g (fun d =>
    if (d.lutInUse r).contains set then d.countErr g
    else
      let d := d.putMulti w addr v
      { d with setsWritten := if d.setsWritten.contains (r * 32 + set) then d.setsWritten else d.setsWritten ++ [r * 32 + set] })

/-- A write to a Stolon shadow table (R301, R302): none without a link, and a host's only in TEST. -/
def Dev.stolonWrite (d : Dev) (w g r addr x v : Nat) : Dev :=
  if noLink r (x / 0x400) then d
  else if isHost w && d.raMode r != 2 then d.noCommand w g
  else d.plainWrite w addr v

/-- A write to a window of region `r`, at offset `o` of the region; `g` is the page that guards it. -/
def Dev.winWrite (d : Dev) (w r g addr o v : Nat) : Dev :=
  if d.elsewhere addr then d
  else if 0x01004000 ≤ o ∧ o < 0x01024000 then d.layerWrite w g addr (o - 0x01004000) v
  else if 0x01030000 ≤ o ∧ o < 0x01040000 then d.liveWrite w g addr (o - 0x01030000) v
  else if 0x01040000 ≤ o ∧ o < 0x01050000 ∧ o % 0x200 = 0xC then
    (if v % 2 = 1 then d.roiCommit w g ((o - 0x01040000) / 0x200) (bitsOf v 8 8) else d.noCommand w g)
  else if 0x010A8000 ≤ o ∧ o < 0x010AA000 ∧ needsLock addr = true then d.policerWrite w r ((o - 0x010A8000) / 0x20) (o % 0x20) v
  else if 0x010D0000 ≤ o ∧ o < 0x010D0C00 then d.stolonWrite w g r addr (o - 0x010D0000) v
  else if 0x01100000 ≤ o then d.chainWrite w g r addr (o - 0x01100000) v
  else d.plainWrite w addr v

/-! ## Register writes (R12, R26, R391, R392, R398) -/

/-- A host's write to its MSI-X table: word 3 of an entry holds the vector's mask. -/
def Dev.msixWrite (d : Dev) (h o v : Nat) : Dev :=
  if 2 ≤ h ∨ d.portUp h = false then d
  else if o % 16 = 12 then
    (if v % 2 = 0 then d.msixUnmask h (o / 16)
     else d.setHost h (fun p => { p with vecMask := setBit p.vecMask (o / 16) true }))
  else d.setHost h (fun p => { p with table := tput p.table o (v % 2 ^ 32) })

/-- A write of the 32-bit word at a BAR0 address. -/
def State.regWrite (s : State) (w addr v : Nat) : State :=
  let v := v % 2 ^ 32
  let dev (f : Dev → Dev) : State := { s with dev := f s.dev }
  let o := pageOff addr
  if isHost w = true ∧ s.dev.portUp (w - 1) = false then s
  else if addr % 4 ≠ 0 then dev (fun d => d.ignored pSHM cAccessInvalid)
  else if 0x40000000 ≤ addr then s
  else if 0xF00000 ≤ addr ∧ addr < 0xF00400 then (if isHost w then dev (fun d => d.msixWrite (w - 1) (addr - 0xF00000) v) else s)
  else match placeOf addr with
  | .nowhere => s
  | .chip j => if o < 0x48 then s.commonWrite w (chipPage j) o v else s.chipWrite w j o v
  | .block r ix => if o < 0x48 then s.commonWrite w (blk r ix) o v else dev (fun d => d.blockWrite w r ix o v)
  | .win r _ _ g => dev (fun d => d.winWrite w r g addr (addr % 0x04000000) v)

/-- REGISTER_WRITE (R12, R26, R391, R392, R398). -/
def execRegisterWrite (w addr v : Nat) (s : State) : Host.Outcome State Fault Refusal := .next (s.regWrite w addr v)

end Sys2Proof.Machine
end

