-- ==== Sys2Proof/Machine/Dispatch.lean ====
section
/-! DEFINITION. One arm per command: the call of its meaning. -/

namespace Sys2Proof.Machine

def exec (i : Instr) (s : State) : Host.Outcome State Fault Refusal :=
  match i with
  | .por straps => Sys2Proof.Machine.execPor straps s
  | .pinReset straps lowUs => Sys2Proof.Machine.execPinReset straps lowUs s
  | .warmReset w => Sys2Proof.Machine.execWarmReset w s
  | .regionReset w r => Sys2Proof.Machine.execRegionReset w r s
  | .regionUp r t => Sys2Proof.Machine.execRegionUp r t s
  | .blockReset w page => Sys2Proof.Machine.execBlockReset w page s
  | .railFault rail outNs straps => Sys2Proof.Machine.execRailFault rail outNs straps s
  | .thermalTrip r tj => Sys2Proof.Machine.execThermalTrip r tj s
  | .thermalRelease r belowMs t => Sys2Proof.Machine.execThermalRelease r belowMs t s
  | .bootImageVerify n source slot img => Sys2Proof.Machine.execBootImageVerify n source slot img s
  | .election t => Sys2Proof.Machine.execElection t s
  | .awnHeartbeatSend n t => Sys2Proof.Machine.execAwnHeartbeatSend n t s
  | .awnHeartbeatRx obs src path ringPs t => Sys2Proof.Machine.execAwnHeartbeatRx obs src path ringPs t s
  | .reachTimeout obs src path t => Sys2Proof.Machine.execReachTimeout obs src path t s
  | .holderLost fatal t => Sys2Proof.Machine.execHolderLost fatal t s
  | .awnSegment a b => Sys2Proof.Machine.execAwnSegment a b s
  | .stolonDown link => Sys2Proof.Machine.execStolonDown link s
  | .stolonUp link => Sys2Proof.Machine.execStolonUp link s
  | .frameTick c t => Sys2Proof.Machine.execFrameTick c t s
  | .sliceTick c t => Sys2Proof.Machine.execSliceTick c t s
  | .rachisTick r t => Sys2Proof.Machine.execRachisTick r t s
  | .sourceFrame c f => Sys2Proof.Machine.execSourceFrame c f s
  | .inputCaptured c rd j => Sys2Proof.Machine.execInputCaptured c rd j s
  | .analysed c rd j hints => Sys2Proof.Machine.execAnalysed c rd j hints s
  | .st2110Packet c path x => Sys2Proof.Machine.execSt2110Packet c path x s
  | .admCreate w tag c gen => Sys2Proof.Machine.execAdmCreate w tag c gen s
  | .admModify w tag c gen => Sys2Proof.Machine.execAdmModify w tag c gen s
  | .admStop w tag c gen => Sys2Proof.Machine.execAdmStop w tag c gen s
  | .admCheck w tag c gen => Sys2Proof.Machine.execAdmCheck w tag c gen s
  | .admResultPost t nonVcl => Sys2Proof.Machine.execAdmResultPost t nonVcl s
  | .modifyApply c t => Sys2Proof.Machine.execModifyApply c t s
  | .channelStart c t => Sys2Proof.Machine.execChannelStart c t s
  | .chQuarantineEnd c t => Sys2Proof.Machine.execChQuarantineEnd c t s
  | .cmpCommit w c id t => Sys2Proof.Machine.execCmpCommit w c id t s
  | .lyPost w c l slot => Sys2Proof.Machine.execLyPost w c l slot s
  | .composeLutValidWrite w r v => Sys2Proof.Machine.execComposeLutValidWrite w r v s
  | .roiCommit w c id t => Sys2Proof.Machine.execRoiCommit w c id t s
  | .statCtrlWrite w c rd v => Sys2Proof.Machine.execStatCtrlWrite w c rd v s
  | .statRecordWrite c rd k t => Sys2Proof.Machine.execStatRecordWrite c rd k t s
  | .budgetGranted c rd j t z => Sys2Proof.Machine.execBudgetGranted c rd j t z s
  | .rowBudgetExpiry r ce => Sys2Proof.Machine.execRowBudgetExpiry r ce s
  | .ctuCode r ce x => Sys2Proof.Machine.execCtuCode r ce x s
  | .rowRecon r ce x => Sys2Proof.Machine.execRowRecon r ce x s
  | .haloArrived r c rd row lines => Sys2Proof.Machine.execHaloArrived r c rd row lines s
  | .cycleBudget r x => Sys2Proof.Machine.execCycleBudget r x s
  | .wdExpiry r x => Sys2Proof.Machine.execWdExpiry r x s
  | .decodePictureEnd r slot x => Sys2Proof.Machine.execDecodePictureEnd r slot x s
  | .feedPacket c p t => Sys2Proof.Machine.execFeedPacket c p t s
  | .feedDelayExpiry c t => Sys2Proof.Machine.execFeedDelayExpiry c t s
  | .confRowCompare r slot row enc dec => Sys2Proof.Machine.execConfRowCompare r slot row enc dec s
  | .raPost r w by_ => Sys2Proof.Machine.execRaPost r w by_ s
  | .raPostFixed r w idx => Sys2Proof.Machine.execRaPostFixed r w idx s
  | .stalledPostAccept r t => Sys2Proof.Machine.execStalledPostAccept r t s
  | .raTokenSend r w => Sys2Proof.Machine.execRaTokenSend r w s
  | .tokenArrive r tok deadline => Sys2Proof.Machine.execTokenArrive r tok deadline s
  | .tokenHoldExpiry r idx t => Sys2Proof.Machine.execTokenHoldExpiry r idx t s
  | .delayListJoin r list => Sys2Proof.Machine.execDelayListJoin r list s
  | .getWork r cls inst t job => Sys2Proof.Machine.execGetWork r cls inst t job s
  | .getWorkTimeout r inst t => Sys2Proof.Machine.execGetWorkTimeout r inst t s
  | .doneOk r idx gen => Sys2Proof.Machine.execDoneOk r idx gen s
  | .doneFailed r idx gen => Sys2Proof.Machine.execDoneFailed r idx gen s
  | .doneRepost r idx gen => Sys2Proof.Machine.execDoneRepost r idx gen s
  | .doneYield r idx gen => Sys2Proof.Machine.execDoneYield r idx gen s
  | .taskQuarantineEnd r idx t => Sys2Proof.Machine.execTaskQuarantineEnd r idx t s
  | .raModeNormal r => Sys2Proof.Machine.execRaModeNormal r s
  | .raModeTest r => Sys2Proof.Machine.execRaModeTest r s
  | .raModeRecovery r => Sys2Proof.Machine.execRaModeRecovery r s
  | .raReqTest w r => Sys2Proof.Machine.execRaReqTest w r s
  | .flCreate w r f gen => Sys2Proof.Machine.execFlCreate w r f gen s
  | .flModify w r f gen => Sys2Proof.Machine.execFlModify w r f gen s
  | .flDelete w r f gen => Sys2Proof.Machine.execFlDelete w r f gen s
  | .flowQuarantineEnd r f t => Sys2Proof.Machine.execFlowQuarantineEnd r f t s
  | .commitImmediate w page chan id => Sys2Proof.Machine.execCommitImmediate w page chan id s
  | .commitFrame w page chan id => Sys2Proof.Machine.execCommitFrame w page chan id s
  | .commitSlice w page chan id => Sys2Proof.Machine.execCommitSlice w page chan id s
  | .commitWrap w page chan id => Sys2Proof.Machine.execCommitWrap w page chan id s
  | .commitTb w page chan id => Sys2Proof.Machine.execCommitTb w page chan id s
  | .commitTbApply page t => Sys2Proof.Machine.execCommitTbApply page t s
  | .pacerWrap r p t => Sys2Proof.Machine.execPacerWrap r p t s
  | .stolonWrap r p t => Sys2Proof.Machine.execStolonWrap r p t s
  | .packetDepart r f t => Sys2Proof.Machine.execPacketDepart r f t s
  | .portIdle r p t => Sys2Proof.Machine.execPortIdle r p t s
  | .egressLateDiscard r f t => Sys2Proof.Machine.execEgressLateDiscard r f t s
  | .obsSample r t => Sys2Proof.Machine.execObsSample r t s
  | .obsConfigWrite w r off v => Sys2Proof.Machine.execObsConfigWrite w r off v s
  | .policePacket r e x bufPct => Sys2Proof.Machine.execPolicePacket r e x bufPct s
  | .policerRateWrite w r e off v => Sys2Proof.Machine.execPolicerRateWrite w r e off v s
  | .ethFrameRx g fr => Sys2Proof.Machine.execEthFrameRx g fr s
  | .arpRequest g target => Sys2Proof.Machine.execArpRequest g target s
  | .neighborSolicitation g target => Sys2Proof.Machine.execNeighborSolicitation g target s
  | .pgCfgWrite w n v => Sys2Proof.Machine.execPgCfgWrite w n v s
  | .pgSwitch w n slot => Sys2Proof.Machine.execPgSwitch w n slot s
  | .pgHold w n slot => Sys2Proof.Machine.execPgHold w n slot s
  | .pgRelease w n slot => Sys2Proof.Machine.execPgRelease w n slot s
  | .mirrorCommit c rd seq poisoned => Sys2Proof.Machine.execMirrorCommit c rd seq poisoned s
  | .unitArrived r c rd row bytes => Sys2Proof.Machine.execUnitArrived r c rd row bytes s
  | .fwBeatMiss r t => Sys2Proof.Machine.execFwBeatMiss r t s
  | .islandFatalReport n t => Sys2Proof.Machine.execIslandFatalReport n t s
  | .regionFailDeclare n slot t => Sys2Proof.Machine.execRegionFailDeclare n slot t s
  | .egressKill r => Sys2Proof.Machine.execEgressKill r s
  | .witnessBeatLoss r t => Sys2Proof.Machine.execWitnessBeatLoss r t s
  | .takeover n slot t => Sys2Proof.Machine.execTakeover n slot t s
  | .returnReset n slot t => Sys2Proof.Machine.execReturnReset n slot t s
  | .revertSchedule n slot t => Sys2Proof.Machine.execRevertSchedule n slot t s
  | .revertHandover n slot t => Sys2Proof.Machine.execRevertHandover n slot t s
  | .revertComplete n slot t => Sys2Proof.Machine.execRevertComplete n slot t s
  | .culmRequest r tgt q beats cyc => Sys2Proof.Machine.execCulmRequest r tgt q beats cyc s
  | .culmGrant r tgt cyc => Sys2Proof.Machine.execCulmGrant r tgt cyc s
  | .culmWindowStart r tgt cyc => Sys2Proof.Machine.execCulmWindowStart r tgt cyc s
  | .culmRevoke r tgt cyc => Sys2Proof.Machine.execCulmRevoke r tgt cyc s
  | .sidebandMask r blk x => Sys2Proof.Machine.execSidebandMask r blk x s
  | .stolonCreditReturn r p cls flits => Sys2Proof.Machine.execStolonCreditReturn r p cls flits s
  | .memRead r q addr len need errs => Sys2Proof.Machine.execMemRead r q addr len need errs s
  | .memWrite r q addr need data => Sys2Proof.Machine.execMemWrite r q addr need data s
  | .refreshDue r p blocked => Sys2Proof.Machine.execRefreshDue r p blocked s
  | .refreshRepay r p => Sys2Proof.Machine.execRefreshRepay r p s
  | .refreshRatePoll r p mult hot => Sys2Proof.Machine.execRefreshRatePoll r p mult hot s
  | .scrubRead r p stripe errs => Sys2Proof.Machine.execScrubRead r p stripe errs s
  | .trainingComplete r p o temp margin => Sys2Proof.Machine.execTrainingComplete r p o temp margin s
  | .retrainTrigger r p cause t => Sys2Proof.Machine.execRetrainTrigger r p cause t s
  | .retrainStep r p => Sys2Proof.Machine.execRetrainStep r p s
  | .retrainEnd r p pass temp margin t => Sys2Proof.Machine.execRetrainEnd r p pass temp margin t s
  | .portRetrainAttempt r p o temp margin t => Sys2Proof.Machine.execPortRetrainAttempt r p o temp margin t s
  | .laneLos g t => Sys2Proof.Machine.execLaneLos g t s
  | .laneLosClear g t => Sys2Proof.Machine.execLaneLosClear g t s
  | .laneLol g t ppm => Sys2Proof.Machine.execLaneLol g t ppm s
  | .laneLolClear g t ppm => Sys2Proof.Machine.execLaneLolClear g t ppm s
  | .laneSyncGain g rate frac pid t => Sys2Proof.Machine.execLaneSyncGain g rate frac pid t s
  | .laneSyncLoss g t => Sys2Proof.Machine.execLaneSyncLoss g t s
  | .pcsLinkFail g t => Sys2Proof.Machine.execPcsLinkFail g t s
  | .portUp g t => Sys2Proof.Machine.execPortUp g t s
  | .llWidthRx dcode => Sys2Proof.Machine.execLlWidthRx dcode s
  | .llWidthTimeout sinceUs => Sys2Proof.Machine.execLlWidthTimeout sinceUs s
  | .llWidthRestore heldMs => Sys2Proof.Machine.execLlWidthRestore heldMs s
  | .llXoff => Sys2Proof.Machine.execLlXoff s
  | .llXon => Sys2Proof.Machine.execLlXon s
  | .llFrameRx bytes codeErr aborted => Sys2Proof.Machine.execLlFrameRx bytes codeErr aborted s
  | .llFrameSend m ts t => Sys2Proof.Machine.execLlFrameSend m ts t s
  | .llFrameExpire t => Sys2Proof.Machine.execLlFrameExpire t s
  | .llTrainComplete groups => Sys2Proof.Machine.execLlTrainComplete groups s
  | .adaptStore r vals t => Sys2Proof.Machine.execAdaptStore r vals t s
  | .refEdge n pin t phasePs => Sys2Proof.Machine.execRefEdge n pin t phasePs s
  | .refLoss e t => Sys2Proof.Machine.execRefLoss e t s
  | .esmcRx e ssm enh t => Sys2Proof.Machine.execEsmcRx e ssm enh t s
  | .refWindowEnd t meas => Sys2Proof.Machine.execRefWindowEnd t meas s
  | .dcoFofsWrite w v => Sys2Proof.Machine.execDcoFofsWrite w v s
  | .tbIncWrite w r v => Sys2Proof.Machine.execTbIncWrite w r v s
  | .tbSet w r => Sys2Proof.Machine.execTbSet w r s
  | .tbStep w r => Sys2Proof.Machine.execTbStep w r s
  | .tbAdjApply t => Sys2Proof.Machine.execTbAdjApply t s
  | .tbNowRead w r => Sys2Proof.Machine.execTbNowRead w r s
  | .multiwordRead w addr => Sys2Proof.Machine.execMultiwordRead w addr s
  | .ptpSyncRx n raw origin h corr twoStep => Sys2Proof.Machine.execPtpSyncRx n raw origin h corr twoStep s
  | .ptpFollowUpRx n origin h corr => Sys2Proof.Machine.execPtpFollowUpRx n origin h corr s
  | .ptpDelayReqRx n raw seq x => Sys2Proof.Machine.execPtpDelayReqRx n raw seq x s
  | .ptpDelayRespRx n t4 h corr => Sys2Proof.Machine.execPtpDelayRespRx n t4 h corr s
  | .ptpAnnounceRx n a t => Sys2Proof.Machine.execPtpAnnounceRx n a t s
  | .announceReceiptTimeout n t => Sys2Proof.Machine.execAnnounceReceiptTimeout n t s
  | .ptpSyncTx n raw => Sys2Proof.Machine.execPtpSyncTx n raw s
  | .ptpAnnounceTx n => Sys2Proof.Machine.execPtpAnnounceTx n s
  | .ptpDelayReqTx n raw => Sys2Proof.Machine.execPtpDelayReqTx n raw s
  | .phaseCorrectionEnd t => Sys2Proof.Machine.execPhaseCorrectionEnd t s
  | .servoModeWrite w v => Sys2Proof.Machine.execServoModeWrite w v s
  | .lockAcquire w page => Sys2Proof.Machine.execLockAcquire w page s
  | .lockRelease w page => Sys2Proof.Machine.execLockRelease w page s
  | .lockRecover w page => Sys2Proof.Machine.execLockRecover w page s
  | .lockLeaseExpiry page t => Sys2Proof.Machine.execLockLeaseExpiry page t s
  | .evRawClear page x => Sys2Proof.Machine.execEvRawClear page x s
  | .evInject page x => Sys2Proof.Machine.execEvInject page x s
  | .evtArmWrite h hi v => Sys2Proof.Machine.execEvtArmWrite h hi v s
  | .evrConfigWrite w h off v => Sys2Proof.Machine.execEvrConfigWrite w h off v s
  | .msixUnmask h vec => Sys2Proof.Machine.execMsixUnmask h vec s
  | .hostLinkDown h => Sys2Proof.Machine.execHostLinkDown h s
  | .hostLinkUp h => Sys2Proof.Machine.execHostLinkUp h s
  | .blockEnableWrite w page v => Sys2Proof.Machine.execBlockEnableWrite w page v s
  | .bar2AperWrite h v => Sys2Proof.Machine.execBar2AperWrite h v s
  | .bar2Access h off len wdata errs => Sys2Proof.Machine.execBar2Access h off len wdata errs s
  | .registerWrite w addr v => Sys2Proof.Machine.execRegisterWrite w addr v s
  | .spiWrite header data => Sys2Proof.Machine.execSpiWrite header data s
  | .spiRead header n => Sys2Proof.Machine.execSpiRead header n s
  | .cl4Start n => Sys2Proof.Machine.execCl4Start n s
  | .cl4Stop n => Sys2Proof.Machine.execCl4Stop n s
  | .cl4Apply n => Sys2Proof.Machine.execCl4Apply n s
  | .cl4SoftReset => Sys2Proof.Machine.execCl4SoftReset s
  | .asiPacketSend r n t => Sys2Proof.Machine.execAsiPacketSend r n t s
  | .glAttest w tag => Sys2Proof.Machine.execGlAttest w tag s
  | .glChallenge w tag => Sys2Proof.Machine.execGlChallenge w tag s
  | .glUnlock w tag => Sys2Proof.Machine.execGlUnlock w tag s
  | .glSvnCommit w tag => Sys2Proof.Machine.execGlSvnCommit w tag s
  | .glCustKey w tag => Sys2Proof.Machine.execGlCustKey w tag s
  | .glPcieBoot w tag img => Sys2Proof.Machine.execGlPcieBoot w tag img s
  | .nvmStoreRequest rec_ body => Sys2Proof.Machine.execNvmStoreRequest rec_ body s
  | .storeRecheck t => Sys2Proof.Machine.execStoreRecheck t s
  | .storeDone t => Sys2Proof.Machine.execStoreDone t s
  | .pfailAssert t => Sys2Proof.Machine.execPfailAssert t s
  | .pfailDeassert t => Sys2Proof.Machine.execPfailDeassert t s
  | .holdupSample raw t => Sys2Proof.Machine.execHoldupSample raw t s
  | .standaloneStart t sources => Sys2Proof.Machine.execStandaloneStart t sources s
  | .logRead w tag => Sys2Proof.Machine.execLogRead w tag s
  | .logFlush w tag => Sys2Proof.Machine.execLogFlush w tag s
  | .logEntryWait t => Sys2Proof.Machine.execLogEntryWait t s
  | .logSummary r hour => Sys2Proof.Machine.execLogSummary r hour s
  | .mpInjArm w r p v => Sys2Proof.Machine.execMpInjArm w r p v s
  | .rgnSramInjArm w r v => Sys2Proof.Machine.execRgnSramInjArm w r v s
  | .sramReadError r sram word ue idx => Sys2Proof.Machine.execSramReadError r sram word ue idx s
  | .pwrActive w r => Sys2Proof.Machine.execPwrActive w r s
  | .pwrIdle w r => Sys2Proof.Machine.execPwrIdle w r s
  | .pwrNap w r => Sys2Proof.Machine.execPwrNap w r s
  | .pwrPark w r => Sys2Proof.Machine.execPwrPark w r s
  | .powerTransitionDone r t => Sys2Proof.Machine.execPowerTransitionDone r t s
  | .esmcTimeout e t => Sys2Proof.Machine.execEsmcTimeout e t s
  | .rowIdleTimer r p bank clks => Sys2Proof.Machine.execRowIdleTimer r p bank clks s
  | .writeQueueIssue r p => Sys2Proof.Machine.execWriteQueueIssue r p s
  | .hostPortReset h => Sys2Proof.Machine.execHostPortReset h s
  | .islandUe n t => Sys2Proof.Machine.execIslandUe n t s
  | .pcrOnlyPacket c rd t => Sys2Proof.Machine.execPcrOnlyPacket c rd t s

end Sys2Proof.Machine
end

