-- ==== Sys2Proof/Safety.lean ====
section
/-! DEFINITION. The terms in which claims speak of a run: that a command answers a next state with a property, when a writer holds
a page's lock, and what stays as it was. -/

namespace Sys2Proof.Machine

/-- The command answers a next state, and that state has the property. -/
def Answers (i : Instr) (s : State) (Q : State → Prop) : Prop := ∃ t, exec i s = .next t ∧ Q t

/-- A lease that has run out (R400). -/
def Dev.leaseOver (d : Dev) (page : Nat) : Bool :=
  match tget? d.lease page with
  | some e => decide (e ≤ d.now)
  | none => false

/-- The writer holds the page's lock, and a command that it writes to the page takes effect (R398 to R400): the page answers it, is not
suspect, and the lease runs. -/
def Dev.holds (d : Dev) (w page : Nat) : Bool :=
  isPage page && d.pageAnswers w page && d.rd Reg.STATUS_SUSPECT page != 1 && d.owns w page && !(d.leaseOver page)

/-- Every register field reads as before, but for those under the keys listed. -/
def Dev.regsBut (d e : Dev) (ks : List Nat) : Prop :=
  ∀ (row : Row) (base i : Nat), row.key base i ∉ ks → e.rd row base i = d.rd row base i

/-- The device without what events, errors, locks and stores write. -/
def Dev.body (d : Dev) : Dev :=
  { d with regs := [], shadow := [], lockRes := [], lease := [], lowWords := [], snaps := [], hosts := [], lastSec := [],
           nvm := Dev.reset.nvm, free := 0, out := [] }

/-- What a device emitted since it stood as `d`. -/
def Dev.since (d e : Dev) : List Out := e.out.drop d.out.length

/-- Since `d`, region `r` was sent a token with the key of the four fields (R221, R224). -/
def Dev.tokenSent (d e : Dev) (r kind c rd row k : Nat) : Prop :=
  ∃ tok, Out.token r tok ∈ d.since e ∧ keyOf tok = d.tokenKey kind c rd row k

/-- What a device emitted last. -/
def Dev.lastOut (d : Dev) : Option Out := d.out.getLast?

/-- The canonical form of region memory, as a property of a state. -/
def State.ramWf (s : State) : Prop := Memory.wf s.ram = true

end Sys2Proof.Machine

namespace Sys2Proof

/-- The commands that write region memory, or lose its contents. -/
def Instr.writesMemory : Instr → Bool
  | .memWrite .. | .bar2Access .. | .statRecordWrite .. | .obsSample .. | .registerWrite .. | .por .. | .pinReset .. | .railFault ..
  | .regionReset .. | .returnReset .. | .thermalTrip .. | .blockReset .. | .trainingComplete .. | .retrainEnd .. => true
  | _ => false

/-- The commands that program fuses. -/
def Instr.programsFuses : Instr → Bool
  | .glSvnCommit .. | .glCustKey .. | .registerWrite .. => true
  | _ => false

end Sys2Proof
end

