-- ==== Sys2Proof/Certificates/Slice0/Obligations.lean ====
section
/-! DEFINITION. The statements about the model: one `def Obligations.<Name> : Prop` each, whose docstring names the rules that it rests on. -/

open Sys2Proof Sys2Proof.Machine

/-- R399: an ACQUIRE of a free lock gives it to the writer and is answered 1, or 2 after a break; a RELEASE by the owner frees
it and is answered 5; each changes LOCK.OWNER and no other register. An ACQUIRE of a lock that another writer holds is answered
3 and changes no register. R400: a lock whose lease has run out breaks: OWNER 0, BROKEN and SUSPECT 1, the old owner in
LAST_OWNER. R401: RECOVER by the owner of a chip page ends SUSPECT and BROKEN and drops the shadows that the page guards. -/
def Obligations.LocksPassAndBreak : Prop :=
  (∀ (w page : Nat) (s : State), isPage page = true → s.dev.pageAnswers w page = true → s.dev.lockReserved w page = false → w < 256 →
    s.dev.rd Reg.LOCK_OWNER page = 0 →
    Answers (.lockAcquire w page) s (fun t =>
      t.dev.rd Reg.LOCK_OWNER page = w
        ∧ tget t.dev.lockRes (page * 256 + w) 0 = (if s.dev.rd Reg.LOCK_BROKEN page = 1 then 2 else 1)
        ∧ s.dev.regsBut t.dev [Reg.LOCK_OWNER.key page 0])) ∧
  (∀ (w v page : Nat) (s : State), isPage page = true → s.dev.pageAnswers w page = true → s.dev.lockReserved w page = false →
    s.dev.rd Reg.LOCK_OWNER page = v → v ≠ 0 → v ≠ w → s.dev.leaseOver page = false →
    Answers (.lockAcquire w page) s (fun t =>
      tget t.dev.lockRes (page * 256 + w) 0 = 3 ∧ s.dev.regsBut t.dev [] ∧ t.dev.lease = s.dev.lease)) ∧
  (∀ (w page : Nat) (s : State), isPage page = true → s.dev.pageAnswers w page = true → s.dev.owns w page = true →
    s.dev.leaseOver page = false →
    Answers (.lockRelease w page) s (fun t =>
      t.dev.rd Reg.LOCK_OWNER page = 0 ∧ tget t.dev.lockRes (page * 256 + w) 0 = 5 ∧ tget? t.dev.lease page = none
        ∧ s.dev.regsBut t.dev [Reg.LOCK_OWNER.key page 0])) ∧
  (∀ (page t0 : Nat) (s : State), isPage page = true → (s.dev.advanceTo t0).leaseOver page = true →
    (s.dev.advanceTo t0).rd Reg.LOCK_OWNER page ≠ 0 → (s.dev.advanceTo t0).rd Reg.LOCK_OWNER page < 256 →
    Answers (.lockLeaseExpiry page t0) s (fun t =>
      t.dev.rd Reg.LOCK_OWNER page = 0 ∧ t.dev.rd Reg.LOCK_BROKEN page = 1 ∧ t.dev.rd Reg.STATUS_SUSPECT page = 1
        ∧ t.dev.rd Reg.LOCK_LAST_OWNER page = (s.dev.advanceTo t0).rd Reg.LOCK_OWNER page ∧ tget? t.dev.lease page = none
        ∧ t.dev.body = (s.dev.advanceTo t0).body)) ∧
  (∀ (w j : Nat) (s : State), j < 10 → s.dev.pageAnswers w (chipPage j) = true → s.dev.owns w (chipPage j) = true →
    s.dev.leaseOver (chipPage j) = false →
    Answers (.lockRecover w (chipPage j)) s (fun t =>
      t.dev.rd Reg.STATUS_SUSPECT (chipPage j) = 0 ∧ t.dev.rd Reg.LOCK_BROKEN (chipPage j) = 0
        ∧ (∀ e ∈ t.dev.shadow, s.dev.guardedBy (chipPage j) e.1 = false) ∧ t.dev.body = s.dev.body))

/-- R398: on a page whose lease has not run out, a command that the page's lock does not let through leaves the device's body
alone; ERR_CODE tells whether another writer owns the lock or the page is suspect. -/
def Obligations.LockGuardsCommands : Prop :=
  ∀ (w page : Nat) (f : Dev → Dev) (d : Dev), d.leaseOver page = false → d.gate w page ≠ .open_ →
    (d.locked w page f).body = d.body
      ∧ (isPage page = true → d.gate w page = .notOwner → (d.locked w page f).rd Reg.ERR_CODE_CODE page = cNotOwner)
      ∧ (isPage page = true → d.gate w page = .suspect → (d.locked w page f).rd Reg.ERR_CODE_CODE page = cSuspect)

/-- R393, R405: a write of EV_RAW by a writer that the page answers clears the bits written as 1 and changes no other register,
whoever owns the lock; a write of EV_INJECT sets the bits written as 1. R405: an event sets its bit in EV_RAW. The model's own
readings here: log entry 29. -/
def Obligations.EventBitsSetAndCleared : Prop :=
  (∀ (w page v : Nat) (s : State), isPage page = true → s.dev.pageAnswers w page = true → s.dev.leaseOver page = false →
    Answers (.evRawClear page ⟨w, v⟩) s (fun t =>
      t.dev.rd Reg.EV_RAW page = Nat.land (s.dev.rd Reg.EV_RAW page) (2 ^ 32 - 1 - v % 2 ^ 32)
        ∧ s.dev.regsBut t.dev [Reg.EV_RAW.key page 0] ∧ t.dev.out = s.dev.out)) ∧
  (∀ (w page v : Nat) (s : State), isPage page = true → s.dev.pageAnswers w page = true →
    Answers (.evInject page ⟨w, v⟩) s (fun t =>
      (∀ b, b < 32 → bitOf v b = true → bitOf (t.dev.rd Reg.EV_RAW page) b = true) ∧ t.dev.body = s.dev.body)) ∧
  (∀ (d : Dev) (page bit obj info err : Nat) (inj : Bool), isPage page = true → bit < 32 →
    bitOf ((d.event page bit obj info err inj).rd Reg.EV_RAW page) bit = true)

/-- R406, R409: with a host's ring enabled and a source mapped to it, a record goes to the ring while it has room and the port's
link is up: one record is emitted and EVR_WR advances by 32 modulo the size; without room EVR_LOST counts it and nothing is
emitted. R407: arming vectors of a port when none of its vectors is pending emits nothing. R409: EVR_CTRL.EN is written by the
port itself and by no other writer; EVR_SIZE takes 4 KiB to 16 MiB in steps of 4 KiB while the ring is disabled, and a write of
it while the ring is enabled changes nothing. The model's own readings here: log entry 28. -/
def Obligations.RingsAndPortBlocks : Prop :=
  (∀ (d : Dev) (h src bit obj info err : Nat) (inj : Bool), h < 2 → d.rd Reg.EVR_CTRL_EN pEVTREE h = 1 → d.mapped src h = true →
    (d.portUp h = true → d.ringRoom h = true →
      let e := d.ringWrite h src bit obj info err inj
      e.rd Reg.EVR_WR pEVTREE h = (d.rd Reg.EVR_WR pEVTREE h + 32) % d.rd Reg.EVR_SIZE pEVTREE h % 2 ^ 32
        ∧ e.out.length = d.out.length + 1) ∧
    (d.ringRoom h = false →
      let e := d.ringWrite h src bit obj info err inj
      e.rd Reg.EVR_LOST pEVTREE h = min (d.rd Reg.EVR_LOST pEVTREE h + 1) (2 ^ Reg.EVR_LOST.width - 1) ∧ e.out = d.out)) ∧
  (∀ (h hi v : Nat) (s : State), s.dev.portUp h = true → (∀ x, x < 64 → s.dev.vecPending h x = false) → hi < 2 → h < 2 →
    Answers (.evtArmWrite h hi v) s (fun t => (∀ b, b < 32 → bitOf v b = true → t.dev.armed h (b + 32 * hi) = true)
      ∧ t.dev.out = s.dev.out ∧ t.dev.body = s.dev.body)) ∧
  (∀ (h v : Nat) (s : State), h < 2 → s.dev.pageAnswers (h + 1) pEVTREE = true →
    Answers (.evrConfigWrite (h + 1) h 0 v) s (fun t => t.dev.rd Reg.EVR_CTRL_EN pEVTREE h = v % 2
      ∧ s.dev.regsBut t.dev [Reg.EVR_CTRL_EN.key pEVTREE h])) ∧
  (∀ (h v : Nat) (s : State), h < 2 → s.dev.pageAnswers (h + 1) pEVTREE = true → s.dev.rd Reg.EVR_CTRL_EN pEVTREE h ≠ 1 →
    4096 ≤ v → v ≤ 16777216 → v % 4096 = 0 →
    Answers (.evrConfigWrite (h + 1) h 0xC v) s (fun t => t.dev.rd Reg.EVR_SIZE pEVTREE h = v
      ∧ s.dev.regsBut t.dev [Reg.EVR_SIZE.key pEVTREE h])) ∧
  (∀ (h v : Nat) (s : State), h < 2 → s.dev.pageAnswers (h + 1) pEVTREE = true →
    s.dev.rd Reg.EVR_CTRL_EN pEVTREE h = 1 →
    Answers (.evrConfigWrite (h + 1) h 0xC v) s (fun t => t = s)) ∧
  (∀ (w h off v : Nat) (s : State), w ≠ h + 1 → s.dev.pageAnswers w pEVTREE = true →
    Answers (.evrConfigWrite w h off v) s (fun t => t.dev.rd Reg.ERR_CODE_CODE pEVTREE = cNotOwner ∧ t.dev.body = s.dev.body))

/-- R407: an unmasked vector is no longer masked and no longer held. R388, R400: a port's link down takes the port's locks from
it; a link up makes it up; a reset of the port masks its vectors, clears its table and takes its locks. R390: BAR2_APER takes a
region and a base of at most 64 GiB with no lock; a base above is ignored and counted. The model's own readings here: log entry
27. -/
def Obligations.HostPortsAnswer : Prop :=
  (∀ (h vec : Nat) (s : State), s.dev.portUp h = true → vec < 64 →
    Answers (.msixUnmask h vec) s (fun t => (t.dev.host h).vecMask = setBit (s.dev.host h).vecMask vec false
      ∧ (t.dev.host h).pba = setBit (s.dev.host h).pba vec false ∧ t.dev.regs = s.dev.regs)) ∧
  (∀ (h : Nat) (s : State), Answers (.hostLinkDown h) s (fun t => (t.dev.host h).linkUp = false
    ∧ (∀ p, p ∈ allPages → t.dev.owns (h + 1) p = false) ∧ t.dev.body = s.dev.body)) ∧
  (∀ (h : Nat) (s : State), Answers (.hostLinkUp h) s (fun t => (t.dev.host h).linkUp = true ∧ t.dev.body = s.dev.body)) ∧
  (∀ (h : Nat) (s : State), Answers (.hostPortReset h) s (fun t =>
    (t.dev.host h).linkUp = (s.dev.host h).linkUp ∧ (t.dev.host h).vecMask = 2 ^ 64 - 1 ∧ (t.dev.host h).table = []
      ∧ (∀ p, p ∈ allPages → t.dev.owns (h + 1) p = false) ∧ t.dev.body = s.dev.body)) ∧
  (∀ (h v : Nat) (s : State), h < 2 → s.dev.portUp h = true → bitsOf v 8 7 ≤ 64 →
    Answers (.bar2AperWrite h v) s (fun t => t.dev.rd Reg.BAR2_APER_REGION (aperPage h) = v % 8
      ∧ t.dev.rd Reg.BAR2_APER_BASE_GIB (aperPage h) = bitsOf v 8 7
      ∧ s.dev.regsBut t.dev [Reg.BAR2_APER_REGION.key (aperPage h) 0, Reg.BAR2_APER_BASE_GIB.key (aperPage h) 0])) ∧
  (∀ (h v : Nat) (s : State), h < 2 → s.dev.portUp h = true → 64 < bitsOf v 8 7 →
    Answers (.bar2AperWrite h v) s (fun t => s.dev.regsBut t.dev [Reg.ERR_COUNT.key pSHM 0]
      ∧ t.dev.rd Reg.ERR_COUNT pSHM = min (s.dev.rd Reg.ERR_COUNT pSHM + 1) (2 ^ 32 - 1)))

/-- R446, R456, R463: the release of POR, a PIN reset held for 10 µs, and a rail fault of more than 2 µs empty region memory,
leave the fuses and take the personality from the straps; no channel runs and admission is closed. R446, R448: a WARM reset
frees every channel and flow and closes admission; region memory and the fuses stay. The model's own readings here: log entry 6.
-/
def Obligations.PackageResetsStartAfresh : Prop :=
  (∀ (straps : List Straps) (s : State), straps.length = 8 →
    Answers (.por straps) s (fun t => t.ram = [] ∧ t.otp = s.otp ∧ t.pending = s.pending ∧ t.dev.rd Reg.RST_INFO_LAST pSHM = 0
      ∧ (s.otp.intact = true → t.dev.chans = [] ∧ t.dev.flows = [] ∧ t.dev.adm = none ∧ t.dev.sys.admOpen = false
          ∧ t.dev.sys.booted = false ∧ t.dev.sys.unlocked = false ∧ t.dev.sys.mode = (strapsOf straps).1))) ∧
  (∀ (straps : List Straps) (us : Nat) (s : State), straps.length = 8 → 10 ≤ us →
    Answers (.pinReset straps us) s (fun t => t.ram = [] ∧ t.otp = s.otp ∧ t.pending = s.pending ∧ t.dev.rd Reg.RST_INFO_LAST pSHM = 1
      ∧ (s.otp.intact = true → t.dev.chans = [] ∧ t.dev.flows = [] ∧ t.dev.adm = none ∧ t.dev.sys.admOpen = false
          ∧ t.dev.sys.booted = false ∧ t.dev.sys.unlocked = s.dev.sys.unlocked ∧ t.dev.sys.mode = (strapsOf straps).1))) ∧
  (∀ (rail mv ns : Nat) (straps : List Straps) (s : State), straps.length = 8 → rail < 15 → 2000 < ns →
    (mv < (railLimits rail).1 ∨ (railLimits rail).2 < mv) →
    exec (.railFault ⟨rail, mv⟩ ns straps) s = exec (.por straps) s
      ∧ Answers (.railFault ⟨rail, mv⟩ ns straps) s (fun t => t.ram = [] ∧ t.otp = s.otp ∧ t.dev.rd Reg.RST_INFO_LAST pSHM = 0)) ∧
  (∀ (straps : List Straps) (us : Nat) (s : State), us < 10 → exec (.pinReset straps us) s = .next s) ∧
  (∀ (rail mv ns : Nat) (straps : List Straps) (s : State),
    (ns ≤ 2000 ∨ ((railLimits rail).1 ≤ mv ∧ mv ≤ (railLimits rail).2)) → exec (.railFault ⟨rail, mv⟩ ns straps) s = .next s) ∧
  (∀ (w : Nat) (s : State), s.dev.holds w pSHM = true →
    Answers (.warmReset w) s (fun t => t.dev.chans = [] ∧ t.dev.rends = [] ∧ t.dev.flows = [] ∧ t.dev.adm = none ∧ t.dev.lease = []
      ∧ t.dev.sys.admOpen = false ∧ t.dev.rd Reg.RST_INFO_LAST pSHM = 2 ∧ t.ram = s.ram ∧ t.otp = s.otp))

/-- R449, R456: a REGION reset by the holder of the RGN page's lock, in a region that is neither held nor parked in the CL-4
personality, empties the region's memory and leaves every other region's; the core is in reset, RGN_RST.CAUSE is 3, and no task
is left in its dispatcher and no flow in its egress. R284, R449: the reset of a failed region whose core runs, 100 ms after the
take-over ended and while the holder reaches its island, empties its memory and leaves its core in reset with CAUSE 4. R3, R449,
R466: at 160 °C a region is held, its memory empty; below 160 °C nothing happens; 10 s below 145 °C end the hold and change no
register, shorter ones do not. The model's own readings here: log entry 6. -/
def Obligations.RegionsAreReset : Prop :=
  (∀ (w r : Nat) (s : State), r < 8 → s.dev.holds w (blk r ixRGN) = true → (s.dev.region r).held = false →
    ¬ (s.dev.sys.mode = 1 ∧ (s.dev.region r).pwr = .park) →
    Answers (.regionReset w r) s (fun t =>
      (∀ a, a < 2 ^ 64 → ramGet t.ram (ramKey r a) = 0)
        ∧ (∀ q a, q ≠ r → a < 2 ^ 64 → ramGet t.ram (ramKey q a) = ramGet s.ram (ramKey q a))
        ∧ (t.dev.region r).core = .reset ∧ (t.dev.region r).failedAt ≠ none ∧ t.dev.rd Reg.RGN_RST_CAUSE (blk r ixRGN) = 3
        ∧ tget? t.dev.ras r = none ∧ (∀ f, f < 2048 → tget? t.dev.flows (r * 2048 + f) = none) ∧ t.otp = s.otp)) ∧
  (∀ (n slot t0 x a r : Nat) (s : State), r < 8 → ((s.dev.advanceTo t0).pgActs n)[slot]? = some a →
    ((s.dev.advanceTo t0).pg n slot).doneAt = some x →
    r = (if (s.dev.advanceTo t0).pgServer n slot = a then (s.dev.advanceTo t0).pgStby n else a) →
    ((s.dev.advanceTo t0).region r).failedAt ≠ none → ((s.dev.advanceTo t0).region r).core = .run →
    ((s.dev.advanceTo t0).region r).held = false →
    ¬ ((s.dev.advanceTo t0).sys.mode = 1 ∧ ((s.dev.advanceTo t0).region r).pwr = .park) →
    x + 100000000 ≤ (s.dev.advanceTo t0).now → (s.dev.advanceTo t0).reachable (s.dev.advanceTo t0).holder r = true →
    Answers (.returnReset n slot t0) s (fun t => (∀ b, b < 2 ^ 64 → ramGet t.ram (ramKey r b) = 0)
      ∧ (t.dev.region r).core = .reset ∧ t.dev.rd Reg.RGN_RST_CAUSE (blk r ixRGN) = 4 ∧ tget? t.dev.ras r = none)) ∧
  (∀ (r : Nat) (tj : Int) (s : State), r < 8 → 640 ≤ tj →
    Answers (.thermalTrip r tj) s (fun t => (t.dev.region r).held = true ∧ t.otp = s.otp
      ∧ ((s.dev.region r).held = false → ¬ (s.dev.sys.mode = 1 ∧ (s.dev.region r).pwr = .park) →
          ∀ a, a < 2 ^ 64 → ramGet t.ram (ramKey r a) = 0))) ∧
  (∀ (r : Nat) (tj : Int) (s : State), tj < 640 → exec (.thermalTrip r tj) s = .next s) ∧
  (∀ (r ms t0 : Nat) (s : State), ((s.dev.advanceTo t0).region r).held = true → 10000 ≤ ms →
    Answers (.thermalRelease r ms t0) s (fun t => (t.dev.region r).held = false ∧ t.dev.regs = s.dev.regs ∧ t.dev.out = s.dev.out
      ∧ ∀ q, q ≠ r → t.dev.region q = s.dev.region q)) ∧
  (∀ (r ms t0 : Nat) (s : State), ms < 10000 →
    Answers (.thermalRelease r ms t0) s (fun t => t.dev = s.dev.advanceTo t0))

/-- R449: a region whose core is in reset, which is not held, whose island is verified, after the boot and the first election,
comes up: its core runs, it is no longer failed, REGION_UP is raised, and no other region's core, power state or memory changes.
R239, R447: firmware's NORMAL in an active region whose ports do not train puts its dispatcher into NORMAL and opens admission.
R430 to R432: an island verifies the next image set in boot order: a good set is booted, its island is verified, and its core
runs once media firmware may start (R31) and waits ready before; a bad set is entered among the failed ones and leaves the code
in GL_RESULT, and nothing is booted. Once a set is booted, a further island is verified with the same set. The model's own
readings here: log entries 125 and 128. -/
def Obligations.RegionsComeUp : Prop :=
  (∀ (r t0 : Nat) (s : State), r < 8 →
    let d := s.dev.advanceTo t0
    (d.region r).core = .reset → (d.region r).held = false → (d.island r).verified = true → d.sys.booted = true → d.sys.mode ≠ 3 →
    d.sys.mediaOk = true →
    Answers (.regionUp r t0) s (fun t => (t.dev.region r).core = .run ∧ (t.dev.region r).failedAt = none
      ∧ (t.dev.island r).fatal = false ∧ bitOf (t.dev.rd Reg.EV_RAW pSHM) 10 = true
      ∧ (∀ q, q ≠ r → t.dev.region q = s.dev.region q) ∧ t.ram = s.ram ∧ t.otp = s.otp)) ∧
  (∀ (r : Nat) (s : State), r < 8 → s.dev.active r = true → s.dev.raMode r ≠ 1 →
    (s.dev.raMode r = 0 → ∀ p, p < 4 → s.dev.rd Reg.MP_STATE_STATE (mpPage r p) ≠ 1) →
    Answers (.raModeNormal r) s (fun t => t.dev.raMode r = 1 ∧ t.dev.sys.admOpen = true ∧ t.ram = s.ram ∧ t.otp = s.otp)) ∧
  (∀ (i source slot : Nat) (img : ImageSet) (s : State), i < 8 → source < 3 → (s.dev.island i).aon = true →
    (s.dev.island i).verified = false → s.dev.sys.booted = false → s.dev.bootNext = some source →
    s.dev.sys.bootFails.contains (source * 2 + slot % 2) = false →
    ((s.dev.imageCode s.otp img).1 = 0 → Answers (.bootImageVerify i source slot img) s (fun t =>
      (t.dev.island i).verified = true ∧ t.dev.sys.booted = true ∧ t.dev.sys.bootSource = source ∧ t.dev.sys.bootSlot = slot % 2
        ∧ t.dev.sys.svnRun = [img.svn0 % 64, img.svn1 % 64, img.svn2 % 64]
        ∧ (s.dev.sys.mediaOk = true → s.dev.sys.mode ≠ 3 → (s.dev.region i).held = false → (s.dev.region i).core ≠ .off →
            (t.dev.region i).core = .run)
        ∧ (s.dev.sys.mediaOk = false → (t.dev.region i).core = (s.dev.region i).core ∧ (t.dev.region i).ready = true)
        ∧ t.ram = s.ram ∧ t.otp = s.otp)) ∧
    ((s.dev.imageCode s.otp img).1 ≠ 0 → Answers (.bootImageVerify i source slot img) s (fun t =>
      t.dev.isl = s.dev.isl ∧ t.dev.rgn = s.dev.rgn ∧ t.dev.sys.booted = false
        ∧ t.dev.sys.bootFails = s.dev.sys.bootFails ++ [source * 2 + slot % 2]
        ∧ t.dev.rd Reg.GL_RESULT_CODE pGLUME = (s.dev.imageCode s.otp img).1 ∧ bitOf (t.dev.rd Reg.EV_RAW pGLUME) 0 = true))) ∧
  (∀ (i source slot : Nat) (img : ImageSet) (s : State), i < 8 → source < 3 → (s.dev.island i).aon = true →
    (s.dev.island i).verified = false → s.dev.sys.booted = true → s.dev.sys.bootSource = source → s.dev.sys.bootSlot = slot % 2 →
    (s.dev.imageCode s.otp img).1 = 0 → Answers (.bootImageVerify i source slot img) s (fun t =>
      (t.dev.island i).verified = true ∧ t.dev.sys.booted = true ∧ t.dev.sys.bootSource = source
        ∧ (s.dev.sys.mediaOk = true → s.dev.sys.mode ≠ 3 → (s.dev.region i).held = false → (s.dev.region i).core ≠ .off →
            (t.dev.region i).core = .run) ∧ t.ram = s.ram ∧ t.otp = s.otp))

/-- R394, R450, R456: SOFT_RESET of a block other than RGN by the holder of its lock leaves no pending commit and no shadow that
its page guards, its error count at 0 and, but for the dispatcher's, its other counters at 0; it is no longer fenced, and no
region's core or power state changes. Region memory stays but for a memory port's: its window is empty, every other byte stays,
and the port, unless it is absent, trains. R394: a write of ENABLE that changes it takes effect unless it disables a block that
carries work: the block is then counted as out of its region's capacity exactly when it is disabled or fenced; a block that
carries work stays enabled, with ERR_CODE BLOCK_BUSY. A write of the value that ENABLE has, and any write on RGN, AWN, TIMEBASE
and the CTLCORE pages, changes no register. The model's own readings here: log entries 6 and 26. -/
def Obligations.BlocksResetAndEnabled : Prop :=
  (∀ (w r ix : Nat) (s : State), r < 8 → ix ≠ ixRGN → s.dev.holds w (blk r ix) = true →
    Answers (.blockReset w (blk r ix)) s (fun t =>
      tget? t.dev.pend (blk r ix) = none ∧ t.dev.rd Reg.COMMIT_RESULT_PENDING (blk r ix) = 0
        ∧ (∀ k, guardOf (k / 32 / 4 * 4) = some (blk r ix) → tget? t.dev.shadow k = none)
        ∧ t.dev.rd Reg.ERR_COUNT (blk r ix) = 0
        ∧ (ix ≠ ixRACHIS → ∀ row, row ∈ pageCounters ix → ∀ i, i < max 1 row.count → t.dev.rd row (blk r ix) i = 0)
        ∧ t.dev.rd Reg.STATUS_FENCED (blk r ix) = 0 ∧ t.dev.rgn = s.dev.rgn ∧ t.otp = s.otp
        ∧ (¬ (ixMEMPORT ≤ ix ∧ ix < ixMEMPORT + 4) → t.ram = s.ram))) ∧
  (∀ (w r p : Nat) (s : State), r < 8 → p < 4 → s.dev.holds w (mpPage r p) = true →
    Answers (.blockReset w (mpPage r p)) s (fun t =>
      (∀ a, p * 0x800000000 ≤ a → a < (p + 1) * 0x800000000 → ramGet t.ram (ramKey r a) = 0)
        ∧ (∀ a, a < p * 0x800000000 ∨ (p + 1) * 0x800000000 ≤ a → a < 2 ^ 64 →
            ramGet t.ram (ramKey r a) = ramGet s.ram (ramKey r a))
        ∧ (s.dev.rd Reg.MP_STATE_STATE (mpPage r p) ≠ 0 → t.dev.rd Reg.MP_STATE_STATE (mpPage r p) = 1))) ∧
  (∀ (w r ix v : Nat) (s : State), r < 8 → ixRGN < ix → ix ≠ ixAWN → ix ≠ ixTIMEBASE → ix < ixCTL →
    s.dev.holds w (blk r ix) = true →
    (s.dev.rd Reg.CTRL_ENABLE (blk r ix) ≠ v % 2 → (v % 2 = 0 → s.dev.blockCarries r ix = false) →
      Answers (.blockEnableWrite w (blk r ix) v) s (fun t => t.dev.rd Reg.CTRL_ENABLE (blk r ix) = v % 2
        ∧ t.dev.rd Reg.STATUS_ENABLED (blk r ix) = v % 2 ∧ t.dev.outOf r ix = (v % 2 == 0 || s.dev.rd Reg.STATUS_FENCED (blk r ix) == 1)
        ∧ t.dev.rgn = s.dev.rgn ∧ t.ram = s.ram ∧ (v % 2 = 1 → t.dev.flows = s.dev.flows))) ∧
    (s.dev.rd Reg.CTRL_ENABLE (blk r ix) = 1 → v % 2 = 0 → s.dev.blockCarries r ix = true →
      Answers (.blockEnableWrite w (blk r ix) v) s (fun t => t.dev.rd Reg.ERR_CODE_CODE (blk r ix) = cBlockBusy
        ∧ t.dev.rd Reg.CTRL_ENABLE (blk r ix) = 1 ∧ t.dev.body = s.dev.body)) ∧
    (s.dev.rd Reg.CTRL_ENABLE (blk r ix) = v % 2 →
      Answers (.blockEnableWrite w (blk r ix) v) s (fun t => t.dev.regs = s.dev.regs ∧ t.dev.body = s.dev.body))) ∧
  (∀ (w r ix v : Nat) (s : State), r < 8 → (ix = ixRGN ∨ ix = ixAWN ∨ ix = ixTIMEBASE ∨ ixCTL ≤ ix) →
    s.dev.holds w (blk r ix) = true →
    Answers (.blockEnableWrite w (blk r ix) v) s (fun t => t.dev.regs = s.dev.regs ∧ t.dev.body = s.dev.body))

/-- R451, R452: in a region that runs or is parked, is neither failed nor held and has no transition under way, a power request
that pwrRefusal does not refuse is answered 0 and reads back in RGN_PWR.REQ; one for another state begins the transition to it,
one for the state the region is in begins none. A request during a transition is refused with OP_INVALID, one that pwrRefusal
refuses with its code; both change RGN_PWR.RESULT and no other register. R451 to R453: at the end of a transition the region is
in the state it was to reach, BUSY is 0 and region memory stays; in PARK the core is off and its registers are kept in the
snapshot; out of PARK the core runs. The model's own readings here: log entry 130. -/
def Obligations.PowerStatesChange : Prop :=
  (∀ (w r : Nat) (p : Pwr) (i : Instr) (s : State),
    (i, p) ∈ [(Instr.pwrActive w r, Pwr.active), (.pwrIdle w r, .idle), (.pwrNap w r, .nap), (.pwrPark w r, .park)] → r < 8 →
    s.dev.holds w (blk r ixRGN) = true →
    (s.dev.rd Reg.RGN_PWR_BUSY (blk r ixRGN) = 0 → (s.dev.region r).held = false → (s.dev.region r).failedAt = none →
      ((s.dev.region r).core = .run ∨ ((s.dev.region r).core = .off ∧ (s.dev.region r).pwr = .park)) → s.dev.pwrRefusal r p = 0 →
      ((s.dev.region r).pwr ≠ p → Answers i s (fun t =>
        (t.dev.region r).target = some p ∧ (t.dev.region r).pwr = (s.dev.region r).pwr
          ∧ t.dev.rd Reg.RGN_PWR_BUSY (blk r ixRGN) = 1 ∧ t.dev.rd Reg.RGN_PWR_RESULT (blk r ixRGN) = 0
          ∧ t.dev.rd Reg.RGN_PWR_REQ (blk r ixRGN) = pwrCode p ∧ t.ram = s.ram)) ∧
      ((s.dev.region r).pwr = p → Answers i s (fun t =>
        t.dev.rgn = s.dev.rgn ∧ t.dev.rd Reg.RGN_PWR_RESULT (blk r ixRGN) = 0 ∧ t.dev.rd Reg.RGN_PWR_REQ (blk r ixRGN) = pwrCode p
          ∧ s.dev.regsBut t.dev [Reg.RGN_PWR_RESULT.key (blk r ixRGN) 0, Reg.RGN_PWR_REQ.key (blk r ixRGN) 0]))) ∧
    (s.dev.rd Reg.RGN_PWR_BUSY (blk r ixRGN) = 1 → Answers i s (fun t =>
      t.dev.rd Reg.RGN_PWR_RESULT (blk r ixRGN) = cOpInvalid ∧ t.dev.body = s.dev.body
        ∧ s.dev.regsBut t.dev [Reg.RGN_PWR_RESULT.key (blk r ixRGN) 0])) ∧
    (s.dev.rd Reg.RGN_PWR_BUSY (blk r ixRGN) = 0 → (s.dev.region r).held = false → (s.dev.region r).failedAt = none →
      (s.dev.region r).core = .run → s.dev.pwrRefusal r p ≠ 0 → Answers i s (fun t =>
        t.dev.rd Reg.RGN_PWR_RESULT (blk r ixRGN) = s.dev.pwrRefusal r p ∧ t.dev.body = s.dev.body
          ∧ s.dev.regsBut t.dev [Reg.RGN_PWR_RESULT.key (blk r ixRGN) 0]))) ∧
  (∀ (r t0 : Nat) (p : Pwr) (s : State), r < 8 → ((s.dev.advanceTo t0).region r).target = some p →
    Answers (.powerTransitionDone r t0) s (fun t => (t.dev.region r).pwr = p ∧ (t.dev.region r).target = none
      ∧ t.dev.rd Reg.RGN_PWR_STATE (blk r ixRGN) = pwrCode p ∧ t.dev.rd Reg.RGN_PWR_BUSY (blk r ixRGN) = 0 ∧ t.ram = s.ram
      ∧ (p = .park → (t.dev.region r).core = .off ∧ (t.dev.region r).snap ≠ none)
      ∧ (p ≠ .park → ((s.dev.advanceTo t0).region r).pwr = .park → (t.dev.region r).core = .run))) ∧
  (∀ (r t0 : Nat) (s : State), ((s.dev.advanceTo t0).region r).target = none →
    Answers (.powerTransitionDone r t0) s (fun t => t.dev = s.dev.advanceTo t0))

/-- R22, R24: a Stolon link that goes down joins the links that are down, each end raises its event, and every live channel that
spans over the link is in QUARANTINE with reason 0x23; a link that comes up leaves them, and each end raises its event; a
command that changes nothing leaves the state. R22: the route between two regions is the horizontal-first one if its links are
up, else the vertical-first one if its links are up, else none. R27: a broken segment of the ring is kept and raised on the
lower island's AWN page, and from the second break on each island with its supply reports the islands that it reaches. R278,
R345: egress-kill marks the region and its sixteen lanes killed. The model's own readings here: log entry 98. -/
def Obligations.LinksFailAndReturn : Prop :=
  (∀ (l : Nat) (s : State), l < 10 → s.dev.sys.linksDown.contains l = false →
    Answers (.stolonDown l) s (fun t => t.dev.sys.linksDown = l :: s.dev.sys.linksDown
      ∧ bitOf (t.dev.rd Reg.EV_RAW (blk (linkEnds l).1 ixSTOLON)) 0 = true
      ∧ bitOf (t.dev.rd Reg.EV_RAW (blk (linkEnds l).2 ixSTOLON)) 0 = true
      ∧ (∀ c, c < 128 → c ∈ s.dev.liveChans → s.dev.spanUses c l = true →
          t.dev.chState c = 4 ∧ t.dev.rd Reg.CH_STATE_STOP_REASON (wCHSTAT c) = 0x23) ∧ t.ram = s.ram)) ∧
  (∀ (l : Nat) (s : State), s.dev.sys.linksDown.contains l = true → l < 10 →
    Answers (.stolonUp l) s (fun t => t.dev.sys.linksDown = s.dev.sys.linksDown.filter (fun x => x != l)
      ∧ bitOf (t.dev.rd Reg.EV_RAW (blk (linkEnds l).1 ixSTOLON)) 1 = true
      ∧ bitOf (t.dev.rd Reg.EV_RAW (blk (linkEnds l).2 ixSTOLON)) 1 = true ∧ t.dev.chans = s.dev.chans ∧ t.ram = s.ram)) ∧
  (∀ (l : Nat) (s : State), s.dev.sys.linksDown.contains l = true → exec (.stolonDown l) s = .next s) ∧
  (∀ (l : Nat) (s : State), s.dev.sys.linksDown.contains l = false → exec (.stolonUp l) s = .next s) ∧
  (∀ (d : Dev) (a b : Nat), d.route a b = (if d.routeUp (hops a (routeH a b)) then some (hops a (routeH a b))
    else if d.routeUp (hops a (routeV a b)) then some (hops a (routeV a b)) else none)) ∧
  (∀ (a b n : Nat) (s : State), segmentOf a b = some n → s.dev.sys.awnBroken.contains n = false →
    Answers (.awnSegment a b) s (fun t => t.dev.sys.awnBroken = n :: s.dev.sys.awnBroken
      ∧ bitOf (t.dev.rd Reg.EV_RAW (blk (min a b) ixAWN)) 0 = true
      ∧ (s.dev.sys.awnBroken ≠ [] → ∀ i, i < 8 → (s.dev.island i).aon = true → .awnReach i (t.dev.ringMask i) ∈ t.dev.out)
      ∧ t.dev.chans = s.dev.chans ∧ t.ram = s.ram)) ∧
  (∀ (r : Nat) (s : State), r < 8 → (s.dev.island r).aon = true → (s.dev.region r).killed = false →
    Answers (.egressKill r) s (fun t => (t.dev.region r).killed = true
      ∧ (∀ n, n < 16 → t.dev.rd Reg.LN_STAT_KILLED (lanePage (r * 16 + n)) = 1)
      ∧ (∀ q, q ≠ r → t.dev.region q = s.dev.region q) ∧ t.ram = s.ram))

/-- R30, R31, R34, R35: an election that is due makes the lowest-numbered island that is healthy in the elector's view the
holder and the next one above it the shadow, with NO_SHADOW raised where there is none; it counts, the one that follows POR as
1; no timebase steps and TB_INC stays; from then on media firmware may start, and every region that waits ready, and is not
held, off or under a strap error, runs. With no healthy island the error is chip-fatal and every region is killed. An election
that is not due changes nothing but the time. R32: when the holder's island has reported a fatal error, or the shadow misses the
holder's beats on both paths, a healthy shadow becomes the holder, and no timebase steps. R29, R479: an uncorrectable word marks
the island; the lowest-numbered healthy island then holds the role, and with none left the error is chip-fatal. The model's own
readings here: log entry 119. -/
def Obligations.ElectionTakesLowestHealthy : Prop :=
  (∀ (t0 h : Nat) (rest : List Nat) (s : State), s.dev.sys.chipFatal = false →
    (s.dev.sys.elected = false ∨ s.dev.sys.electAt ≠ none) →
    let d := s.dev.advanceTo t0
    d.healthSet d.elector = h :: rest →
    Answers (.election t0) s (fun t => t.dev.rd Reg.ELECT_HOLDER pSHM = h ∧ t.dev.holder = h
      ∧ t.dev.rd Reg.ELECT_SHADOW_VALID pSHM = (if rest = [] then 0 else 1)
      ∧ (∀ x, rest.head? = some x → t.dev.rd Reg.ELECT_SHADOW pSHM = x)
      ∧ t.dev.rd Reg.ELECT_ELECT_COUNT pSHM = (if s.dev.sys.elected = false ∧ s.dev.rd Reg.RST_INFO_LAST pSHM = 0 then 1
          else (s.dev.rd Reg.ELECT_ELECT_COUNT pSHM + 1) % 256)
      ∧ t.dev.sys.elected = true ∧ t.dev.sys.electAt = none ∧ t.dev.sys.mediaOk = true
      ∧ (∀ r, r < 8 → d.sys.mode ≠ 3 → (d.region r).ready = true → (d.region r).held = false → (d.region r).core ≠ .off →
          (t.dev.region r).core = .run)
      ∧ (∀ q, (t.dev.tb q).cnt = (d.tb q).cnt) ∧ (s.dev.tbInc < 2 ^ 34 → t.dev.tbInc = s.dev.tbInc)
      ∧ (rest = [] → bitOf (t.dev.rd Reg.EV_RAW pSHM) 1 = true) ∧ t.ram = s.ram)) ∧
  (∀ (t0 : Nat) (s : State), s.dev.sys.chipFatal = false → (s.dev.sys.elected = false ∨ s.dev.sys.electAt ≠ none) →
    (s.dev.advanceTo t0).healthSet (s.dev.advanceTo t0).elector = [] →
    Answers (.election t0) s (fun t => t.dev.sys.chipFatal = true ∧ ∀ r, r < 8 → (t.dev.region r).killed = true)) ∧
  (∀ (t0 : Nat) (s : State), (s.dev.sys.chipFatal = true ∨ (s.dev.sys.elected = true ∧ s.dev.sys.electAt = none)) →
    Answers (.election t0) s (fun t => t.dev = s.dev.advanceTo t0)) ∧
  (∀ (fatal : Bool) (t0 : Nat) (s : State), s.dev.rd Reg.ELECT_SHADOW_VALID pSHM = 1 →
    s.dev.ownHealth (s.dev.rd Reg.ELECT_SHADOW pSHM) = true → s.dev.rd Reg.ELECT_SHADOW pSHM < 8 →
    ((fatal = true ∧ (s.dev.island s.dev.holder).fatal = true)
      ∨ s.dev.missed (s.dev.rd Reg.ELECT_SHADOW pSHM) s.dev.holder = true) →
    Answers (.holderLost fatal t0) s (fun t => t.dev.holder = s.dev.rd Reg.ELECT_SHADOW pSHM ∧ t.dev.sys.elected = true
      ∧ (∀ q, (t.dev.tb q).cnt = ((s.dev.advanceTo t0).tb q).cnt) ∧ t.dev.chans = s.dev.chans ∧ t.ram = s.ram)) ∧
  (∀ (i t0 : Nat) (s : State), i < 8 →
    let e := (s.dev.advanceTo t0).setIsland i (fun x => { x with ue := true })
    Answers (.islandUe i t0) s (fun t => (t.dev.island i).ue = true
      ∧ (∀ h rest, e.healthSet e.elector = h :: rest → t.dev.holder = h)
      ∧ ((∀ x, x < 8 → e.ownHealth x = false) → t.dev.sys.chipFatal = true) ∧ t.ram = s.ram))

/-- R28, R374: an island with its supply sends its beat on Awn and, while its region is active, on each of its Stolon ports; the
holder's carry its timebase and TB_INC, another's carry none; the timebase at which it left is kept, and no register changes. An
island without its supply sends nothing. R28: a beat whose path is open is heard: the path is no longer lost, its sender is
reachable, and the instant is kept. R37, R374: the holder's beat on Awn gives the observer its offset from the master, with half
the sum of the two ring delays as the way: TB_OFS_MASTER holds it in ps, an offset of more than 2 ns raises TB_OFFSET, a region
without channels is stepped by it and one with channels is left to slew by it; no other timebase changes. R28: 300 µs without a
heartbeat on a path make the path lost, and the sender unreachable when the other path is lost too; an Awn path lost alone
raises the alarm of R32. Before that nothing changes but the time. The model's own readings here: log entries 2, 111 and 151. -/
def Obligations.HeartbeatsTellTheWay : Prop :=
  (∀ (i t0 : Nat) (s : State), i < 8 → (s.dev.island i).aon = true →
    let d := s.dev.advanceTo t0
    let tb := if i = d.holder then (d.tb i).cnt / 2 ^ 16 else 0
    let inc := if i = d.holder then d.tbInc else 0
    Answers (.awnHeartbeatSend i t0) s (fun t =>
      t.dev.out = s.dev.out ++ .beat i .awn 0 tb inc
          :: (if d.active i then (sports i).map (fun p => Out.beat i .stolon p tb inc) else [])
        ∧ tget? t.dev.sys.beats i = some ((d.tb i).cnt / 2 ^ 16) ∧ t.dev.regs = s.dev.regs ∧ t.dev.tbs = d.tbs ∧ t.ram = s.ram)) ∧
  (∀ (i t0 : Nat) (s : State), (8 ≤ i ∨ (s.dev.island i).aon = false) →
    Answers (.awnHeartbeatSend i t0) s (fun t => t.dev = s.dev.advanceTo t0)) ∧
  (∀ (obs src : Nat) (path : Path) (ring : Nat × Nat) (t0 : Nat) (s : State), obs < 8 → src < 8 → obs ≠ src →
    (s.dev.island src).aon = true → (s.dev.island obs).aon = true →
    (path = .awn → s.dev.awnJoined src obs = true) →
    (path = .stolon → s.dev.active src = true ∧ s.dev.active obs = true ∧ (s.dev.route src obs).isSome = true) →
    let d := s.dev.advanceTo t0
    Answers (.awnHeartbeatRx obs src path ring t0) s (fun t =>
      t.dev.sys.reachLost.contains (reachKey obs src (pathNum path)) = false ∧ t.dev.reachable obs src = true
        ∧ tget t.dev.sys.heard (reachKey obs src (pathNum path)) 0 = d.now
        ∧ ((src ≠ d.holder ∨ path = .stolon) → t.dev.tbs = d.tbs) ∧ t.ram = s.ram)) ∧
  (∀ (obs src tb : Nat) (ring : Nat × Nat) (t0 : Nat) (s : State), obs < 8 → src < 8 → obs ≠ src →
    (s.dev.island src).aon = true → (s.dev.island obs).aon = true → s.dev.awnJoined src obs = true → src = s.dev.holder →
    tget? s.dev.sys.beats src = some tb →
    let d := s.dev.advanceTo t0
    let ofs : Int := ((d.tb obs).cnt : Int) - ((tb * 2 ^ 16 + (ring.1 + ring.2) * 2 ^ 32 / 2000 : Nat) : Int)
    Answers (.awnHeartbeatRx obs src .awn ring t0) s (fun t =>
      t.dev.rd Reg.TB_OFS_MASTER (blk obs ixTIMEBASE) = unsignedOf 32 (floorDiv (ofs * 1000) (2 ^ 32))
        ∧ (2 * 2 ^ 32 < ofs.natAbs → bitOf (t.dev.rd Reg.EV_RAW (blk obs ixTIMEBASE)) 0 = true)
        ∧ t.dev.tb obs = (if d.chansOn obs = [] then ⟨addInt (d.tb obs).cnt (-ofs), 0⟩ else ⟨(d.tb obs).cnt, ofs⟩)
        ∧ ∀ q, q ≠ obs → t.dev.tb q = d.tb q)) ∧
  (∀ (obs src : Nat) (path : Path) (t0 : Nat) (s : State), obs < 8 → src < 8 → obs ≠ src →
    s.dev.sys.reachLost.contains (reachKey obs src (pathNum path)) = false →
    tget s.dev.sys.heard (reachKey obs src (pathNum path)) 0 + 300000 ≤ (s.dev.advanceTo t0).now →
    Answers (.reachTimeout obs src path t0) s (fun t => t.dev.sys.reachLost.contains (reachKey obs src (pathNum path)) = true
      ∧ t.dev.reachable obs src = !(s.dev.sys.reachLost.contains (reachKey obs src (1 - pathNum path)))
      ∧ (path = .awn → s.dev.sys.reachLost.contains (reachKey obs src 1) = false → bitOf (t.dev.rd Reg.EV_RAW pSHM) 3 = true)
      ∧ t.ram = s.ram)) ∧
  (∀ (obs src : Nat) (path : Path) (t0 : Nat) (s : State),
    (s.dev.advanceTo t0).now < tget s.dev.sys.heard (reachKey obs src (pathNum path)) 0 + 300000 →
    Answers (.reachTimeout obs src path t0) s (fun t => t.dev = s.dev.advanceTo t0))

/-- R264, R265: a PG_CFG that passes the checks, while no region carries a channel, holds the fields written and answers 0; one
that fails the check of GROUP_INVALID answers 0x3E, and one that names region 0 outside the native personality 0x09, and each
changes no register but RESULT. R286: SWITCH schedules a revert of a READY slot and answers 0; HOLD sets the hold of a slot that
is taken, returning or reverting, and RELEASE ends one, each with 0; a command that the slot's state does not allow answers 0x3F
and changes no register but RESULT. The model's own readings here: log entry 116. -/
def Obligations.ProtectionGroupsObey : Prop :=
  (∀ (w n v : Nat) (s : State), n < 4 → s.dev.holds w pSHM = true →
    (s.dev.sys.mode = 0 ∨ (bitsOf v 4 3 ≠ 0 ∧ bitsOf v 8 3 ≠ 0 ∧ bitsOf v 12 3 ≠ 0)) →
    s.dev.pgValid n (v % 4) (bitsOf v 4 3) (bitsOf v 8 3) (bitsOf v 12 3) (bitsOf v 16 8) = true →
    (∀ r, s.dev.chansOn r = []) →
    Answers (.pgCfgWrite w n v) s (fun t => t.dev.rd Reg.PG_CFG_MODE pSHM n = v % 4
      ∧ t.dev.rd Reg.PG_CFG_ACT_A pSHM n = bitsOf v 4 3 ∧ t.dev.rd Reg.PG_CFG_ACT_B pSHM n = bitsOf v 8 3
      ∧ t.dev.rd Reg.PG_CFG_STBY pSHM n = bitsOf v 12 3 ∧ t.dev.rd Reg.PG_CFG_HOLDOFF_S pSHM n = bitsOf v 16 8
      ∧ t.dev.rd Reg.PG_STATUS_RESULT pSHM n = 0)) ∧
  (∀ (w n v : Nat) (s : State), n < 4 → s.dev.holds w pSHM = true →
    s.dev.pgValid n (v % 4) (bitsOf v 4 3) (bitsOf v 8 3) (bitsOf v 12 3) (bitsOf v 16 8) = false →
    Answers (.pgCfgWrite w n v) s (fun t => t.dev.rd Reg.PG_STATUS_RESULT pSHM n = 0x3E ∧ t.dev.body = s.dev.body
      ∧ s.dev.regsBut t.dev [Reg.PG_STATUS_RESULT.key pSHM n])) ∧
  (∀ (w n v : Nat) (s : State), n < 4 → s.dev.holds w pSHM = true → s.dev.sys.mode ≠ 0 → (v % 4 = 1 ∨ v % 4 = 2) →
    (bitsOf v 4 3 = 0 ∨ bitsOf v 12 3 = 0 ∨ (v % 4 = 2 ∧ bitsOf v 8 3 = 0)) →
    s.dev.pgValid n (v % 4) (bitsOf v 4 3) (bitsOf v 8 3) (bitsOf v 12 3) (bitsOf v 16 8) = true →
    Answers (.pgCfgWrite w n v) s (fun t => t.dev.rd Reg.PG_STATUS_RESULT pSHM n = 0x09 ∧ t.dev.body = s.dev.body
      ∧ s.dev.regsBut t.dev [Reg.PG_STATUS_RESULT.key pSHM n])) ∧
  (∀ (w n slot : Nat) (s : State), n < 4 → slot < 2 → s.dev.holds w pSHM = true → s.dev.pgState n slot = 2 →
    Answers (.pgSwitch w n slot) s (fun t => t.dev.pgState n slot = 6 ∧ (t.dev.pg n slot).swit = true
      ∧ (t.dev.pg n slot).revert = some s.dev.now ∧ t.dev.rd Reg.PG_STATUS_RESULT pSHM n = 0 ∧ t.dev.chans = s.dev.chans)) ∧
  (∀ (w n slot : Nat) (s : State), n < 4 → slot < 2 → s.dev.holds w pSHM = true → s.dev.pgState n slot ≠ 2 →
    Answers (.pgSwitch w n slot) s (fun t => t.dev.rd Reg.PG_STATUS_RESULT pSHM n = 0x3F ∧ t.dev.body = s.dev.body
      ∧ s.dev.regsBut t.dev [Reg.PG_STATUS_RESULT.key pSHM n])) ∧
  (∀ (w n slot : Nat) (s : State), n < 4 → slot < 2 → s.dev.holds w pSHM = true → 4 ≤ s.dev.pgState n slot → s.dev.pgState n slot ≤ 6 →
    Answers (.pgHold w n slot) s (fun t => t.dev.pgHeld n slot = true ∧ t.dev.rd Reg.PG_STATUS_RESULT pSHM n = 0
      ∧ t.dev.body = s.dev.body ∧ s.dev.regsBut t.dev [Reg.PG_STATUS_RESULT.key pSHM n,
          (if slot = 0 then Reg.PG_STATUS_HOLD_A else Reg.PG_STATUS_HOLD_B).key pSHM n])) ∧
  (∀ (w n slot : Nat) (i : Instr) (s : State), n < 4 → slot < 2 → s.dev.holds w pSHM = true →
    ((i = .pgHold w n slot ∧ (s.dev.pgState n slot < 4 ∨ 6 < s.dev.pgState n slot)) ∨ (i = .pgRelease w n slot ∧ s.dev.pgHeld n slot = false)) →
    Answers i s (fun t => t.dev.rd Reg.PG_STATUS_RESULT pSHM n = 0x3F ∧ t.dev.body = s.dev.body
      ∧ s.dev.regsBut t.dev [Reg.PG_STATUS_RESULT.key pSHM n])) ∧
  (∀ (w n slot : Nat) (s : State), n < 4 → slot < 2 → s.dev.holds w pSHM = true → s.dev.pgHeld n slot = true →
    Answers (.pgRelease w n slot) s (fun t => t.dev.pgHeld n slot = false ∧ t.dev.rd Reg.PG_STATUS_RESULT pSHM n = 0
      ∧ t.dev.chans = s.dev.chans ∧ s.dev.regsBut t.dev [Reg.PG_STATUS_RESULT.key pSHM n,
          (if slot = 0 then Reg.PG_STATUS_HOLD_A else Reg.PG_STATUS_HOLD_B).key pSHM n]))

/-- R275, R477, R478: a missed firmware beat of an active region and a fatal report of an island with its supply kill the
region's transmitters and make it fail: REGION_DOWN is raised and each of its unprotected channels is in QUARANTINE with
REGION_LOST. R276: a slot's region from which the witness hears no beat on either path is declared failed, with REGION_DOWN;
while it hears one nothing changes but the time. R279: a region that hears neither its witness nor its standby is cut off; no
other region and no register changes. R277, R280, R287: the grant for a slot declared failed, which its taker can serve: the
grant is emitted, the taker serves the slot in RECOVERY dispatch and leads the slot's protected channels, PG_LAST tells the
cause, the take-over is counted and its event raised. The model's own readings here: log entries 2 and 112. -/
def Obligations.FailuresMoveTheGrant : Prop :=
  (∀ (r t0 : Nat) (i : Instr) (s : State), r < 8 →
    ((i = .fwBeatMiss r t0 ∧ s.dev.active r = true) ∨ (i = .islandFatalReport r t0 ∧ (s.dev.island r).aon = true)) →
    Answers i s (fun t => (t.dev.region r).failedAt ≠ none ∧ (t.dev.region r).killed = true ∧ (t.dev.island r).fatal = true
      ∧ ((s.dev.region r).failedAt = none → bitOf (t.dev.rd Reg.EV_RAW pSHM) 9 = true
          ∧ ∀ c, c < 128 → c ∈ s.dev.chansOn r → s.dev.protectedCh c = false →
              t.dev.chState c = 4 ∧ t.dev.rd Reg.CH_STATE_STOP_REASON (wCHSTAT c) = 0x24)
      ∧ t.ram = s.ram)) ∧
  (∀ (n slot t0 a : Nat) (s : State), (s.dev.pgActs n)[slot]? = some a →
    s.dev.missed (s.dev.witness n) (s.dev.pgServer n slot) = true →
    Answers (.regionFailDeclare n slot t0) s (fun t => (t.dev.region (s.dev.pgServer n slot)).failedAt ≠ none
      ∧ ((s.dev.region (s.dev.pgServer n slot)).failedAt = none → bitOf (t.dev.rd Reg.EV_RAW pSHM) 9 = true) ∧ t.ram = s.ram)) ∧
  (∀ (n slot t0 : Nat) (s : State), s.dev.missed (s.dev.witness n) (s.dev.pgServer n slot) = false →
    Answers (.regionFailDeclare n slot t0) s (fun t => t.dev = s.dev.advanceTo t0)) ∧
  (∀ (r t0 n slot : Nat) (s : State), s.dev.slotOf r = some (n, slot) → s.dev.missed r (s.dev.witness n) = true →
    s.dev.missed r (s.dev.pgStby n) = true →
    Answers (.witnessBeatLoss r t0) s (fun t => (t.dev.region r).cutOff = true ∧ t.dev.regs = s.dev.regs ∧ t.dev.chans = s.dev.chans
      ∧ ∀ q, q ≠ r → t.dev.region q = s.dev.region q)) ∧
  (∀ (n slot t0 a cause at_ : Nat) (s : State), n < 4 → slot < 2 → cause < 16 → a < 8 →
    let d := s.dev.advanceTo t0
    let e := d.pgEvalAll
    let from_ := d.pgServer n slot
    let tk := d.slotTaker n slot a
    let v := e.notReady n slot from_ tk
    (d.pgActs n)[slot]? = some a → (d.pg n slot).declared = some (cause, at_) → d.declaredBefore n slot a at_ = false →
    d.pgState n slot ≠ 3 → (d.pgState n slot = 1 ∨ d.pgState n slot = 2 → e.pgState n slot ≠ 3) →
    (d.pgState n slot ≤ 2 → bitOf v 0 = false ∧ bitOf v 4 = false ∧ bitOf v 5 = false) → e.active tk = true → tk < 8 →
    Answers (.takeover n slot t0) s (fun t => t.dev.pgServer n slot = tk ∧ t.dev.rd Reg.PG_LAST_CAUSE pSHM n = cause
      ∧ t.dev.rd Reg.PG_STATUS_TAKEOVERS pSHM n
          = min (s.dev.rd Reg.PG_STATUS_TAKEOVERS pSHM n + 1) (2 ^ Reg.PG_STATUS_TAKEOVERS.width - 1)
      ∧ (t.dev.pg n slot).takeAt = some at_ ∧ (tk ≠ a → t.dev.pgState n slot = 4 ∨ t.dev.pgState n slot = 5)
      ∧ t.dev.raMode tk = 3 ∧ Out.grant n slot tk ∈ t.dev.out ∧ bitOf (t.dev.rd Reg.EV_RAW pSHM) 5 = true
      ∧ (∀ c, c < 128 → c ∈ d.protOn from_ → (d.chan c).regions = [from_] → from_ ≠ tk → (t.dev.chan c).regions = [tk])
      ∧ t.ram = s.ram))

/-- R285: a slot that has been ready for the hold-off and is not held is scheduled to revert. Each of its channels whose frame's
grant is due and which has not handed over hands over to the other region. Once the frame of each has departed, the token
passes: the other region serves the slot and leads the channels, and the slot is READY, or TAKEN after a SWITCH (R286), each
with its event. The model's own readings here: log entries 2 and 117. -/
def Obligations.RevertPassesTheToken : Prop :=
  (∀ (n slot t0 x : Nat) (s : State), n < 4 → slot < 2 →
    let d := (s.dev.advanceTo t0).pgEvalAll
    (d.pg n slot).readySince = some x → d.pgState n slot = 5 → d.pgHeld n slot = false →
    x + d.rd Reg.PG_CFG_HOLDOFF_S pSHM n * 1000000000 ≤ d.now →
    Answers (.revertSchedule n slot t0) s (fun t => t.dev.pgState n slot = 6 ∧ (t.dev.pg n slot).revert = some d.now
      ∧ (t.dev.pg n slot).swit = false ∧ (t.dev.pg n slot).handed = [] ∧ t.dev.chans = s.dev.chans ∧ t.ram = s.ram)) ∧
  (∀ (n slot t0 a at_ c : Nat) (s : State),
    let d := s.dev.advanceTo t0
    (d.pgActs n)[slot]? = some a → (d.pg n slot).revert = some at_ → d.pgState n slot = 6 →
    (d.pgHeld n slot = false ∨ (d.pg n slot).handed ≠ []) →
    c ∈ d.protOn (d.revertEnds n slot a).1 → (d.pg n slot).handed.contains c = false →
    d.frameGrant c (d.revertFrame c at_) ≤ (d.nowTu : Int) →
    Answers (.revertHandover n slot t0) s (fun t => c ∈ (t.dev.pg n slot).handed
      ∧ (∃ k, (t.dev.chan c).handTo = some (k, (d.revertEnds n slot a).2)) ∧ t.dev.pgState n slot = 6 ∧ t.ram = s.ram)) ∧
  (∀ (n slot t0 a at_ : Nat) (s : State), n < 4 → slot < 2 → a < 8 →
    let d := s.dev.advanceTo t0
    let ends := d.revertEnds n slot a
    (d.pgActs n)[slot]? = some a → (d.pg n slot).revert = some at_ → d.pgState n slot = 6 → d.pgStby n < 8 →
    d.protOn ends.1 ≠ [] →
    (∀ c, c ∈ d.protOn ends.1 → ∃ k q, (d.chan c).handTo = some (k, q) ∧ d.frameDepart c k ≤ d.now) →
    Answers (.revertComplete n slot t0) s (fun t => t.dev.pgServer n slot = ends.2
      ∧ t.dev.pgState n slot = (if (d.pg n slot).swit then 4 else 2) ∧ t.dev.pg n slot = PgSlot.init
      ∧ (∀ c, c ∈ d.protOn ends.1 → (t.dev.chan c).regions = [ends.2]) ∧ Out.grant n slot ends.2 ∈ s.dev.since t.dev
      ∧ bitOf (t.dev.rd Reg.EV_RAW pSHM) (if (d.pg n slot).swit then 5 else 7) = true ∧ t.ram = s.ram))

/-- R270, R271: the commit word of the record that waits under its number is written, with MR_CNT, and the record is then valid
unless its body came poisoned; the tick slice's MIRROR_DONE token goes to the channel's lead. A number under which no record
waits changes nothing. R189, R193, R270: a DU copy that arrives in the region that tracks the channel is held there, and its
UNIT_ARRIVED token goes to that region. The model's own readings here: log entry 114. -/
def Obligations.StandbyTakesRecords : Prop :=
  (∀ (c rd seq : Nat) (p : Bool) (x : MirRec) (s : State), s.dev.live c = true →
    (let m := tget s.dev.mirs (c * 8 + rd) Mirror.init; (if seq % 2 = 0 then m.rec0 else m.rec1) = some x) → x.seq = seq → x.ok = false →
    let du := (s.dev.rend c rd).dus.find? (fun u => u.i == seq)
    Answers (.mirrorCommit c rd seq p) s (fun t => Out.mirror c rd seq (!p) ∈ s.dev.since t.dev
      ∧ t.dev.rd Reg.MR_CNT (blk (s.dev.lead c) ixMIRROR) = (s.dev.rd Reg.MR_CNT (blk (s.dev.lead c) ixMIRROR) + 1) % 2 ^ Reg.MR_CNT.width
      ∧ (du = none → (let m := tget t.dev.mirs (c * 8 + rd) Mirror.init
          (if seq % 2 = 0 then m.rec0 else m.rec1) = some { x with ok := !p }))
      ∧ (∀ u, du = some u → s.dev.tokenSent t.dev (s.dev.lead c) 0x0C c rd u.j u.k) ∧ t.ram = s.ram)) ∧
  (∀ (c rd seq : Nat) (p : Bool) (s : State),
    (let m := tget s.dev.mirs (c * 8 + rd) Mirror.init; (if seq % 2 = 0 then m.rec0 else m.rec1) = none) →
    Answers (.mirrorCommit c rd seq p) s (fun t => t = s)) ∧
  (∀ (r c rd row bytes : Nat) (u : Du) (s : State), s.dev.live c = true → s.dev.active r = true →
    (s.dev.tracked r).contains c = true →
    (tget s.dev.mirs (c * 8 + rd) Mirror.init).dus.reverse.find? (fun u => u.j == row) = some u →
    Answers (.unitArrived r c rd row bytes) s (fun t =>
      (tget t.dev.mirs (c * 8 + rd) Mirror.init).got.contains u.i = true ∧ s.dev.tokenSent t.dev r 0x09 c rd row u.k
        ∧ t.ram = s.ram))

/-- R370: TB_INC by the lock's holder whom the servo mode allows, on the Sheaf Manager holder's page and within the range, is
the increment in force, and no other register changes. R371: a SET or STEP whose TB_LOAD has a nanoseconds field below 10^9
waits for the first whole ms at least 200 µs ahead; one above is refused with OP_INVALID and nothing waits. At its instant every
region's timebase moves by the same amount, and the master holds the value loaded by a SET, or its value plus the step, where
the register's range holds it; a SET makes TB_STATUS.VALID 1 (R368); before that instant nothing changes but the time. The
model's own readings here: log entries 2, 51 and 53. -/
def Obligations.TimebaseSteered : Prop :=
  (∀ (w v : Nat) (s : State), s.dev.holder < 8 → s.dev.holds w (blk s.dev.holder ixTIMEBASE) = true → s.dev.servoAllows w = true →
    v < 2 ^ 34 →
    (let span := 2 ^ 33 * (if s.dev.liveChans = [] then 500 else s.dev.rd Reg.TB_CTRL_SLEW_PPM (blk s.dev.holder ixTIMEBASE)) / 1000000
     2 ^ 33 ≤ v + span ∧ v ≤ 2 ^ 33 + span) →
    Answers (.tbIncWrite w s.dev.holder v) s (fun t => t.dev.tbInc = v ∧ t.dev.body = s.dev.body
      ∧ s.dev.regsBut t.dev [Reg.TB_INC_LO.key (blk s.dev.holder ixTIMEBASE) 0, Reg.TB_INC_HI.key (blk s.dev.holder ixTIMEBASE) 0])) ∧
  (∀ (isSet : Bool) (w : Nat) (x : Int) (s : State), s.dev.holder < 8 → s.dev.holds w (blk s.dev.holder ixTIMEBASE) = true →
    s.dev.servoAllows w = true → s.dev.tbLoad isSet = (x, true) →
    Answers (if isSet then .tbSet w s.dev.holder else .tbStep w s.dev.holder) s (fun t =>
      t.dev.sys.adj = some ⟨isSet, x, roundUpTo (s.dev.now + 200000) 1000000⟩
        ∧ t.dev.rd Reg.TB_ADJ_PENDING (blk s.dev.holder ixTIMEBASE) = 1 ∧ t.dev.tbs = s.dev.tbs
        ∧ s.dev.regsBut t.dev [Reg.TB_ADJ_PENDING.key (blk s.dev.holder ixTIMEBASE) 0])) ∧
  (∀ (t0 : Nat) (a : TbAdj) (s : State), s.dev.sys.adj = some a → s.dev.holder < 8 → a.atNs ≤ (s.dev.advanceTo t0).now →
    let d := s.dev.advanceTo t0
    let new : Int := if a.isSet then a.val else (d.nowTu : Int) + a.val
    Answers (.tbAdjApply t0) s (fun t =>
      (∃ delta : Int, (∀ q, q < 8 → (t.dev.tb q).cnt = addInt (d.tb q).cnt (delta * 65536))
          ∧ (tbHolds new = true → delta = new - (d.nowTu : Int)))
        ∧ (tbHolds new = true → ((t.dev.nowTu : Nat) : Int) = new)
        ∧ (a.isSet = true → ∀ q, q < 8 → t.dev.rd Reg.TB_STATUS_VALID (blk q ixTIMEBASE) = 1)
        ∧ t.dev.rd Reg.TB_ADJ_RESULT (blk s.dev.holder ixTIMEBASE) = 0 ∧ t.dev.rd Reg.TB_ADJ_PENDING (blk s.dev.holder ixTIMEBASE) = 0
        ∧ t.dev.sys.adj = none ∧ t.ram = s.ram)) ∧
  (∀ (t0 : Nat) (s : State), (∀ a, s.dev.sys.adj = some a → (s.dev.advanceTo t0).now < a.atNs) →
    Answers (.tbAdjApply t0) s (fun t => t.dev = s.dev.advanceTo t0)) ∧
  (∀ (isSet : Bool) (w : Nat) (s : State), s.dev.holder < 8 → s.dev.holds w (blk s.dev.holder ixTIMEBASE) = true →
    s.dev.servoAllows w = true → (s.dev.tbLoad isSet).2 = false →
    Answers (if isSet then .tbSet w s.dev.holder else .tbStep w s.dev.holder) s (fun t =>
      t.dev.rd Reg.TB_ADJ_RESULT (blk s.dev.holder ixTIMEBASE) = cOpInvalid ∧ t.dev.body = s.dev.body
        ∧ s.dev.regsBut t.dev [Reg.TB_ADJ_RESULT.key (blk s.dev.holder ixTIMEBASE) 0]))

/-- R369, R384: a read of TB_NOW by a reader that the page answers gives the three words of the timebase and the status as they
stand on one clock. R392: a read of an aligned word gives that word; a read of a field's lowest word also keeps, for its reader,
the higher words as they stand. No register and no timebase changes. The model's own readings here: log entry 33. -/
def Obligations.ReadsAnswerOneClock : Prop :=
  (∀ (w r : Nat) (s : State), r < 8 → s.dev.readable w (blk r ixTIMEBASE + 0x100) = true →
    Answers (.tbNowRead w r) s (fun t => t.dev.out = s.dev.out ++ [.hostData w (s.dev.tbWords r ++ [s.dev.tbStatus r])]
      ∧ t.dev.regs = s.dev.regs ∧ t.dev.tbs = s.dev.tbs)) ∧
  (∀ (w addr : Nat) (s : State), addr % 4 = 0 →
    Answers (.multiwordRead w addr) s (fun t => t.dev.out = s.dev.out ++ [.hostData w [s.dev.readWord w addr]]
      ∧ t.dev.regs = s.dev.regs ∧ t.dev.tbs = s.dev.tbs)) ∧
  (∀ (w addr i : Nat) (s : State), addr % 4 = 0 → s.dev.readable w addr = true → isHighWord addr = false → i < multiWords addr →
    Answers (.multiwordRead w addr) s (fun t =>
      tget t.dev.snaps (snapKey w (addr + 4 * i)) 0 = s.dev.liveWord w (addr + 4 * i)))

/-- R376, R378, R379: a time receiver, once what was written to its configuration has applied (R385), takes t2 of a Sync of its
domain from the transmitter that it follows, and t1 from that Sync when it is one-step or else from the Follow_Up with its
sequence number; a Sync without a valid time-stamp is counted and leaves the exchange alone. It sends its Delay_Req with the
next sequence number and takes t3. A Delay_Resp that ends the exchange publishes the offset and the mean path delay and counts
PTP_SEQ; TB_INC, TB_ADJ and DCO_FOFS stay as they are in HOST mode (R381) or where the DPLL is not STEERED to this instance
(R380). A message of another domain or transmitter changes nothing. The model's own readings here: log entries 2 and 110. -/
def Obligations.PtpReceiverMeasures : Prop :=
  (∀ (n dom src raw origin seq : Nat) (corr : Int) (two : Bool) (s : State),
    let e := s.dev.ptpDue n
    e.ptpHears n dom src = true →
    Answers (.ptpSyncRx n raw origin ⟨⟨dom, src⟩, seq⟩ corr two) s (fun t =>
      (∀ t2, e.rxStamp n raw = some t2 → two = true → (t.dev.ptpSt n).wait2 = some (t2 - corr, seq))
        ∧ (∀ t2, e.rxStamp n raw = some t2 → two = false → (t.dev.ptpSt n).t1 = some ((origin : Int) + corr)
            ∧ (t.dev.ptpSt n).t2 = some t2 ∧ (t.dev.ptpSt n).wait2 = none)
        ∧ (raw ≠ 0 → t.dev.regs = e.regs)
        ∧ (raw = 0 → t.dev.ptp = e.ptp ∧ e.regsBut t.dev [Reg.PTP_CNT_TS_MISS.key (pPTPI n) 0]
            ∧ t.dev.rd Reg.PTP_CNT_TS_MISS (pPTPI n) = min (e.rd Reg.PTP_CNT_TS_MISS (pPTPI n) + 1) 0xFFFF)
        ∧ t.dev.out = e.out ∧ t.ram = s.ram)) ∧
  (∀ (n dom src origin seq : Nat) (corr t2 : Int) (s : State),
    let e := s.dev.ptpDue n
    e.ptpHears n dom src = true → (e.ptpSt n).wait2 = some (t2, seq) →
    Answers (.ptpFollowUpRx n origin ⟨⟨dom, src⟩, seq⟩ corr) s (fun t => (t.dev.ptpSt n).t1 = some ((origin : Int) + corr)
      ∧ (t.dev.ptpSt n).t2 = some t2 ∧ (t.dev.ptpSt n).wait2 = none ∧ t.dev.regs = e.regs ∧ t.dev.out = e.out ∧ t.ram = s.ram)) ∧
  (∀ (n raw : Nat) (s : State),
    let e := s.dev.ptpDue n
    let q := (e.ptpSt n).seqReq
    e.ptpRole n = some 0 → e.ptpState n = ptpReceiver →
    Answers (.ptpDelayReqTx n raw) s (fun t => (t.dev.ptpSt n).seqReq = (q + 1) % 65536
      ∧ t.dev.out = e.out ++ [.ptp n 2 q [(e.ptpRd n Reg.PTP_CTRL_DELAY_UNICAST : Nat)]]
      ∧ (∀ t3, e.txStamp n raw = some t3 → (t.dev.ptpSt n).t3 = some (t3, q) ∧ t.dev.regs = e.regs)
      ∧ (raw = 0 → (t.dev.ptpSt n).t3 = none ∧ e.regsBut t.dev [Reg.PTP_CNT_TS_MISS.key (pPTPI n) 0]) ∧ t.ram = s.ram)) ∧
  (∀ (n dom src t4 seq : Nat) (corr t1 t2 t3 : Int) (s : State),
    let e := s.dev.ptpDue n
    e.ptpHears n dom src = true → (e.ptpSt n).t1 = some t1 → (e.ptpSt n).t2 = some t2 → (e.ptpSt n).t3 = some (t3, seq) →
    let a := t2 - t1
    let b := (t4 : Int) - corr - t3
    Answers (.ptpDelayRespRx n t4 ⟨⟨dom, src⟩, seq⟩ corr) s (fun t =>
      t.dev.rdPair Reg.PTP_OFS_LO Reg.PTP_OFS_HI (pPTPI n)
          = unsignedOf 64 (floorDiv (a - b) 2 - e.rdI Reg.PTL_ASYM (e.ptpLane n))
        ∧ t.dev.rdPair Reg.PTP_MPD_LO Reg.PTP_MPD_HI (pPTPI n) = unsignedOf 64 (floorDiv (a + b) 2)
        ∧ t.dev.rd Reg.PTP_SEQ (pPTPI n) = (e.rd Reg.PTP_SEQ (pPTPI n) + 1) % 2 ^ 32
        ∧ (t.dev.ptpSt n).t3 = none ∧ t.dev.out = e.out ∧ t.ram = s.ram
        ∧ (e.rd Reg.PTP_SERVO_MODE pPTP = 1 ∨ e.steers n = false → t.dev.tbInc = e.tbInc ∧ t.dev.sys.adj = e.sys.adj
            ∧ t.dev.rd Reg.DCO_FOFS pDPLL = e.rd Reg.DCO_FOFS pDPLL))) ∧
  (∀ (n dom src t4 seq raw origin : Nat) (corr : Int) (two : Bool) (s : State),
    let e := s.dev.ptpDue n
    e.ptpHears n dom src = false →
    Answers (.ptpSyncRx n raw origin ⟨⟨dom, src⟩, seq⟩ corr two) s (fun t => t.dev = e ∧ t.ram = s.ram) ∧
    Answers (.ptpFollowUpRx n origin ⟨⟨dom, src⟩, seq⟩ corr) s (fun t => t.dev = e ∧ t.ram = s.ram) ∧
    Answers (.ptpDelayRespRx n t4 ⟨⟨dom, src⟩, seq⟩ corr) s (fun t => t.dev = e ∧ t.ram = s.ram))

/-- R376 to R379: a time transmitter, once what was written to its configuration has applied (R385), answers a Delay_Req of its
domain with t4 and the requester's identity, sends its Sync with t1 in one step or two, and announces the class and accuracy of
the table with variance 0xFFFF and its own priorities and domain; each message takes the next sequence number. R376, R377, R385:
a receiver that follows no transmitter follows the one announced, publishes its grandmaster, and counts a change of it; after
the receipt timeout a receiver forgets it and listens, and a transmitter is MASTER. R380: the end of a phase correction brings
TB_INC back to nominal. R382: so does a change of the servo mode, and it writes nothing else. The model's own readings here: log
entries 2 and 110. -/
def Obligations.PtpTransmitterSends : Prop :=
  (∀ (n dom raw seq reqId : Nat) (t4 : Int) (s : State),
    let e := s.dev.ptpDue n
    e.ptpRole n = some 1 → e.ptpState n = ptpMaster → dom = e.ptpRd n Reg.PTP_CFG_DOMAIN → e.rxStamp n raw = some t4 →
    Answers (.ptpDelayReqRx n raw seq ⟨dom, reqId⟩) s (fun t => t.dev.out = e.out ++ [.ptp n 3 seq [t4, reqId]]
      ∧ t.dev.regs = e.regs ∧ t.dev.ptp = e.ptp ∧ t.ram = s.ram)) ∧
  (∀ (n raw : Nat) (t1 : Int) (s : State),
    let e := s.dev.ptpDue n
    let q := (e.ptpSt n).seqSync
    e.ptpRole n = some 1 → e.ptpState n = ptpMaster → e.txStamp n raw = some t1 →
    Answers (.ptpSyncTx n raw) s (fun t => (t.dev.ptpSt n).seqSync = (q + 1) % 65536
      ∧ t.dev.out = e.out ++ (if e.ptpRd n Reg.PTP_CTRL_ONE_STEP = 1 then [.ptp n 0 q [t1]] else [.ptp n 0 q [], .ptp n 1 q [t1]])
      ∧ t.dev.regs = e.regs ∧ t.ram = s.ram)) ∧
  (∀ (n : Nat) (s : State),
    let e := s.dev.ptpDue n
    let q := (e.ptpSt n).seqAnn
    e.ptpRole n = some 1 → e.ptpState n = ptpMaster →
    Answers (.ptpAnnounceTx n) s (fun t => (t.dev.ptpSt n).seqAnn = (q + 1) % 65536
      ∧ (∃ c a : Nat, t.dev.out = e.out ++ [.ptp n 4 q [(c : Int), a, 0xFFFF, e.ptpRd n Reg.PTP_PRIO_PRIORITY1,
            e.ptpRd n Reg.PTP_PRIO_PRIORITY2, e.ptpRd n Reg.PTP_CFG_DOMAIN]]
          ∧ ((e.dpllState = 2 ∨ e.dpllState = 3) → e.rd Reg.REFSEL_STATE_QL pREFSEL ≤ 1 → c = 6 ∧ a = 0x22)
          ∧ (e.dpllState = 4 → e.rd Reg.DPLL_STATUS_HOLD_VALID pDPLL = 1 → c = 7 ∧ a = 0xFE)
          ∧ ((e.dpllState = 2 ∨ e.dpllState = 3) → 1 < e.rd Reg.REFSEL_STATE_QL pREFSEL → c = 248 ∧ a = 0xFE)
          ∧ (e.dpllState < 2 → c = 248 ∧ a = 0xFE))
      ∧ t.dev.regs = e.regs ∧ t.ram = s.ram)) ∧
  (∀ (n t0 : Nat) (a : Announce) (s : State),
    let e := s.dev.ptpDue n
    e.ptpRole n = some 0 → (e.ptpSt n).best = none → a.steps < 255 → a.dom = e.ptpRd n Reg.PTP_CFG_DOMAIN → a.gmid < 2 ^ 64 →
    Answers (.ptpAnnounceRx n a t0) s (fun t => (t.dev.ptpSt n).best = some a ∧ t.dev.ptpState n = ptpReceiver
      ∧ t.dev.rdPair Reg.PTP_GMID_LO Reg.PTP_GMID_HI (pPTPI n) = a.gmid ∧ t.dev.rd Reg.PTP_STAT_GM_CLASS (pPTPI n) = a.cls % 256
      ∧ t.dev.rd Reg.PTP_STAT_GM_ACC (pPTPI n) = a.acc % 256
      ∧ t.dev.rd Reg.PTP_CNT_GM_CHANGES (pPTPI n) = min (e.rd Reg.PTP_CNT_GM_CHANGES (pPTPI n)
          + (if e.rdPair Reg.PTP_GMID_LO Reg.PTP_GMID_HI (pPTPI n) = a.gmid then 0 else 1)) 0xFFFF ∧ t.ram = s.ram)) ∧
  (∀ (n t0 : Nat) (s : State),
    let e := s.dev.ptpDue n
    (e.ptpSt n).annAt + e.annLimit n ≤ (e.advanceTo t0).now →
    Answers (.announceReceiptTimeout n t0) s (fun t =>
      (e.ptpRole n = some 0 → (t.dev.ptpSt n).best = none ∧ t.dev.ptpState n = ptpListening ∧ (t.dev.ptpSt n).t1 = none
          ∧ (t.dev.ptpSt n).t2 = none ∧ (t.dev.ptpSt n).t3 = none)
        ∧ (e.ptpRole n = some 1 → (t.dev.ptpSt n).best = none ∧ t.dev.ptpState n = ptpMaster) ∧ t.ram = s.ram)) ∧
  (∀ (t0 e : Nat) (s : State), s.dev.holder < 8 → s.dev.phaseEnd = some e → e ≤ (s.dev.advanceTo t0).now →
    Answers (.phaseCorrectionEnd t0) s (fun t => t.dev.tbInc = 2 ^ 33 ∧ t.dev.phaseEnd = none ∧ t.dev.ptp = s.dev.ptp
      ∧ t.dev.chans = s.dev.chans ∧ t.dev.out = s.dev.out ∧ t.ram = s.ram)) ∧
  (∀ (w v : Nat) (s : State), s.dev.holds w pPTP = true →
    Answers (.servoModeWrite w v) s (fun t => t.dev.rd Reg.PTP_SERVO_MODE pPTP = v % 2 ∧ t.dev.ptp = s.dev.ptp
      ∧ (s.dev.rd Reg.PTP_SERVO_MODE pPTP = v % 2 → s.dev.regsBut t.dev [] ∧ t.dev.body = s.dev.body)
      ∧ (s.dev.rd Reg.PTP_SERVO_MODE pPTP ≠ v % 2 → s.dev.holder < 8 → t.dev.tbInc = 2 ^ 33 ∧ t.dev.phaseEnd = none
          ∧ s.dev.regsBut t.dev [Reg.PTP_SERVO_MODE.key pPTP 0, Reg.TB_INC_LO.key (blk s.dev.holder ixTIMEBASE) 0,
              Reg.TB_INC_HI.key (blk s.dev.holder ixTIMEBASE) 0]) ∧ t.ram = s.ram))

/-- R352, R355, R356, R360: an entry in use whose candidate is lost becomes LOST and is counted, and where no entry is left
after LOCKED or STEERED, the DPLL is in HOLDOVER on the holdover model's frequency. R353: an ESMC message gives a SyncE entry
its quality level, and five seconds without one give it QL 15. After each of these, and after each 1 s window, the entry
selected is the one that R358 chooses, for a FORCE_REF in the range of R367. R351, R361: an edge's instant is kept, and on the
awaited edge of the island in use a switch completes with its phase absorbed. R354 to R357: at a window's end the offset is
measured and an entry lost, disqualified, alarmed or qualified as the rules' bounds say. R363, R367, R382: DCO_FOFS by the
lock's holder, in STEERED and allowed by the servo mode, is loaded within its range; any other write of it is counted and
changes nothing else. The model's own readings here: log entries 2, 52 and 110. -/
def Obligations.ReferencesAndDpll : Prop :=
  (∀ (e t0 : Nat) (s : State), e < 12 → (s.dev.refState e = 1 ∨ s.dev.refState e = 2 ∨ s.dev.refState e = 3) →
    (s.dev.advanceTo t0).refLost e = true → s.dev.rd Reg.DPLL_CTRL_FORCE_REF pDPLL < 12 →
    Answers (.refLoss e t0) s (fun t => t.dev.refState e = 4 ∧ t.dev.rd Reg.REF_STAT_ALARM (pREF e) = 0
      ∧ t.dev.rd Reg.REF_CNT_LOST (pREF e) = min (s.dev.rd Reg.REF_CNT_LOST (pREF e) + 1) 0xFFFF
      ∧ t.dev.refCur = t.dev.refChoice
      ∧ ((s.dev.dpllState = 2 ∨ s.dev.dpllState = 3) → s.dev.refCur ≠ 0xF → t.dev.refCur = 0xF → s.dev.rd Reg.DPLL_CTRL_MODE pDPLL ≠ 2 →
          t.dev.dpllState = 4 ∧ t.dev.rdI Reg.DPLL_FREQ pDPLL = t.dev.rdI Reg.DPLL_HOLD_FREQ pDPLL
            ∧ t.dev.rd Reg.DPLL_CNT_HOLDOVERS pDPLL = min (s.dev.rd Reg.DPLL_CNT_HOLDOVERS pDPLL + 1) 0xFFFF)
      ∧ t.ram = s.ram)) ∧
  (∀ (e ssm : Nat) (enh : Option Nat) (t0 : Nat) (s : State), e < 12 → s.dev.rd Reg.REF_CTRL_EN (pREF e) = 1 →
    s.dev.rd Reg.REF_CTRL_TYPE (pREF e) = 3 → s.dev.rd Reg.DPLL_CTRL_FORCE_REF pDPLL < 12 →
    Answers (.esmcRx e ssm enh t0) s (fun t => t.dev.refQl e = ssmQl (s.dev.rd Reg.REFSEL_CFG_SSM_OPT pREFSEL) ssm enh
      ∧ t.dev.rd Reg.REF_RAW_CODE (pREF e) = ssm % 256 ∧ (t.dev.refSt e).esmcAt = (s.dev.advanceTo t0).now
      ∧ t.dev.refCur = t.dev.refChoice ∧ t.dev.refState e = s.dev.refState e ∧ t.ram = s.ram)) ∧
  (∀ (e t0 : Nat) (s : State), e < 12 → s.dev.rd Reg.REF_CTRL_EN (pREF e) = 1 → s.dev.rd Reg.REF_CTRL_TYPE (pREF e) = 3 →
    (s.dev.refSt e).esmcAt + 5000000000 ≤ (s.dev.advanceTo t0).now → s.dev.rd Reg.DPLL_CTRL_FORCE_REF pDPLL < 12 →
    Answers (.esmcTimeout e t0) s (fun t => t.dev.refQl e = 15 ∧ t.dev.refCur = t.dev.refChoice
      ∧ t.dev.refState e = s.dev.refState e ∧ t.ram = s.ram)) ∧
  (∀ (i pin t0 : Nat) (ph : Int) (s : State), i < 8 → pin < 4 →
    Answers (.refEdge i pin t0 ph) s (fun t =>
      let d := s.dev.advanceTo t0
      let x : Dev := { d with ref := { d.ref with edges := tput d.ref.edges (i * 4 + pin) d.now } }
      t.dev.edgeAt i pin = some d.now ∧ t.dev.refCur = s.dev.refCur ∧ t.ram = s.ram
        ∧ (∀ e, s.dev.ref.waiting = some e → s.dev.rd Reg.REF_CTRL_TYPE (pREF e) = 1 → s.dev.rd Reg.REF_CTRL_SRC (pREF e) = pin →
            x.pinIsland e = some i → t.dev.dpllState = 2 ∧ t.dev.rd Reg.DPLL_STATUS_REF pDPLL = e % 16 ∧ t.dev.ref.waiting = none
              ∧ t.dev.ref.absorb = reducePhase (s.dev.pinPeriod e).1 (s.dev.pinPeriod e).2 ph
              ∧ t.dev.rd Reg.DPLL_CNT_SWITCHES pDPLL = min (s.dev.rd Reg.DPLL_CNT_SWITCHES pDPLL + 1) 0xFFFF))) ∧
  (∀ (t0 e : Nat) (meas : List RefMeas) (s : State), t0 % 1000000000 = 0 → e < 12 → s.dev.rd Reg.DPLL_CTRL_FORCE_REF pDPLL < 12 →
    let x := (s.dev.advanceTo t0).each meas (fun d m => d.measure t0 m)
    let b := pREF e
    let tol := x.tolPpt
    let y1 := (x.rdI Reg.REF_Y1 b).natAbs
    let y10 := (x.rdI Reg.REF_Y10 b).natAbs
    let drift : Bool := decide (10 * tol < y1)
      || (decide (t0 % 10000000000 = 0) && decide (tol < y10) && decide (tol < (x.rdI Reg.REF_Y100 b).natAbs))
    let tenth : Bool := decide (t0 % 10000000000 = 0) && (x.refSt e).hasY10 && decide ((x.refSt e).from_ + 10000000000 ≤ t0)
    Answers (.refWindowEnd t0 meas) s (fun t =>
      t.dev.refCur = t.dev.refChoice ∧ t.ram = s.ram
        ∧ ((x.refState e = 1 ∨ x.refState e = 2) → x.refLost e = true → t.dev.refState e = 4
            ∧ t.dev.rd Reg.REF_CNT_LOST b = min (x.rd Reg.REF_CNT_LOST b + 1) 0xFFFF)
        ∧ (x.refState e = 2 → x.refLost e = false → drift = true → t.dev.refState e = 1 ∧ t.dev.rd Reg.REF_STAT_QUAL_LEFT b = 60
            ∧ t.dev.rd Reg.REF_STAT_ALARM b = 0 ∧ t.dev.rd Reg.REF_CNT_DISQ b = min (x.rd Reg.REF_CNT_DISQ b + 1) 0xFFFF)
        ∧ (x.refState e = 2 → x.refLost e = false → drift = false → t.dev.refState e = 2
            ∧ (t0 % 10000000000 = 0 → 8 * tol ≤ 10 * y10 → x.rd Reg.REF_STAT_ALARM b < 2 → t.dev.rd Reg.REF_STAT_ALARM b = 1)
            ∧ (t0 % 10000000000 = 0 → 10 * y10 < 7 * tol → x.rd Reg.REF_STAT_ALARM b < 2 → t.dev.rd Reg.REF_STAT_ALARM b = 0))
        ∧ (x.refState e = 4 → x.refLost e = false → t.dev.refState e = 1 ∧ t.dev.rd Reg.REF_STAT_QUAL_LEFT b = 60)
        ∧ (x.refState e = 0 → x.rd Reg.REF_CTRL_EN b = 1 → t.dev.refState e = 1 ∧ t.dev.rd Reg.REF_STAT_QUAL_LEFT b = 10)
        ∧ (x.refState e = 1 → x.refLost e = false → tenth = true → 2 * y10 ≤ tol → x.rd Reg.REF_STAT_QUAL_LEFT b ≤ 1 → t.dev.refState e = 2)
        ∧ (x.refState e = 1 → x.refLost e = false → tenth = true → tol < 2 * y10 → t.dev.rd Reg.REF_STAT_QUAL_LEFT b = (x.refSt e).req % 65536))) ∧
  (∀ (t0 : Nat) (m : RefMeas) (s : State), t0 % 1000000000 = 0 → m.entry < 12 → s.dev.refState m.entry ≠ 0 → s.dev.refState m.entry ≠ 4 →
    (s.dev.refSt m.entry).from_ + 1000000000 ≤ t0 →
    Answers (.refWindowEnd t0 [m]) s (fun t =>
      t.dev.rdI Reg.REF_Y1 (pREF m.entry) = clampInt (-2147483648) 2147483647 m.y1)) ∧
  (∀ (w v : Nat) (s : State), s.dev.holds w pDPLL = true →
    let ok : Bool := s.dev.dpllState == 3 && (s.dev.rd Reg.PTP_SERVO_MODE pPTP != 0 || (!(isHost w) && w != 0x30))
    let x := clampInt (-500000000) 500000000 (signed 32 v)
    let ks := [Reg.DCO_FOFS.key pDPLL 0, Reg.DPLL_FREQ.key pDPLL 0, Reg.DPLL_STATUS_ETH_CLAMP.key pDPLL 0]
    Answers (.dcoFofsWrite w v) s (fun t =>
      (ok = true → t.dev.rdI Reg.DCO_FOFS pDPLL = x ∧ t.dev.rdI Reg.DPLL_FREQ pDPLL = x
          ∧ t.dev.rd Reg.DPLL_STATUS_ETH_CLAMP pDPLL = b2n (ethClamped x)
          ∧ (x = signed 32 v → s.dev.regsBut t.dev ks)
          ∧ (x ≠ signed 32 v → s.dev.regsBut t.dev (Reg.ERR_COUNT.key pDPLL 0 :: ks)
              ∧ t.dev.rd Reg.ERR_COUNT pDPLL = min (s.dev.rd Reg.ERR_COUNT pDPLL + 1) (2 ^ Reg.ERR_COUNT.width - 1)))
        ∧ (ok = false → s.dev.regsBut t.dev [Reg.ERR_COUNT.key pDPLL 0]
          ∧ t.dev.rd Reg.ERR_COUNT pDPLL = min (s.dev.rd Reg.ERR_COUNT pDPLL + 1) (2 ^ Reg.ERR_COUNT.width - 1))
        ∧ t.dev.body = s.dev.body))

/-- R332, R343: a lane that runs its detectors (in P0 or P1) and is still in one of those states after the command reports what
it finds: loss of signal with loss of lock, their ends, sync and its loss; in P2 and P3 they read 0. A declared loss is counted,
and the last frequency error and the payload identifier are kept. R333: a loop-through transmitter is in electrical idle under
LOS or LOL and retransmits once both are clear in P0. R342: LN_STAT.ADAPT_LIMIT tells whether an adapted code is at its bound.
R329: a PCS failure takes the port down, with its event; a port that has been clear for its hold-up comes up, with its event.
The model's own readings here: log entries 105, 107 and 140. -/
def Obligations.LanesReportTheirDetectors : Prop :=
  (∀ (g t0 : Nat) (s : State), s.dev.detects g = true → s.dev.rd Reg.LN_STAT_LOS (lanePage g) = 0 → s.dev.lnMode g ≠ 4 →
    Answers (.laneLos g t0) s (fun t =>
      (t.dev.detects g = true → t.dev.rd Reg.LN_STAT_LOS (lanePage g) = 1 ∧ t.dev.rd Reg.LN_STAT_LOL (lanePage g) = 1)
        ∧ (t.dev.detects g = false → t.dev.rd Reg.LN_STAT_LOS (lanePage g) = 0 ∧ t.dev.rd Reg.LN_STAT_LOL (lanePage g) = 0)
        ∧ (t.dev.detects g = true → s.dev.lnMode g = 2 → s.dev.rd Reg.LN_CFG_SDI_LOOP (lanePage g) = 1 → (t.dev.lane g).tx = 1)
        ∧ t.dev.rd Reg.LN_CNT0_LOS (lanePage g) = min (s.dev.rd Reg.LN_CNT0_LOS (lanePage g) + 1) (2 ^ Reg.LN_CNT0_LOS.width - 1)
        ∧ t.ram = s.ram)) ∧
  (∀ (g t0 : Nat) (s : State), s.dev.detects g = true →
    Answers (.laneLosClear g t0) s (fun t => t.dev.rd Reg.LN_STAT_LOS (lanePage g) = 0
      ∧ t.dev.rd Reg.LN_CNT0_LOS (lanePage g) = s.dev.rd Reg.LN_CNT0_LOS (lanePage g) ∧ t.ram = s.ram)) ∧
  (∀ (g t0 : Nat) (ppm : Int) (s : State), s.dev.detects g = true → s.dev.lnMode g ≠ 4 →
    Answers (.laneLol g t0 ppm) s (fun t =>
      (t.dev.detects g = true → t.dev.rd Reg.LN_STAT_LOL (lanePage g) = 1)
        ∧ t.dev.rdI Reg.LN_STAT_PPM (lanePage g) = clampInt (-128) 127 (floorDiv ppm 10)
        ∧ (s.dev.rd Reg.LN_STAT_LOL (lanePage g) = 0 → t.dev.rd Reg.LN_CNT0_LOL (lanePage g)
            = min (s.dev.rd Reg.LN_CNT0_LOL (lanePage g) + 1) (2 ^ Reg.LN_CNT0_LOL.width - 1)) ∧ t.ram = s.ram)) ∧
  (∀ (g t0 : Nat) (ppm : Int) (s : State), s.dev.detects g = true → ppm.natAbs ≤ 500 → s.dev.rd Reg.LN_STAT_LOS (lanePage g) = 0 →
    Answers (.laneLolClear g t0 ppm) s (fun t => t.dev.rd Reg.LN_STAT_LOL (lanePage g) = 0
      ∧ t.dev.rdI Reg.LN_STAT_PPM (lanePage g) = floorDiv ppm 10
      ∧ (t.dev.rd Reg.LN_STAT_PSTATE (lanePage g) = 0 → s.dev.lnMode g = 2 → s.dev.rd Reg.LN_CFG_SDI_LOOP (lanePage g) = 1 →
          (s.dev.region (g / 16)).killed = false → (t.dev.lane g).tx = 3) ∧ t.ram = s.ram)) ∧
  (∀ (g rate frac pid t0 : Nat) (s : State), s.dev.detects g = true → s.dev.lnMode g = 1 →
    Answers (.laneSyncGain g rate frac pid t0) s (fun t =>
      (t.dev.detects g = true → t.dev.rd Reg.LN_STAT_SYNC (lanePage g) = 1) ∧ t.ram = s.ram)) ∧
  (∀ (g rate frac pid t0 : Nat) (s : State), s.dev.detects g = true → s.dev.lnMode g = 2 →
    s.dev.rd Reg.LN_STAT_LOS (lanePage g) = 0 → s.dev.rd Reg.LN_STAT_LOL (lanePage g) = 0 → 1 ≤ rate → rate ≤ 5 →
    (s.dev.lnRate g = 0 ∨ (s.dev.lnRate g = rate ∧ s.dev.rd Reg.LN_CFG_SDI_FRAC (lanePage g) = frac % 2)) →
    Answers (.laneSyncGain g rate frac pid t0) s (fun t => t.dev.rd Reg.LN_SDI_PID (lanePage g) = pid % 2 ^ 32
      ∧ (t.dev.detects g = true → t.dev.rd Reg.LN_STAT_SYNC (lanePage g) = 1 ∧ t.dev.rd Reg.LN_STAT_SDI_RATE (lanePage g) = rate
          ∧ t.dev.rd Reg.LN_STAT_SDI_FRAC (lanePage g) = frac % 2) ∧ t.ram = s.ram)) ∧
  (∀ (g t0 : Nat) (s : State), s.dev.detects g = true → s.dev.rd Reg.LN_STAT_SYNC (lanePage g) = 1 →
    Answers (.laneSyncLoss g t0) s (fun t => t.dev.rd Reg.LN_STAT_SYNC (lanePage g) = 0
      ∧ t.dev.rd Reg.LN_STAT_SDI_RATE (lanePage g) = 0 ∧ t.dev.rd Reg.LN_STAT_SDI_FRAC (lanePage g) = 0
      ∧ t.dev.rd Reg.LN_CNT1_SYNC_LOSS (lanePage g)
          = min (s.dev.rd Reg.LN_CNT1_SYNC_LOSS (lanePage g) + 1) (2 ^ Reg.LN_CNT1_SYNC_LOSS.width - 1) ∧ t.ram = s.ram)) ∧
  (∀ (r t0 : Nat) (vs : List (Nat × Nat)) (p : Nat × Nat) (x : Nat × Nat × Nat × Nat) (s : State), r < 8 → s.dev.active r = true →
    s.dev.adaptLane r p = some x →
    Answers (.adaptStore r (vs ++ [p]) t0) s (fun t =>
      t.dev.rd Reg.LN_STAT_ADAPT_LIMIT (lanePage x.1) = b2n (atBound x.2.2.1 (eqCodes x.2.2.2)) ∧ t.dev.chans = s.dev.chans
        ∧ t.ram = s.ram)) ∧
  (∀ (g t0 : Nat) (s : State), g < 128 → s.dev.isEth (g / 16) (g % 16) = true →
    Answers (.pcsLinkFail g t0) s (fun t => (t.dev.lane g).fail = true
      ∧ (s.dev.rd Reg.LN_STAT_PORT_UP (lanePage g) ≤ 1 → t.dev.rd Reg.LN_STAT_PORT_UP (lanePage g) = 0)
      ∧ (s.dev.rd Reg.LN_STAT_PORT_UP (lanePage g) = 1 → bitOf (t.dev.rd Reg.EV_RAW (lanePage g)) 3 = true) ∧ t.ram = s.ram)) ∧
  (∀ (g t0 c : Nat) (s : State), g < 128 → (s.dev.lane g).clear = some c → s.dev.isEth (g / 16) (g % 16) = true →
    s.dev.rd Reg.LN_STAT_PORT_UP (lanePage g) = 0 →
    c + s.dev.rd Reg.LN_PORT_UP_HOLD (lanePage g) * 10000000 ≤ (s.dev.advanceTo t0).now →
    Answers (.portUp g t0) s (fun t => t.dev.rd Reg.LN_STAT_PORT_UP (lanePage g) = 1
      ∧ bitOf (t.dev.rd Reg.EV_RAW (lanePage g)) 4 = true ∧ t.dev.lanes = s.dev.lanes ∧ t.ram = s.ram))

/-- R338: the peer's four lanes are taken, and the pair that it names once both name it: a device that has not named one names
the same pair with WIDTH and runs on it; another pair than the one it named takes the link down, as do 8 µs without an answer.
When all data lanes have held lock and sync for 1 s the device sends WIDTH D0.0 and returns to four lanes. Each change of width
is counted and raises LL_FALLBACK. R339: LL_DOWN is raised; training of every lane brings the link up. The model's own readings
here: log entry 108. -/
def Obligations.LegacyLinkWidths : Prop :=
  (∀ (s : State), s.dev.llMode = true → s.dev.cl4On = false → s.dev.llWidth ≠ 3 →
    Answers (.llWidthRx 0) s (fun t => t.dev.llWidth = 0 ∧ t.dev.leg.sent = none ∧ t.dev.leg.rcvd = none
      ∧ (s.dev.llWidth ≠ 0 → t.dev.rd Reg.LN_LL_FALLBACKS ll11 = min (s.dev.rd Reg.LN_LL_FALLBACKS ll11 + 1) (2 ^ Reg.LN_LL_FALLBACKS.width - 1)
          ∧ bitOf (t.dev.rd Reg.EV_RAW ll11) 6 = true)
      ∧ t.dev.chans = s.dev.chans ∧ t.ram = s.ram)) ∧
  (∀ (p : Nat) (s : State), s.dev.llMode = true → s.dev.cl4On = false → s.dev.llWidth ≠ 3 → (p = 1 ∨ p = 2) →
    Answers (.llWidthRx p) s (fun t =>
      (s.dev.leg.sent = some p ∨ (s.dev.leg.sent = none ∧ s.dev.llWidth ≠ p) →
          t.dev.llWidth = p ∧ t.dev.leg.sent = none ∧ t.dev.leg.rcvd = none)
        ∧ (s.dev.leg.sent = none → s.dev.llWidth ≠ p → Out.llSym 2 p ∈ s.dev.since t.dev)
        ∧ (∀ q, s.dev.leg.sent = some q → q ≠ p → t.dev.llWidth = 3 ∧ bitOf (t.dev.rd Reg.EV_RAW ll11) 7 = true)
        ∧ t.dev.chans = s.dev.chans ∧ t.ram = s.ram)) ∧
  (∀ (us : Nat) (s : State), s.dev.leg.sent ≠ none → s.dev.leg.rcvd = none → 8 ≤ us →
    Answers (.llWidthTimeout us) s (fun t => t.dev.llWidth = 3
      ∧ (s.dev.llWidth ≠ 3 → bitOf (t.dev.rd Reg.EV_RAW ll11) 7 = true ∧ t.dev.leg.queue = [] ∧ t.dev.leg.sent = none)
      ∧ t.dev.chans = s.dev.chans ∧ t.ram = s.ram)) ∧
  (∀ (ms : Nat) (s : State), s.dev.llSends = true → s.dev.cl4On = false → (s.dev.llWidth = 1 ∨ s.dev.llWidth = 2) → 1000 ≤ ms →
    (∀ g, 11 ≤ g → g ≤ 14 → s.dev.laneFailed g = false) →
    Answers (.llWidthRestore ms) s (fun t => t.dev.llWidth = 0 ∧ Out.llSym 2 0 ∈ s.dev.since t.dev
      ∧ t.dev.rd Reg.LN_LL_FALLBACKS ll11 = min (s.dev.rd Reg.LN_LL_FALLBACKS ll11 + 1) (2 ^ Reg.LN_LL_FALLBACKS.width - 1)
      ∧ bitOf (t.dev.rd Reg.EV_RAW ll11) 6 = true ∧ t.dev.chans = s.dev.chans ∧ t.ram = s.ram)) ∧
  (∀ (groups : Nat) (s : State), s.dev.llSends = true → 1024 ≤ groups → s.dev.llWidth = 3 →
    (∀ g, 11 ≤ g → g ≤ 14 → s.dev.laneFailed g = false) → s.dev.rd Reg.LN_STAT_LOS (lanePage 15) = 0 →
    s.dev.rd Reg.LN_STAT_LOL (lanePage 15) = 0 →
    Answers (.llTrainComplete groups) s (fun t => t.dev.llWidth = 0 ∧ t.dev.leg.sent = none ∧ t.dev.leg.queue = []
      ∧ t.dev.leg.xoff = false ∧ t.dev.out = s.dev.out ∧ s.dev.regsBut t.dev [Reg.LN_STAT_LL_WIDTH.key ll11 0] ∧ t.ram = s.ram))

/-- R335, R337: under XOFF frames wait, and after XON the one that waits goes out. R336: a sound frame delivers its datagram; an
aborted one is discarded and counted. R337: the TS packets of a datagram of a mapped rendition go out as one frame when the link
is free, wait under XOFF, and are discarded and counted while the link is down; a frame that has waited more than 2 × T_s is
discarded and counted. R424: in the CL-4 personality the next packet of the channel goes out in a CL-4 frame at its instant. The
model's own readings here: log entry 108. -/
def Obligations.LegacyLinkFrames : Prop :=
  (∀ (s : State), s.dev.llMode = true → s.dev.cl4On = false →
    Answers .llXoff s (fun t => t.dev.leg.xoff = true ∧ t.dev.regs = s.dev.regs
      ∧ (s.dev.leg.queue = [] → t.dev.out = s.dev.out) ∧ t.ram = s.ram)) ∧
  (∀ (s : State), s.dev.llMode = true → s.dev.cl4On = false →
    Answers .llXon s (fun t => t.dev.leg.xoff = false ∧ t.dev.regs = s.dev.regs
      ∧ (∀ q, s.dev.leg.xoff = true → s.dev.leg.queue = [q] → s.dev.leg.last = none → s.dev.leg.sent = none → s.dev.llWidth ≠ 3 →
          s.dev.llSends = true → q.1 ≤ s.dev.now →
          t.dev.leg.queue = [] ∧ t.dev.out = s.dev.out ++ [.llFrame (if s.dev.llWidth = 0 then 4 else 2) q.2.2]) ∧ t.ram = s.ram)) ∧
  (∀ (bytes : List Byte) (s : State), s.dev.llMode = true → s.dev.cl4On = false → s.dev.llWidth ≠ 3 → 8 ≤ bytes.length →
    (let b := bytes.map (fun x => x.toNat)
     b.drop (b.length - 4) = leBytes 4 (crc32c (b.take (b.length - 4)))) →
    Answers (.llFrameRx bytes false false) s (fun t => t.dev.out = s.dev.out ++ [.llData bytes] ∧ t.dev.regs = s.dev.regs
      ∧ t.ram = s.ram)) ∧
  (∀ (bytes : List Byte) (s : State), s.dev.llMode = true → s.dev.cl4On = false → s.dev.llWidth ≠ 3 →
    Answers (.llFrameRx bytes false true) s (fun t => t.dev.out = s.dev.out
      ∧ t.dev.rd Reg.LN_LL_ABORTS ll11 = min (s.dev.rd Reg.LN_LL_ABORTS ll11 + 1) (2 ^ Reg.LN_LL_ABORTS.width - 1)
      ∧ s.dev.regsBut t.dev [Reg.LN_LL_ABORTS.key ll11 0] ∧ t.ram = s.ram)) ∧
  (∀ (m t0 : Nat) (ts : List (List Byte)) (s : State),
    let d := s.dev.advanceTo t0
    let c := s.dev.rd Reg.LL_MAP_CHANNEL ll11 m
    let f := llFrameOf (s.dev.rd Reg.LL_MAP_STREAM_ID ll11 m) ts
    s.dev.llSends = true → s.dev.cl4On = false → (∀ p, p ∈ ts → p.length = 188) →
    m < 8 → s.dev.rd Reg.LL_MAP_EN ll11 m = 1 → s.dev.live c = true → s.dev.chGen c = s.dev.rd Reg.LL_MAP_GEN ll11 m → s.dev.lead c = 0 →
    (let e := cfR (s.dev.chan c).cfg (s.dev.rd Reg.LL_MAP_RENDITION ll11 m) Reg.OUT_CTRL_ENCAP
     e = 1 ∨ e = 2) → 1 ≤ ts.length → ts.length ≤ 7 → s.dev.leg.queue = [] →
    Answers (.llFrameSend m ts t0) s (fun t =>
      (s.dev.llWidth ≠ 3 → s.dev.leg.xoff = false → s.dev.leg.sent = none → s.dev.leg.openAt ≤ d.now →
          (∀ q, s.dev.leg.last = some q → q.2 ≤ d.now) → t.dev.leg.queue = [] ∧ t.dev.regs = s.dev.regs
            ∧ t.dev.out = s.dev.out ++ [.llFrame (if s.dev.llWidth = 0 then 4 else 2) f])
        ∧ (s.dev.llWidth ≠ 3 → s.dev.leg.xoff = true → t.dev.out = s.dev.out ∧ t.dev.leg.queue = [(d.now, c, f)] ∧ t.dev.regs = s.dev.regs)
        ∧ (s.dev.llWidth = 3 → t.dev.out = s.dev.out ∧ t.dev.leg = s.dev.leg
            ∧ t.dev.rd Reg.LN_LL_ABORTS ll11 = min (s.dev.rd Reg.LN_LL_ABORTS ll11 + 1) (2 ^ Reg.LN_LL_ABORTS.width - 1)
            ∧ s.dev.regsBut t.dev [Reg.LN_LL_ABORTS.key ll11 0])
        ∧ t.ram = s.ram)) ∧
  (∀ (m t0 : Nat) (p : List Byte) (x : Nat × Nat × TsPkt) (s : State), s.dev.llSends = true → s.dev.cl4On = true → p.length = 188 →
    s.dev.llWidth ≠ 3 → m < 4 → s.dev.tsNext (4 + m) m = some x → x.1 ≤ (s.dev.advanceTo t0).now →
    x.2.2.headOf (p.map (fun y => y.toNat)) = true →
    Answers (.llFrameSend m [p] t0) s (fun t => t.dev.out = s.dev.out ++ [.llFrame 4 (cl4FrameOf m p)] ∧ t.dev.regs = s.dev.regs
      ∧ t.ram = s.ram)) ∧
  (∀ (t0 : Nat) (s : State),
    let d := (s.dev.advanceTo t0).llFlush
    Answers (.llFrameExpire t0) s (fun t =>
      (∀ q, q ∈ t.dev.leg.queue ↔ q ∈ d.leg.queue ∧ ¬ (q.1 + d.twoTs q.2.1 < d.now))
        ∧ t.dev.rd Reg.LN_LL_ABORTS ll11
          = min (s.dev.rd Reg.LN_LL_ABORTS ll11 + (d.leg.queue.length - t.dev.leg.queue.length)) (2 ^ Reg.LN_LL_ABORTS.width - 1)
        ∧ s.dev.regsBut t.dev [Reg.LN_LL_ABORTS.key ll11 0] ∧ t.dev.out = d.out ∧ t.ram = s.ram))

/-- R440, R441: with enough energy and nothing running, a requested record's store starts, and a deferred one at its recheck; a
completed store leaves a valid copy in the other place than the newest, with the next SEQ, and no other copy changes. R482: a
completed sector of the fault log joins the ring. R441, R442, R468: PFAIL_N holds stores off and is counted, and its end lets
them go on; a sample of the hold-up voltage is published, with V by the board record's divider, and all ones for the energy
without a board record. The model's own readings here: log entries 137 and 138. -/
def Obligations.StoresRunInOrder : Prop :=
  (∀ (rec_ : Nat) (body : List Byte) (s : State), 2 ≤ rec_ → rec_ ≤ 4 → s.dev.nvm.running = none → s.dev.nvm.queue = [] →
    s.dev.nvm.pfail = false → s.dev.enough (storeSize rec_ body.length).1 (storeSize rec_ body.length).2 = true →
    Answers (.nvmStoreRequest rec_ body) s (fun t => t.dev.rd Reg.NVM_STAT_BUSY pNVM = 1 ∧ t.dev.rd Reg.NVM_STAT_RECORD pNVM = rec_
      ∧ (∃ j, t.dev.nvm.running = some j ∧ j.record = rec_ ∧ j.body = body.map (fun x => x.toNat)) ∧ t.dev.chans = s.dev.chans)) ∧
  (∀ (t0 : Nat) (j : StoreJob) (rest : List StoreJob) (s : State), s.dev.nvm.running = none → s.dev.nvm.queue = j :: rest →
    2 ≤ j.record → j.record ≤ 4 → j.deferred = true → s.dev.nvm.pfail = false → s.dev.enough j.sectors j.bytes = true →
    s.dev.nvm.checkAt + 100000000 ≤ (s.dev.advanceTo t0).now →
    Answers (.storeRecheck t0) s (fun t => t.dev.rd Reg.NVM_STAT_BUSY pNVM = 1
      ∧ ∃ y, t.dev.nvm.running = some y ∧ y.record = j.record ∧ y.body = j.body)) ∧
  (∀ (t0 : Nat) (j : StoreJob) (s : State), s.dev.nvm.running = some j → j.record ≠ 5 → s.dev.nvm.queue = [] → s.dev.nvm.buf.length < 63 →
    Answers (.storeDone t0) s (fun t => t.dev.nvm.running = none ∧ t.dev.rd Reg.NVM_STAT_BUSY pNVM = 0
      ∧ (∃ i seq, i < 2 ∧ tget? t.dev.nvm.recs (2 * j.record + i) = some ⟨seq, j.body, true⟩
          ∧ Out.norWrite j.record i (norAddr j.record i) seq j.body ∈ s.dev.since t.dev
          ∧ (∀ k c, s.dev.newest j.record = some (k, c) → i = 1 - k ∧ seq = (c.seq + 1) % 2 ^ 32
              ∧ (∀ q, q ≠ 2 * j.record + i → tget? t.dev.nvm.recs q = tget? s.dev.nvm.recs q)))
      ∧ t.ram = s.ram ∧ t.otp = s.otp)) ∧
  (∀ (t0 : Nat) (j : StoreJob) (s : State), s.dev.nvm.running = some j → j.record = 5 → s.dev.nvm.queue = [] → s.dev.nvm.buf.length < 63 →
    Answers (.storeDone t0) s (fun t => t.dev.nvm.running = none ∧ t.dev.rd Reg.NVM_STAT_BUSY pNVM = 0
      ∧ t.dev.nvm.sectors = s.dev.nvm.sectors ++ [j.entries] ∧ t.dev.nvm.sectorSeq = (s.dev.nvm.sectorSeq + 1) % 2 ^ 32
      ∧ t.dev.nvm.recs = s.dev.nvm.recs ∧ t.ram = s.ram)) ∧
  (∀ (t0 : Nat) (s : State), s.dev.nvm.pfail = false →
    Answers (.pfailAssert t0) s (fun t => t.dev.nvm.pfail = true ∧ t.dev.rd Reg.HU_STAT_PFAIL pHOLDUP = 1
      ∧ t.dev.rd Reg.HU_STAT_PFAIL_COUNT pHOLDUP
          = min (s.dev.rd Reg.HU_STAT_PFAIL_COUNT pHOLDUP + 1) (2 ^ Reg.HU_STAT_PFAIL_COUNT.width - 1)
      ∧ t.dev.nvm.running = s.dev.nvm.running ∧ t.dev.body = (s.dev.advanceTo t0).body)) ∧
  (∀ (t0 : Nat) (s : State), s.dev.nvm.pfail = true →
    Answers (.pfailDeassert t0) s (fun t => t.dev.nvm.pfail = false ∧ t.dev.rd Reg.HU_STAT_PFAIL pHOLDUP = 0
      ∧ t.dev.body = (s.dev.advanceTo t0).body)) ∧
  (∀ (raw t0 : Nat) (s : State), raw < 4096 →
    Answers (.holdupSample raw t0) s (fun t => t.dev.rd Reg.HU_SENSE_RAW pHOLDUP = raw
      ∧ (s.dev.nvm.board.isSome = true → t.dev.rd Reg.HU_SENSE_MV pHOLDUP
          = min 0xFFFF (raw * 1200 * s.dev.boardAt 0x18 4 / (4096 * 65536)))
      ∧ (s.dev.nvm.board = none → t.dev.rd Reg.HU_ENERGY pHOLDUP = 0xFFFFFFFF) ∧ t.dev.body = (s.dev.advanceTo t0).body))

/-- R483, R485: LOG_READ shows the entry that NVM_LOG_RSEQ names, or LOG_ABSENT; LOG_FLUSH and an entry that has waited 1 s
start a store of the log; a SUMMARY entry follows a change of a region's counts. The model's own readings here: log entry 139.
-/
def Obligations.FaultLogCommands : Prop :=
  (∀ (w tag : Nat) (e : LogEntry) (s : State), s.dev.holds w pNVM = true → tag < 256 →
    s.dev.logFind (s.dev.rd Reg.NVM_LOG_RSEQ pNVM) = some e →
    Answers (.logRead w tag) s (fun t => t.dev.rd Reg.NVM_RESULT_CODE pNVM = 0 ∧ t.dev.rd Reg.NVM_RESULT_TAG pNVM = tag
      ∧ t.dev.rd Reg.NVM_RESULT_DONE pNVM = 1 ∧ t.dev.body = s.dev.body
      ∧ ∀ i, i < 16 → t.dev.rd Reg.NVM_LOG_ENTRY pNVM i = fromLE ((e.bytes.drop (4 * i)).take 4))) ∧
  (∀ (w tag : Nat) (s : State), s.dev.holds w pNVM = true → tag < 256 → s.dev.logFind (s.dev.rd Reg.NVM_LOG_RSEQ pNVM) = none →
    Answers (.logRead w tag) s (fun t => t.dev.rd Reg.NVM_RESULT_CODE pNVM = 0x5E ∧ t.dev.rd Reg.NVM_RESULT_TAG pNVM = tag
      ∧ t.dev.rd Reg.NVM_RESULT_DONE pNVM = 1 ∧ t.dev.body = s.dev.body)) ∧
  (∀ (w tag : Nat) (s : State), s.dev.holds w pNVM = true → tag < 256 → s.dev.nvm.running = none → s.dev.nvm.queue = [] →
    s.dev.nvm.buf ≠ [] → s.dev.nvm.pfail = false →
    s.dev.enough 1 (56 + 64 * min 63 (s.dev.nvm.buf.length + s.dev.nvm.pfailLog.length)) = true →
    Answers (.logFlush w tag) s (fun t => t.dev.rd Reg.NVM_RESULT_CODE pNVM = 0 ∧ t.dev.rd Reg.NVM_RESULT_TAG pNVM = tag
      ∧ t.dev.nvm.running.map (fun j => j.record) = some 5 ∧ t.dev.body = s.dev.body)) ∧
  (∀ (t0 : Nat) (x : LogEntry × Nat) (s : State), x ∈ s.dev.nvm.buf.zip s.dev.nvm.bufAt → 2 ≤ x.1.sev →
    x.2 + 1000000000 ≤ (s.dev.advanceTo t0).now → s.dev.nvm.running = none → s.dev.nvm.queue = [] → s.dev.nvm.pfail = false →
    s.dev.enough 1 (56 + 64 * min 63 (s.dev.nvm.buf.length + s.dev.nvm.pfailLog.length)) = true →
    Answers (.logEntryWait t0) s (fun t => t.dev.nvm.running.map (fun j => j.record) = some 5
      ∧ t.dev.body = (s.dev.advanceTo t0).body)) ∧
  (∀ (r hour : Nat) (s : State), r < 8 → tget s.dev.nvm.sevCnt r (0, 0) ≠ tget s.dev.nvm.sumSeen r (0, 0) →
    (tget? s.dev.nvm.sumHour r).all (fun h => h < hour) = true → s.dev.nvm.buf.length < 256 →
    Answers (.logSummary r hour) s (fun t => tget t.dev.nvm.sumSeen r (0, 0) = tget s.dev.nvm.sevCnt r (0, 0)
      ∧ (∃ e more, t.dev.nvm.buf = s.dev.nvm.buf ++ e :: more ∧ e.kind = 2 ∧ e.region = r ∧ e.obj = hour
          ∧ e.detail = (let x := tget s.dev.nvm.sevCnt r (0, 0); leBytes 4 x.1 ++ leBytes 4 x.2))
      ∧ tget? t.dev.nvm.sumHour r = some hour ∧ t.dev.body = s.dev.body))

/-- R433: SVN_COMMIT raises the fused SVNs to those that run and lowers none; CUST_KEY fuses the key's hash once, a second time
is refused with FUSE_LOCKED; no other fuse changes. R436: a report is answered with its tag and event. R438: a challenge of free
values, and an unlock that takes effect exactly when its tokens verify and nothing is admitted. R430, R432: while the boot ROM
waits, a set that HOST_A gives boots the device when it verifies, and otherwise is answered with the code of R432 and AUTH_FAIL.
R445: the standalone start configures lanes 0 to 3 and lane 8 of each region that runs so, and PTP instance 0 as reference entry
0. The model's own readings here: log entries 133, 134 and 136. -/
def Obligations.GlumeAnswers : Prop :=
  (∀ (w tag : Nat) (s : State), s.dev.holds w pGLUME = true →
    Answers (.glSvnCommit w tag) s (fun t => t.otp.svn = svnMax s.otp.svn s.dev.sys.svnRun ∧ t.otp.custKey = s.otp.custKey
      ∧ t.otp.consent = s.otp.consent ∧ t.dev.rd Reg.GL_RESULT_CODE pGLUME = 0 ∧ t.dev.rd Reg.GL_RESULT_TAG pGLUME = tag % 256
      ∧ t.ram = s.ram)) ∧
  (∀ (w tag : Nat) (s : State), s.dev.holds w pGLUME = true → s.otp.custKey = none →
    Answers (.glCustKey w tag) s (fun t => t.otp.custKey = some (Config.shake256 ((s.dev.glBytes Reg.GL_TOKEN 128).take 57))
      ∧ t.otp.svn = s.otp.svn ∧ t.dev.rd Reg.GL_RESULT_CODE pGLUME = 0 ∧ t.ram = s.ram)) ∧
  (∀ (w tag : Nat) (s : State), s.dev.holds w pGLUME = true → s.otp.custKey ≠ none →
    Answers (.glCustKey w tag) s (fun t => t.otp = s.otp ∧ t.dev.rd Reg.GL_RESULT_CODE pGLUME = 0x4D)) ∧
  (∀ (w tag : Nat) (s : State), s.dev.holds w pGLUME = true →
    Answers (.glAttest w tag) s (fun t => t.dev.rd Reg.GL_RESULT_CODE pGLUME = 0 ∧ t.dev.rd Reg.GL_RESULT_TAG pGLUME = tag % 256
      ∧ t.dev.rd Reg.GL_RESULT_DONE pGLUME = 1 ∧ bitOf (t.dev.rd Reg.EV_RAW pGLUME) 1 = true ∧ t.otp = s.otp)) ∧
  (∀ (w tag : Nat) (s : State), s.dev.holds w pGLUME = true →
    Answers (.glChallenge w tag) s (fun t => t.dev.sys.chalLive = true ∧ t.dev.rd Reg.GL_RESULT_CODE pGLUME = 0
      ∧ (∀ i, i < 8 → t.dev.rd Reg.GL_CHAL pGLUME i = Config.freeNat (s.dev.free + i) % 2 ^ 32) ∧ t.dev.chans = s.dev.chans)) ∧
  (∀ (w tag : Nat) (s : State), s.dev.holds w pGLUME = true →
    Answers (.glUnlock w tag) s (fun t => t.dev.sys.chalLive = false ∧ t.dev.chans = s.dev.chans ∧ t.otp = s.otp
      ∧ t.dev.sys.unlocked = (s.dev.sys.unlocked || (s.dev.tokensOk s.otp && !(s.dev.anyAdmitted)))
      ∧ t.dev.rd Reg.GL_RESULT_CODE pGLUME
          = (if s.dev.tokensOk s.otp = false then 0x4E else if s.dev.anyAdmitted then 0x4F else 0))) ∧
  (∀ (tag : Nat) (img : ImageSet) (s : State), s.dev.bootWaits = true → s.dev.pageAnswers 1 pGLUME = true → tag < 256 →
    s.dev.rdPair Reg.GL_BOOT_ADDR_LO Reg.GL_BOOT_ADDR_HI pGLUME % 0x1000 = 0 →
    Answers (.glPcieBoot 1 tag img) s (fun t =>
      ((s.dev.imageCode s.otp img).1 = 0 → t.dev.sys.booted = true ∧ t.dev.sys.bootSource = 2
          ∧ t.dev.sys.svnRun = [img.svn0 % 64, img.svn1 % 64, img.svn2 % 64] ∧ t.dev.rd Reg.GL_SVN_FUSED pGLUME = fromLE (padTo 3 s.otp.svn) % 2 ^ 24)
        ∧ ((s.dev.imageCode s.otp img).1 ≠ 0 → t.dev.sys.booted = s.dev.sys.booted ∧ bitOf (t.dev.rd Reg.EV_RAW pGLUME) 0 = true)
        ∧ t.dev.rd Reg.GL_RESULT_CODE pGLUME = (s.dev.imageCode s.otp img).1 ∧ t.dev.rd Reg.GL_RESULT_TAG pGLUME = tag
        ∧ t.dev.rd Reg.GL_RESULT_DONE pGLUME = 1 ∧ t.dev.rgn = s.dev.rgn ∧ t.otp = s.otp ∧ t.ram = s.ram)) ∧
  (∀ (t0 : Nat) (sources : List (Nat × Nat)) (s : State), (s.dev.advanceTo t0).soloDue = true →
    Answers (.standaloneStart t0 sources) s (fun t => t.dev.sys.standalone = true ∧ t.ram = s.ram ∧ t.otp = s.otp
      ∧ (∀ r n, r ∈ s.dev.soloRegions → s.dev.active r = true → n < 4 → t.dev.lnMode (r * 16 + n) = 2 ∧ t.dev.lnRate (r * 16 + n) = 0)
      ∧ (∀ r, r ∈ s.dev.soloRegions → s.dev.active r = true → t.dev.lnMode (r * 16 + 8) = 1 ∧ t.dev.lnRate (r * 16 + 8) = 2)
      ∧ (∀ r rest, s.dev.soloRegions.filter s.dev.active = r :: rest → t.dev.rd Reg.PTP_CTRL_EN (pPTPI 0) = 1
          ∧ t.dev.rd Reg.PTP_CTRL_ROLE (pPTPI 0) = 0 ∧ t.dev.rd Reg.PTP_CTRL_PROFILE (pPTPI 0) = 1
          ∧ t.dev.rd Reg.PTP_CTRL_PORT (pPTPI 0) = r * 16 + 8 ∧ t.dev.rd Reg.REF_CTRL_EN (pREF 0) = 1
          ∧ t.dev.rd Reg.REF_CTRL_TYPE (pREF 0) = 2 ∧ t.dev.rd Reg.REF_CTRL_SRC (pREF 0) = r * 16 + 8
          ∧ t.dev.rd Reg.DPLL_CTRL_MODE pDPLL = 0)))

/-- R305, R306, R390: a write that passes its descriptor's check and that the ports have room for puts each byte at its address
and changes no other byte of any region; bytes without a port are discarded. The same of a write through a port's BAR2 aperture.
R204, R312: one that fails its check, or finds a full queue, writes nothing. R305, R307: a read changes no byte of memory; one
of codewords without errors that finds its port without waiting reads and not in a drain answers the bytes that lie there, not
poisoned, and changes no register. The same of a read through the aperture. R313: in a drain a read that is not urgent waits.
The model's own readings here: log entries 6 and 30. -/
def Obligations.MemoryHoldsWhatIsWritten : Prop :=
  (∀ (r q desc addr need : Nat) (data : List Byte) (errs : List Nat) (s : State), s.dev.active r = true →
    s.dev.bufStops r q desc addr data.length false = false → s.dev.queueRoom r (cwList addr data.length) = true →
    Answers (.memWrite r ⟨q, desc⟩ addr need ⟨data, errs⟩) s (fun t =>
      (∀ i, i < data.length → ramGet t.ram (ramKey r (addr + i))
          = if (s.dev.portFor r (addr + i)).isSome then data.getD i 0 else ramGet s.ram (ramKey r (addr + i)))
        ∧ (∀ k, (∀ i, i < data.length → k ≠ ramKey r (addr + i)) → ramGet t.ram k = ramGet s.ram k) ∧ t.otp = s.otp)) ∧
  (∀ (r q desc addr need : Nat) (data : List Byte) (errs : List Nat) (s : State),
    (s.dev.bufStops r q desc addr data.length false = true ∨ s.dev.queueRoom r (cwList addr data.length) = false) →
    Answers (.memWrite r ⟨q, desc⟩ addr need ⟨data, errs⟩) s (fun t => t.ram = s.ram ∧ t.otp = s.otp)) ∧
  (∀ (h off len : Nat) (data : List Byte) (errs : List Nat) (s : State), h < 2 → s.dev.portUp h = true → off + data.length ≤ 2 ^ 36 →
    let r := s.dev.rd Reg.BAR2_APER_REGION (aperPage h)
    let a := s.dev.rd Reg.BAR2_APER_BASE_GIB (aperPage h) * 2 ^ 30 + off
    s.dev.answers r = true → ¬ (s.dev.sys.mode = 2 ∧ r = 0) → s.dev.queueRoom r (cwList a data.length) = true →
    Answers (.bar2Access h off len (some data) errs) s (fun t =>
      (∀ i, i < data.length → ramGet t.ram (ramKey r (a + i))
          = if (s.dev.portFor r (a + i)).isSome then data.getD i 0 else ramGet s.ram (ramKey r (a + i)))
        ∧ (∀ k, (∀ i, i < data.length → k ≠ ramKey r (a + i)) → ramGet t.ram k = ramGet s.ram k) ∧ t.otp = s.otp)) ∧
  (∀ (r q desc addr len need : Nat) (errs : List Nat) (s : State),
    Answers (.memRead r ⟨q, desc⟩ addr len need errs) s (fun t => t.ram = s.ram ∧ t.otp = s.otp)) ∧
  (∀ (r p q desc addr len need : Nat) (s : State), s.dev.active r = true → s.dev.bufStops r q desc addr len true = false →
    s.dev.portFor r addr = some p → (s.dev.mp r p).reads = [] → (s.dev.mp r p).drain = none →
    (∀ x, x ∈ cwList addr len → ∃ p, s.dev.portFor r x.1 = some p ∧ tget? (s.dev.mp r p).bad x.1 = none ∧ x.1 ∉ (s.dev.mp r p).dirty) →
    Answers (.memRead r ⟨q, desc⟩ addr len need []) s (fun t => t.dev.out = s.dev.out ++ [.memData r q addr (s.memGet r addr len) false]
      ∧ (t.dev.mp r p).reads = [] ∧ t.ram = s.ram ∧ t.dev.regs = s.dev.regs)) ∧
  (∀ (r p q desc addr len need lo : Nat) (errs : List Nat) (s : State), s.dev.active r = true →
    s.dev.bufStops r q desc addr len true = false → 4 ≤ q → s.dev.portFor r addr = some p → (s.dev.mp r p).reads = [] →
    (s.dev.mp r p).drain = some lo → (s.dev.mp r p).panic.contains q = false →
    (∃ x, x ∈ cwList addr len ∧ ∀ y, y ∈ (s.dev.mp r p).queue → y.1 ≠ x.1) →
    Answers (.memRead r ⟨q, desc⟩ addr len need errs) s (fun t => t.dev.out = s.dev.out ∧ t.dev.regs = s.dev.regs
      ∧ (t.dev.mp r p).reads = [⟨q, desc, addr, len, errs⟩])) ∧
  (∀ (h off len : Nat) (s : State), h < 2 → s.dev.portUp h = true → off + len ≤ 2 ^ 36 →
    let r := s.dev.rd Reg.BAR2_APER_REGION (aperPage h)
    let a := s.dev.rd Reg.BAR2_APER_BASE_GIB (aperPage h) * 2 ^ 30 + off
    s.dev.answers r = true →
    (∀ x, x ∈ cwList a len → ∃ p, s.dev.portFor r x.1 = some p ∧ tget? (s.dev.mp r p).bad x.1 = none ∧ x.1 ∉ (s.dev.mp r p).dirty) →
    Answers (.bar2Access h off len none []) s (fun t =>
      t.dev.out = s.dev.out ++ [.hostData (h + 1) ((s.memGet r a len).map (fun b => b.toNat))] ∧ t.ram = s.ram
        ∧ t.dev.regs = s.dev.regs))

/-- R312 to R314: a queued write goes to memory: the oldest without a drain or a panic, one of a panicking requester first; a
drain ends at its low watermark; no byte of region memory changes by it. R311: an idle row closes, and no other. R315, R316: a
refresh that is due is issued, postponed, or, with eight owed, replaced by a forced one of all banks; a debt is repaid by one of
all banks; the multiplier is the highest that a die requires. The model's own readings here: log entry 99. -/
def Obligations.QueuesAndRefresh : Prop :=
  (∀ (r p : Nat) (x : Nat × Nat) (s : State), s.dev.portIn r p = true → s.dev.nextWrite r p = some x →
    let m := s.dev.mp r p
    Answers (.writeQueueIssue r p) s (fun t => (t.dev.mp r p).queue = m.queue.filter (fun y => y.1 != x.1)
      ∧ (m.panic = [] → m.drain = none → m.queue.head? = some x)
      ∧ ((∃ y, y ∈ m.queue ∧ m.panic.contains y.2 = true) → m.panic.contains x.2 = true)
      ∧ (∀ lo, m.drain = some lo → (t.dev.mp r p).queue.length ≤ lo → (t.dev.mp r p).drain = none)
      ∧ (m.reads = [] → t.dev.regs = s.dev.regs ∧ t.dev.out = s.dev.out) ∧ t.ram = s.ram)) ∧
  (∀ (r p bank clks : Nat) (s : State), s.dev.portIn r p = true → s.dev.rd Reg.MP_PAGE_IDLE_CLKS (mpPage r p) ≤ clks →
    Answers (.rowIdleTimer r p bank clks) s (fun t => tget? (t.dev.mp r p).rows bank = none
      ∧ (∀ b, b ≠ bank → tget? (t.dev.mp r p).rows b = tget? (s.dev.mp r p).rows b)
      ∧ (t.dev.mp r p).queue = (s.dev.mp r p).queue ∧ t.dev.regs = s.dev.regs ∧ t.ram = s.ram)) ∧
  (∀ (r p : Nat) (blocked : Bool) (s : State), s.dev.portIn r p = true →
    ((s.dev.mp r p).panic = [] ∨ (blocked = false ∧ (s.dev.mp r p).owed < 64)) →
    Answers (.refreshDue r p blocked) s (fun t => t.dev.out = s.dev.out ++ [.refresh r p false false] ∧ t.dev.regs = s.dev.regs
      ∧ t.dev.mps = s.dev.mps)) ∧
  (∀ (r p : Nat) (s : State), s.dev.portIn r p = true → (s.dev.mp r p).panic ≠ [] → (s.dev.mp r p).owed < 64 →
    Answers (.refreshDue r p true) s (fun t => (t.dev.mp r p).owed = (s.dev.mp r p).owed + 1 ∧ t.dev.out = s.dev.out
      ∧ s.dev.regsBut t.dev [Reg.MP_REF_OWED.key (mpPage r p) 0])) ∧
  (∀ (r p : Nat) (blocked : Bool) (s : State), s.dev.portIn r p = true → (s.dev.mp r p).panic ≠ [] → 64 ≤ (s.dev.mp r p).owed →
    Answers (.refreshDue r p blocked) s (fun t => (t.dev.mp r p).owed = (s.dev.mp r p).owed + 1 - 8
      ∧ t.dev.out = s.dev.out ++ [.refresh r p true true] ∧ (t.dev.mp r p).rows = []
      ∧ t.dev.rd Reg.MP_REF_FORCED (mpPage r p)
          = min (s.dev.rd Reg.MP_REF_FORCED (mpPage r p) + 1) (2 ^ Reg.MP_REF_FORCED.width - 1))) ∧
  (∀ (r p : Nat) (s : State), s.dev.portIn r p = true → (s.dev.mp r p).panic = [] → (s.dev.mp r p).owed ≠ 0 →
    Answers (.refreshRepay r p) s (fun t => (t.dev.mp r p).owed = (s.dev.mp r p).owed - 8
      ∧ t.dev.out = s.dev.out ++ [.refresh r p true false] ∧ s.dev.regsBut t.dev [Reg.MP_REF_OWED.key (mpPage r p) 0])) ∧
  (∀ (r p mult : Nat) (hot : Bool) (s : State), s.dev.portIn r p = true →
    Answers (.refreshRatePoll r p mult hot) s (fun t =>
      t.dev.rd Reg.MP_REF_MULT (mpPage r p) = (if hot = true ∨ 2 < mult then 4 else if mult = 2 then 2 else 1)
        ∧ t.dev.body = s.dev.body ∧ (hot = true → bitOf (t.dev.rd Reg.EV_RAW (mpPage r p)) 2 = true)))

/-- R310: a scrub of a clean stripe changes nothing; one that corrects a codeword of an idle port counts it and its repair.
R481: in TEST the page lock's holder arms an injection, and no other register changes. R480: a corrected SRAM error is counted
and reported with 0x50 and leaves the device's body alone; an uncorrectable one is counted and reported with 0x51: in the packet
buffers it discards and counts one packet of the flow, and in a store entry it retires the entry. The model's own readings here:
log entry 146. -/
def Obligations.MemoryErrorsContained : Prop :=
  (∀ (r p stripe : Nat) (s : State),
    (∀ i, i < 8 → tget? (s.dev.mp r p).bad (p * 0x800000000 + stripe * 256 + i * 32) = none) →
    Answers (.scrubRead r p stripe []) s (fun t => t = s)) ∧
  (∀ (r p stripe sym : Nat) (s : State), s.dev.portIn r p = true → s.dev.active r = true →
    s.dev.rd Reg.MP_SCRUB_PERIOD_H (mpPage r p) ≠ 0 → (s.dev.mp r p).queue.length < s.dev.rd Reg.MP_WQ_LO (mpPage r p) →
    stripe < s.dev.rd Reg.MP_CAP_DATA_MIB (mpPage r p) * 4096 → (s.dev.arb r p).reqs = [] → (s.dev.mp r p).reads = [] →
    (∀ i, i < 8 → tget? (s.dev.mp r p).bad (p * 0x800000000 + stripe * 256 + i * 32) = none) →
    (∀ x, x ∈ (s.dev.mp r p).queue → x.1 ≠ p * 0x800000000 + stripe * 256) →
    Answers (.scrubRead r p stripe [(0, 1 + 64 * sym)]) s (fun t =>
      t.dev.rd Reg.MP_ECC_CE (mpPage r p) = min (s.dev.rd Reg.MP_ECC_CE (mpPage r p) + 1) (2 ^ Reg.MP_ECC_CE.width - 1)
        ∧ t.dev.rd Reg.MP_ECC_UE_SCRUB_FIX (mpPage r p)
          = min (s.dev.rd Reg.MP_ECC_UE_SCRUB_FIX (mpPage r p) + 1) (2 ^ Reg.MP_ECC_UE_SCRUB_FIX.width - 1) ∧ t.ram = s.ram)) ∧
  (∀ (w r p v : Nat) (s : State), r < 8 → p < 4 → s.dev.holds w (mpPage r p) = true → s.dev.raMode r = 2 → bitOf v 31 = true →
    Answers (.mpInjArm w r p v) s (fun t => t.dev.rd Reg.MP_INJ_ARM (mpPage r p) = 1
      ∧ t.dev.rd Reg.MP_INJ_SYMBOLS (mpPage r p) = v % 2 ^ Reg.MP_INJ_SYMBOLS.width ∧ t.dev.body = s.dev.body
      ∧ s.dev.regsBut t.dev [Reg.MP_INJ_ARM.key (mpPage r p) 0, Reg.MP_INJ_SYMBOLS.key (mpPage r p) 0,
          Reg.MP_INJ_FIRST.key (mpPage r p) 0])) ∧
  (∀ (w r v : Nat) (s : State), r < 8 → s.dev.holds w (blk r ixRGN) = true → s.dev.raMode r = 2 → bitOf v 31 = true →
    Answers (.rgnSramInjArm w r v) s (fun t => t.dev.rd Reg.RGN_SRAM_INJ_ARM (blk r ixRGN) = 1
      ∧ t.dev.rd Reg.RGN_SRAM_INJ_SRAM (blk r ixRGN) = v % 2 ^ Reg.RGN_SRAM_INJ_SRAM.width ∧ t.dev.body = s.dev.body
      ∧ s.dev.regsBut t.dev [Reg.RGN_SRAM_INJ_ARM.key (blk r ixRGN) 0, Reg.RGN_SRAM_INJ_SRAM.key (blk r ixRGN) 0,
          Reg.RGN_SRAM_INJ_UE.key (blk r ixRGN) 0])) ∧
  (∀ (r sram word idx : Nat) (s : State), r < 8 → s.dev.active r = true → sram < 4 →
    Answers (.sramReadError r sram word false idx) s (fun t =>
      t.dev.rd Reg.RGN_SRAM_CE (blk r ixRGN) = min (s.dev.rd Reg.RGN_SRAM_CE (blk r ixRGN) + 1) (2 ^ Reg.RGN_SRAM_CE.width - 1)
        ∧ t.dev.rd Reg.ERR_CODE_CODE (blk r ixRGN) = 0x50 ∧ t.dev.body = s.dev.body)) ∧
  (∀ (r word f : Nat) (q : QPkt) (rest : List QPkt) (s : State), r < 8 → f < 2048 → s.dev.active r = true →
    (s.dev.flow r f).queue = q :: rest →
    Answers (.sramReadError r 2 word true f) s (fun t => (t.dev.flow r f).queue = rest
      ∧ t.dev.rd Reg.RGN_SRAM_UE (blk r ixRGN) = min (s.dev.rd Reg.RGN_SRAM_UE (blk r ixRGN) + 1) (2 ^ Reg.RGN_SRAM_UE.width - 1)
      ∧ t.dev.rd Reg.ERR_CODE_CODE (blk r ixRGN) = 0x51 ∧ t.dev.lastOut = some (.drop r f q.seq)
      ∧ t.dev.rd Reg.FL_STATE_DROP (wFLOW r f) = min (s.dev.rd Reg.FL_STATE_DROP (wFLOW r f) + 1) (2 ^ Reg.FL_STATE_DROP.width - 1))) ∧
  (∀ (r word idx : Nat) (s : State), r < 8 → idx < 4096 → s.dev.active r = true →
    Answers (.sramReadError r 1 word true idx) s (fun t => tget? (t.dev.rach r).ents idx = some .retired
      ∧ t.dev.rd Reg.RGN_SRAM_UE (blk r ixRGN) = min (s.dev.rd Reg.RGN_SRAM_UE (blk r ixRGN) + 1) (2 ^ Reg.RGN_SRAM_UE.width - 1)
      ∧ t.dev.rd Reg.ERR_CODE_CODE (blk r ixRGN) = 0x51 ∧ t.ram = s.ram)) ∧
  (∀ (r word idx : Nat) (s : State), r < 8 → s.dev.active r = true →
    Answers (.sramReadError r 3 word true idx) s (fun t =>
      t.dev.rd Reg.RGN_SRAM_UE (blk r ixRGN) = min (s.dev.rd Reg.RGN_SRAM_UE (blk r ixRGN) + 1) (2 ^ Reg.RGN_SRAM_UE.width - 1)
        ∧ t.dev.rd Reg.ERR_CODE_CODE (blk r ixRGN) = 0x51 ∧ t.ram = s.ram))

/-- R318: training that finds a setting, or whose stored settings verify, brings a populated port into service with the
outcome's result; without one the port is out of service with MEM_TRAIN_FAIL's code and its window's contents, and no others,
are lost; a port that the board does not populate is ABSENT. R319: a trigger starts a retraining from service and is absorbed in
one; a step is taken at most once in a tREFI. R319, R320: the end of a sequence brings the port back into service or loses it
with its contents. R321: in NORMAL a lost port tries again, the next time 10 s later. The model's own readings here: log entries
6 and 102. -/
def Obligations.PortsTrainAndRetrain : Prop :=
  (∀ (r p temp margin : Nat) (s : State), r < 8 → p < 4 → (s.dev.region r).core = .run →
    s.dev.rd Reg.MP_STATE_STATE (mpPage r p) = 1 →
    (∀ o : TrainOutcome, s.dev.populated r p = true → (o = .pass ∨ o = .marginal) →
      Answers (.trainingComplete r p o temp margin) s (fun t => t.dev.rd Reg.MP_STATE_STATE (mpPage r p) = 2
        ∧ t.dev.rd Reg.MP_STATE_LAST_RESULT (mpPage r p) = (if margin < 4 then 2 else 0) ∧ t.ram = s.ram)) ∧
    (s.dev.populated r p = true → s.dev.rd Reg.MP_CAP_DATA_MIB (mpPage r p) ≠ 0 →
      Answers (.trainingComplete r p .restored temp margin) s (fun t => t.dev.rd Reg.MP_STATE_STATE (mpPage r p) = 2
        ∧ t.dev.rd Reg.MP_STATE_LAST_RESULT (mpPage r p) = 1
        ∧ t.dev.rd Reg.MP_TRAIN_COUNT (mpPage r p) = s.dev.rd Reg.MP_TRAIN_COUNT (mpPage r p) ∧ t.ram = s.ram)) ∧
    (∀ (o : TrainOutcome) (code : Nat), s.dev.populated r p = true →
      ((o = .noSetting ∧ code = 0x40) ∨ (o = .noResponse ∧ code = 0x41) ∨ (o = .configMismatch ∧ code = 0x42)) →
      Answers (.trainingComplete r p o temp margin) s (fun t => t.dev.rd Reg.MP_STATE_STATE (mpPage r p) = 4
        ∧ t.dev.rd Reg.MP_STATE_LAST_RESULT (mpPage r p) = code ∧ t.dev.rd Reg.ERR_CODE_CODE (mpPage r p) = 0x57
        ∧ (∀ a, p * 0x800000000 ≤ a → a < (p + 1) * 0x800000000 → ramGet t.ram (ramKey r a) = 0)
        ∧ ∀ k, (∀ a, p * 0x800000000 ≤ a → a < (p + 1) * 0x800000000 → k ≠ ramKey r a) → ramGet t.ram k = ramGet s.ram k)) ∧
    (∀ o : TrainOutcome, s.dev.populated r p = false →
      Answers (.trainingComplete r p o temp margin) s (fun t => t.dev.rd Reg.MP_STATE_STATE (mpPage r p) = 0
        ∧ t.dev.rd Reg.MP_STATE_LAST_RESULT (mpPage r p) = 0x43 ∧ t.ram = s.ram))) ∧
  (∀ (r p t0 : Nat) (c : RetrainCause) (s : State), s.dev.rd Reg.MP_STATE_STATE (mpPage r p) = 2 →
    Answers (.retrainTrigger r p c t0) s (fun t => t.dev.rd Reg.MP_STATE_STATE (mpPage r p) = 3
      ∧ (t.dev.mp r p).since = some (s.dev.advanceTo t0).now ∧ s.dev.regsBut t.dev [Reg.MP_STATE_STATE.key (mpPage r p) 0])) ∧
  (∀ (r p t0 : Nat) (c : RetrainCause) (s : State), s.dev.rd Reg.MP_STATE_STATE (mpPage r p) = 3 →
    Answers (.retrainTrigger r p c t0) s (fun t => t.dev = s.dev.advanceTo t0)) ∧
  (∀ (r p : Nat) (s : State), s.dev.rd Reg.MP_STATE_STATE (mpPage r p) = 3 → (s.dev.mp r p).panic = [] →
    (∀ x, (s.dev.mp r p).stepAt = some x ∨ (s.dev.mp r p).forcedAt = some x → x / s.dev.tRefi r p ≠ s.dev.now / s.dev.tRefi r p) →
    Answers (.retrainStep r p) s (fun t => (t.dev.mp r p).stepAt = some s.dev.now ∧ t.dev.regs = s.dev.regs)) ∧
  (∀ (r p temp margin t0 : Nat) (s : State), r < 8 → p < 4 → s.dev.rd Reg.MP_STATE_STATE (mpPage r p) = 3 → (s.dev.mp r p).panic = [] →
    Answers (.retrainEnd r p true temp margin t0) s (fun t => t.dev.rd Reg.MP_STATE_LAST_RESULT (mpPage r p) = (if margin < 4 then 2 else 3)
      ∧ ((s.dev.mp r p).reads = [] → t.dev.rd Reg.MP_STATE_STATE (mpPage r p) = 2 ∧ (t.dev.mp r p).since = none) ∧ t.ram = s.ram) ∧
    Answers (.retrainEnd r p false temp margin t0) s (fun t => t.dev.rd Reg.MP_STATE_STATE (mpPage r p) = 4
      ∧ t.dev.rd Reg.MP_STATE_LAST_RESULT (mpPage r p) = 0x40
      ∧ (∀ a, p * 0x800000000 ≤ a → a < (p + 1) * 0x800000000 → ramGet t.ram (ramKey r a) = 0)
      ∧ ∀ k, (∀ a, p * 0x800000000 ≤ a → a < (p + 1) * 0x800000000 → k ≠ ramKey r a) → ramGet t.ram k = ramGet s.ram k)) ∧
  (∀ (r p temp margin t0 at_ : Nat) (s : State), s.dev.active r = true → s.dev.rd Reg.MP_STATE_STATE (mpPage r p) = 4 →
    s.dev.raMode r = 1 → s.dev.populated r p = true → (s.dev.mp r p).next = some at_ → at_ ≤ (s.dev.advanceTo t0).now →
    Answers (.portRetrainAttempt r p .pass temp margin t0) s (fun t => t.dev.rd Reg.MP_STATE_STATE (mpPage r p) = 2
      ∧ t.dev.rd Reg.MP_STATE_LAST_RESULT (mpPage r p) = (if margin < 4 then 2 else 0)
      ∧ (t.dev.mp r p).next = some ((s.dev.advanceTo t0).now + 10000000000) ∧ t.ram = s.ram))

/-- R288, R290, R300: a request waits. R291, R292: on a cycle on which no owner's beats run, a grant goes to the one chosen
among those that waited, is emitted and charged its beats, down to −256; without a request the target is idle. R15, R296: 64
cycles without a beat revoke a grant and count it, its charge stays, and twice the operation is tried again. R295: a masked
block has no request left and presents them again when unmasked. R300: a returned credit is held up to 256 flits. R291, R294: at
the start of a window, each 256 cycles, every used grant is forgotten, and each credit grows by its weight up to twice the
weight. -/
def Obligations.ArbitersGrant : Prop :=
  (∀ (r tgt q beats cyc : Nat) (s : State), s.dev.active r = true → tgt < 11 → q < reqCount tgt → 1 ≤ beats → beats ≤ 4 →
    (∀ y, y ∈ (s.dev.arb r tgt).reqs → y.1 ≠ q) →
    (tgt < 8 → s.dev.rd Reg.CU_REQ_SIDEBAND (cuPage r) q ≠ 1 ∧ s.dev.rd Reg.CU_REQ_FENCED (cuPage r) q ≠ 1) →
    Answers (.culmRequest r tgt q beats cyc) s (fun t => (t.dev.arb r tgt).reqs = (s.dev.arb r tgt).reqs ++ [(q, beats, cyc)]
      ∧ t.dev.regs = s.dev.regs ∧ t.dev.out = s.dev.out)) ∧
  (∀ (r tgt cyc : Nat) (y : Nat × Nat × Nat) (lw : Bool) (s : State), s.dev.active r = true → tgt < 11 →
    (s.dev.arb r tgt).busy cyc = false →
    s.dev.chooseReq r tgt cyc ((s.dev.arb r tgt).reqs.filter (fun y => decide (y.2.2 < cyc) && !(s.dev.maskedAt r tgt y.1))) = some (y, lw) →
    let beats := if tgt < 8 then y.2.1 else 1
    Answers (.culmGrant r tgt cyc) s (fun t =>
      t.dev.out = s.dev.out ++ [.culm r tgt y.1 beats]
        ∧ (t.dev.arb r tgt).owner = some (y.1, beats, cyc)
        ∧ (t.dev.arb r tgt).reqs = (s.dev.arb r tgt).reqs.filter (fun z => z.1 != y.1)
        ∧ (t.dev.arb r tgt).c = (if lw then 0 else min ((s.dev.arb r tgt).c + 1) (s.dev.lwPeriod r tgt - 1))
        ∧ (t.dev.arb r tgt).creditOf y.1 = max (-256) ((s.dev.arb r tgt).creditOf y.1 - ((beats : Nat) : Int))
        ∧ ∀ q, q ≠ y.1 → (t.dev.arb r tgt).creditOf q = (s.dev.arb r tgt).creditOf q)) ∧
  (∀ (r tgt cyc : Nat) (s : State), s.dev.active r = true → tgt < 11 → (s.dev.arb r tgt).busy cyc = false →
    (s.dev.arb r tgt).reqs = [] →
    Answers (.culmGrant r tgt cyc) s (fun t => (t.dev.arb r tgt).owner = none ∧ t.dev.out = s.dev.out ∧ t.dev.regs = s.dev.regs)) ∧
  (∀ (r tgt cyc q b at_ : Nat) (s : State), s.dev.active r = true → tgt < 8 → (s.dev.arb r tgt).owner = some (q, b, at_) → q < 29 →
    at_ + 64 ≤ cyc →
    let n := tget (s.dev.arb r tgt).fails q 0 + 1
    Answers (.culmRevoke r tgt cyc) s (fun t => (t.dev.arb r tgt).owner = none
      ∧ (t.dev.arb r tgt).credit = (s.dev.arb r tgt).credit
      ∧ t.dev.rd Reg.CU_REQ_REVOKE (cuPage r) q = min (s.dev.rd Reg.CU_REQ_REVOKE (cuPage r) q + 1) (2 ^ Reg.CU_REQ_REVOKE.width - 1)
      ∧ (n ≤ 2 → s.dev.reqMasked r q = false → (∀ y, y ∈ (s.dev.arb r tgt).reqs → y.1 ≠ q) →
          (t.dev.arb r tgt).reqs = (s.dev.arb r tgt).reqs ++ [(q, b, cyc)] ∧ tget (t.dev.arb r tgt).fails q 0 = n
            ∧ t.dev.chans = s.dev.chans)
      ∧ (2 < n → tget (t.dev.arb r tgt).fails q 0 = 0) ∧ t.ram = s.ram)) ∧
  (∀ (r b cyc : Nat) (masked : Bool) (s : State),
    Answers (.sidebandMask r b ⟨masked, cyc⟩) s (fun t =>
      (∀ q, q ∈ blockReqs b → t.dev.rd Reg.CU_REQ_SIDEBAND (cuPage r) q = b2n masked)
        ∧ (masked = true → ∀ tgt, tgt < 8 → ∀ y, y ∈ (t.dev.arb r tgt).reqs → y.1 ∉ blockReqs b)
        ∧ (masked = false → ∀ tgt, tgt < 8 → ∀ y, y ∈ (s.dev.arb r tgt).back → y.1 ∈ blockReqs b →
            s.dev.rd Reg.CU_REQ_FENCED (cuPage r) y.1 ≠ 1 → ∃ at_, (y.1, y.2, at_) ∈ (t.dev.arb r tgt).reqs)
        ∧ t.dev.out = s.dev.out ∧ t.ram = s.ram)) ∧
  (∀ (r p cls flits : Nat) (s : State), s.dev.active r = true → p < 3 → cls < 4 → noLink r p = false →
    Answers (.stolonCreditReturn r p cls flits) s (fun t =>
      (t.dev.arb r (8 + p)).flitsOf cls = min 256 ((s.dev.arb r (8 + p)).flitsOf cls + flits)
        ∧ s.dev.regsBut t.dev [Reg.ST_CRD.key (blk r ixSTOLON) p])) ∧
  (∀ (r tgt cyc : Nat) (s : State), s.dev.active r = true → tgt < 11 → cyc % 256 = 0 →
    Answers (.culmWindowStart r tgt cyc) s (fun t => (t.dev.arb r tgt).used = [] ∧ (t.dev.arb r tgt).reqs = (s.dev.arb r tgt).reqs
      ∧ (tget? s.dev.pend (if tgt < 8 then cuPage r else blk r ixSTOLON) = none → t.dev.regs = s.dev.regs)
      ∧ ∀ q, q < reqCount tgt → (t.dev.arb r tgt).creditOf q
          = min (2 * ((t.dev.weightOf r tgt q : Nat) : Int)) ((s.dev.arb r tgt).creditOf q + ((t.dev.weightOf r tgt q : Nat) : Int)))) ∧
  (∀ (r tgt cyc : Nat) (s : State), cyc % 256 ≠ 0 → Answers (.culmWindowStart r tgt cyc) s (fun t => t = s))

/-- R324, R395: an IMMEDIATE commit of a memory port that passes its checks makes the staged value of MP_WQ.LO active at once,
and APPLIED_ID tells the commit. R396: FRAME and SLICE are refused with OP_INVALID and nothing waits. R259, R396: a WRAP commit
of EGRESS waits for the wraps of its 16 ports, a TB commit for its instant, before which nothing of it happens; each wrap of a
port's or a link's table takes it off the list, and the last one ends the commit with its APPLIED_ID. No TB commit whose instant
has come waits when a new commit is written (it would apply first). The model's own readings here: log entry 93. -/
def Obligations.CommitsReachTheirPoints : Prop :=
  (∀ (w r p chan id v : Nat) (pre post : Tbl Nat) (s : State), r < 8 → p < 4 → s.dev.holds w (mpPage r p) = true → id < 256 →
    (∀ x, tget? s.dev.pend (mpPage r p) = some x → x.kind ≠ 4 ∨ s.dev.now < x.tb) →
    s.dev.comCheck (mpPage r p) 0 (s.dev.comVals (mpPage r p)) = 0 →
    s.dev.comVals (mpPage r p) = pre ++ (Reg.MP_WQ_LO.key (mpPage r p) 0, v) :: post →
    (∀ e, e ∈ post → e.1 ≠ Reg.MP_WQ_LO.key (mpPage r p) 0) →
    Answers (.commitImmediate w (mpPage r p) chan id) s (fun t =>
      t.dev.rd Reg.MP_WQ_LO (mpPage r p) = v % 2 ^ Reg.MP_WQ_LO.width
        ∧ t.dev.rd Reg.COMMIT_RESULT_APPLIED_ID (mpPage r p) = id
        ∧ t.dev.rd Reg.COMMIT_RESULT_PENDING (mpPage r p) = 0 ∧ t.dev.rd Reg.STATUS_PENDING (mpPage r p) = 0
        ∧ tget? t.dev.pend (mpPage r p) = none ∧ t.ram = s.ram)) ∧
  (∀ (w page chan id : Nat) (i : Instr) (s : State), (i = .commitFrame w page chan id ∨ i = .commitSlice w page chan id) →
    s.dev.holds w page = true → (∀ x, tget? s.dev.pend page = some x → x.kind ≠ 4 ∨ s.dev.now < x.tb) →
    Answers i s (fun t => t.dev.rd Reg.COMMIT_RESULT_CODE page = cOpInvalid ∧ t.dev.rd Reg.COMMIT_RESULT_ID page = id % 256
      ∧ t.dev.pend = s.dev.pend ∧ t.dev.body = s.dev.body ∧ t.ram = s.ram)) ∧
  (∀ (w r chan id : Nat) (s : State), r < 8 → s.dev.holds w (blk r ixEGRESS) = true → id < 256 →
    (∀ x, tget? s.dev.pend (blk r ixEGRESS) = some x → x.kind ≠ 4 ∨ s.dev.now < x.tb) →
    s.dev.comCheck (blk r ixEGRESS) 3 (s.dev.comVals (blk r ixEGRESS)) = 0 →
    Answers (.commitWrap w (blk r ixEGRESS) chan id) s (fun t =>
      (∃ x, tget? t.dev.pend (blk r ixEGRESS) = some x ∧ x.id = id ∧ x.waiting = List.range 16
          ∧ x.vals = s.dev.comVals (blk r ixEGRESS) ∧ x.posted = s.dev.now)
        ∧ t.dev.rd Reg.COMMIT_RESULT_PENDING (blk r ixEGRESS) = 1 ∧ t.dev.flows = s.dev.flows ∧ t.ram = s.ram)) ∧
  (∀ (w page chan id : Nat) (s : State), s.dev.holds w page = true → id < 256 →
    (∀ x, tget? s.dev.pend page = some x → x.kind ≠ 4 ∨ s.dev.now < x.tb) → s.dev.comCheck page 4 (s.dev.comVals page) = 0 →
    Answers (.commitTb w page chan id) s (fun t =>
      (∃ x, tget? t.dev.pend page = some x ∧ x.id = id ∧ x.kind = 4 ∧ x.vals = s.dev.comVals page
          ∧ x.tb = s.dev.rdS Reg.COMMIT_TB_LO page + s.dev.rdS Reg.COMMIT_TB_HI page * 2 ^ 32)
        ∧ t.dev.rd Reg.COMMIT_RESULT_PENDING page = 1 ∧ t.dev.flows = s.dev.flows ∧ t.ram = s.ram)) ∧
  (∀ (r p t0 : Nat) (x : Pend) (s : State), r < 8 → p < 4 → tget? s.dev.pend (mpPage r p) = some x → x.kind = 4 →
    x.tb ≤ (s.dev.advanceTo t0).now → x.id < 256 →
    Answers (.commitTbApply (mpPage r p) t0) s (fun t => tget? t.dev.pend (mpPage r p) = none
      ∧ t.dev.rd Reg.COMMIT_RESULT_APPLIED_ID (mpPage r p) = x.id ∧ t.dev.rd Reg.COMMIT_RESULT_PENDING (mpPage r p) = 0
      ∧ t.ram = s.ram)) ∧
  (∀ (page t0 : Nat) (x : Pend) (s : State), tget? s.dev.pend page = some x → (x.kind ≠ 4 ∨ (s.dev.advanceTo t0).now < x.tb) →
    Answers (.commitTbApply page t0) s (fun t => t.dev = s.dev.advanceTo t0 ∧ t.ram = s.ram)) ∧
  (∀ (r p t0 : Nat) (x : Pend) (s : State), s.dev.active r = true → tget? s.dev.pend (blk r ixEGRESS) = some x →
    x.waiting.contains p = true →
    (s.dev.advanceTo t0).wraps (blk r ixEGRESS) (s.dev.rd Reg.PT_PACE_CYCLE_US (wPT r p) * 1000) = true →
    Answers (.pacerWrap r p t0) s (fun t => tget? t.dev.pend (blk r ixEGRESS)
      = (if x.waiting.filter (fun y => y != p) = [] then none else some { x with waiting := x.waiting.filter (fun y => y != p) })
        ∧ (x.waiting.filter (fun y => y != p) = [] → t.dev.rd Reg.COMMIT_RESULT_APPLIED_ID (blk r ixEGRESS) = x.id % 256
            ∧ t.dev.rd Reg.COMMIT_RESULT_PENDING (blk r ixEGRESS) = 0) ∧ t.ram = s.ram)) ∧
  (∀ (r p t0 : Nat) (x : Pend) (s : State), s.dev.active r = true → tget? s.dev.pend (blk r ixSTOLON) = some x →
    x.waiting.contains p = true → (s.dev.advanceTo t0).wraps (blk r ixSTOLON) 4096 = true →
    Answers (.stolonWrap r p t0) s (fun t => tget? t.dev.pend (blk r ixSTOLON)
      = (if x.waiting.filter (fun y => y != p) = [] then none else some { x with waiting := x.waiting.filter (fun y => y != p) })
        ∧ (x.waiting.filter (fun y => y != p) = [] → t.dev.rd Reg.COMMIT_RESULT_APPLIED_ID (blk r ixSTOLON) = x.id % 256
            ∧ t.dev.rd Reg.COMMIT_RESULT_PENDING (blk r ixSTOLON) = 0) ∧ t.ram = s.ram))

/-- R220, R221: a descriptor that keeps R220's rules, of a current generation and with an entry free, enters at the lowest free
index with that index's next generation, of which its producer is told; one that breaks a rule is answered with 0x38 and one of
a stale generation with 0x11, and neither enters. R234, R235: one that must stall waits, and is taken when an entry is free.
R240: the RA_POST window tells the result, at the lowest free index or at the fixed one named by a writer that is no host. R239,
R240: the dispatch modes: TEST from NORMAL on request, counted instead while the region is in service; RECOVERY from NORMAL; a
host asks for TEST with no lock. The model's own readings here: log entries 79 and 85. -/
def Obligations.PostsEnterTheStore : Prop :=
  (∀ (r w idx : Nat) (by_ : PostBy) (ds : Desc) (s : State), by_ ≠ .window → s.dev.active r = true → s.dev.posted r by_ = some ds →
    (ds.noch = true ∨ s.dev.genCurrent ds.chan ds.gen = true) → s.dev.postStalls r ds = false →
    lowestFree (s.dev.rach r).ents = some idx →
    let gen := if 255 ≤ s.dev.entGen r idx then 1 else s.dev.entGen r idx + 1
    Answers (.raPost r w by_) s (fun t => t.dev.lastOut = some (.posted r idx gen 0) ∧ t.dev.entGen r idx = gen
      ∧ (∃ vals st eff, tget? (t.dev.rach r).ents idx = some (.task ds vals st eff)) ∧ t.ram = s.ram ∧ t.otp = s.otp)) ∧
  (∀ (r w : Nat) (by_ : PostBy) (s : State), by_ ≠ .window → s.dev.active r = true →
    Answers (.raPost r w by_) s (fun t =>
      (s.dev.posted r by_ = none → t.dev.out = s.dev.out ++ [.posted r 0 0 0x38] ∧ t.dev.ras = s.dev.ras)
        ∧ (∀ ds, s.dev.posted r by_ = some ds → ds.noch = false → s.dev.genCurrent ds.chan ds.gen = false →
            t.dev.out = s.dev.out ++ [.posted r 0 0 0x11] ∧ t.dev.ras = s.dev.ras)
        ∧ (∀ ds, s.dev.posted r by_ = some ds → (ds.noch = true ∨ s.dev.genCurrent ds.chan ds.gen = true) → s.dev.postStalls r ds = true →
            (t.dev.rach r).ents = (s.dev.rach r).ents
              ∧ ∃ x, (t.dev.rach r).stalls = (s.dev.rach r).stalls ++ [x] ∧ x.post = some (ds, none))
        ∧ t.ram = s.ram)) ∧
  (∀ (r w idx : Nat) (ds : Desc) (s : State), s.dev.holds w (blk r ixRACHIS) = true →
    s.dev.rd Reg.RA_POST_RESULT_BUSY (blk r ixRACHIS) = 0 → parseDesc (s.dev.raWords r Reg.RA_POST 16) = some ds →
    (ds.noch = true ∨ s.dev.genCurrent ds.chan ds.gen = true) → s.dev.postStalls r ds = false →
    lowestFree (s.dev.rach r).ents = some idx →
    Answers (.raPost r w .window) s (fun t => t.dev.rd Reg.RA_POST_RESULT_CODE (blk r ixRACHIS) = 0
      ∧ t.dev.rd Reg.RA_POST_RESULT_INDEX (blk r ixRACHIS) = idx ∧ t.dev.rd Reg.RA_POST_RESULT_BUSY (blk r ixRACHIS) = 0
      ∧ (∃ vals st eff, tget? (t.dev.rach r).ents idx = some (.task ds vals st eff)) ∧ t.ram = s.ram)) ∧
  (∀ (r w idx : Nat) (ds : Desc) (s : State), s.dev.holds w (blk r ixRACHIS) = true → isHost w = false → idx < 4096 →
    s.dev.rd Reg.RA_POST_RESULT_BUSY (blk r ixRACHIS) = 0 → parseDesc (s.dev.raWords r Reg.RA_POST 16) = some ds →
    (ds.noch = true ∨ s.dev.genCurrent ds.chan ds.gen = true) → s.dev.postStalls r ds = false →
    tget? (s.dev.rach r).ents idx = none →
    Answers (.raPostFixed r w idx) s (fun t => t.dev.rd Reg.RA_POST_RESULT_CODE (blk r ixRACHIS) = 0
      ∧ t.dev.rd Reg.RA_POST_RESULT_INDEX (blk r ixRACHIS) = idx ∧ t.dev.rd Reg.RA_POST_RESULT_BUSY (blk r ixRACHIS) = 0
      ∧ (∃ vals st eff, tget? (t.dev.rach r).ents idx = some (.task ds vals st eff)) ∧ t.ram = s.ram)) ∧
  (∀ (r t0 idx : Nat) (x : Stall) (ds : Desc) (s : State), (s.dev.rach r).stalls = [x] → x.post = some (ds, none) →
    (ds.noch = true ∨ s.dev.genCurrent ds.chan ds.gen = true) →
    (s.dev.advanceTo t0).postStalls r ds = false → lowestFree (s.dev.rach r).ents = some idx →
    Answers (.stalledPostAccept r t0) s (fun t => t.dev.lastOut
      = some (.posted r idx (if 255 ≤ s.dev.entGen r idx then 1 else s.dev.entGen r idx + 1) 0) ∧ (t.dev.rach r).stalls = []
      ∧ (∃ vals st eff, tget? (t.dev.rach r).ents idx = some (.task ds vals st eff)) ∧ t.ram = s.ram ∧ t.otp = s.otp)) ∧
  (∀ (r : Nat) (s : State), s.dev.active r = true → s.dev.raMode r = 1 → s.dev.rd Reg.RA_MODE_REQ_TEST (blk r ixRACHIS) = 1 →
    Answers (.raModeTest r) s (fun t => t.dev.rd Reg.RA_MODE_REQ_TEST (blk r ixRACHIS) = 0
      ∧ (s.dev.inService r = false → t.dev.raMode r = 2)
      ∧ (s.dev.inService r = true → t.dev.raMode r = 1
          ∧ t.dev.rd Reg.ERR_COUNT (blk r ixRACHIS) = min (s.dev.rd Reg.ERR_COUNT (blk r ixRACHIS) + 1) (2 ^ Reg.ERR_COUNT.width - 1))
      ∧ t.ram = s.ram)) ∧
  (∀ (r : Nat) (s : State), s.dev.active r = true → s.dev.raMode r = 1 →
    Answers (.raModeRecovery r) s (fun t => t.dev.raMode r = 3 ∧ t.ram = s.ram)) ∧
  (∀ (w r : Nat) (s : State), isHost w = true → s.dev.pageAnswers w (blk r ixRACHIS) = true →
    Answers (.raReqTest w r) s (fun t => t.dev.rd Reg.RA_MODE_REQ_TEST (blk r ixRACHIS) = 1 ∧ t.dev.body = s.dev.body
      ∧ s.dev.regsBut t.dev [Reg.RA_MODE_REQ_TEST.key (blk r ixRACHIS) 0]))

/-- R225, R226: a token for one slot, of a known kind and a current generation, is delivered to the first open slot with its
key: the task waits on while a required slot is unmatched, joins its delay list while its WAKE lies ahead (R232), and otherwise
its ready list (R228). One for which no slot waits is parked under its key for its hold time, or stalls (R235); one that is
malformed or stale is counted and changes nothing else. R240: the RA_TOKEN window sends the token that it holds. A parked token
leaves at the end of its hold and is counted. R232: a task that waits for room joins its delay list in the order of WAKE;
nothing else of it changes. The model's own readings here: log entry 83. -/
def Obligations.TokensReachTheirSlots : Prop :=
  (∀ (r tok deadline eff : Nat) (x : Nat × Nat) (rest : List (Nat × Nat)) (ds : Desc) (vals : List (Option (Nat × Nat))) (s : State),
    s.dev.active r = true → bitsOf tok 6 4 = 1 → kindKnown (tok % 64) = true →
    s.dev.genCurrent (keyChan (keyOf tok)) (keyGen (keyOf tok)) = true →
    (s.dev.rach r).openSlots (keyOf tok) = x :: rest → tget? (s.dev.rach r).ents x.1 = some (.task ds vals .waiting eff) →
    let vals' := ((List.range ds.nslot).map (fun i => vals.getD i none)).set x.2 (some (bitsOf tok 96 32, bitsOf tok 80 7))
    let armed := (List.range ds.nslot).all (fun i => bitOf ds.opt i || (vals'.getD i none).isSome)
    Answers (.tokenArrive r tok deadline) s (fun t =>
      (armed = false → tget? (t.dev.rach r).ents x.1 = some (.task ds vals' .waiting eff) ∧ t.dev.out = s.dev.out)
        ∧ (armed = true → s.dev.tbNs r < ds.wake → (s.dev.delayed r (delayList ds.cls) false).length < 1024 →
            tget? (t.dev.rach r).ents x.1 = some (.task ds vals' (.delayed false) eff) ∧ t.dev.out = s.dev.out)
        ∧ (armed = true → ds.wake ≤ s.dev.tbNs r → s.dev.raMode r = 1 → (s.dev.rach r).reqs = [] →
            tget? (t.dev.rach r).ents x.1 = some (.task ds vals' (.ready ((s.dev.rach r).ord + 1)) eff) ∧ t.dev.out = s.dev.out)
        ∧ t.ram = s.ram)) ∧
  (∀ (r tok deadline : Nat) (s : State), s.dev.active r = true → bitsOf tok 6 4 ≠ 0 → kindKnown (tok % 64) = true →
    s.dev.genCurrent (keyChan (keyOf tok)) (keyGen (keyOf tok)) = true → (s.dev.rach r).openSlots (keyOf tok) = [] →
    Answers (.tokenArrive r tok deadline) s (fun t =>
      (∀ idx, s.dev.parkStalls r (keyOf tok) = false → lowestFree (s.dev.rach r).ents = some idx →
        (∃ ord, tget? (t.dev.rach r).ents idx
            = some (.token (keyOf tok) (bitsOf tok 6 4) (bitsOf tok 96 32) (bitsOf tok 80 7)
                (s.dev.now + (if bitsOf tok 64 16 = 0 then s.dev.rd Reg.RA_CFG_TOKEN_HOLD (blk r ixRACHIS) else bitsOf tok 64 16) * 1000) ord))
        ∧ t.dev.out = s.dev.out)
      ∧ (s.dev.parkStalls r (keyOf tok) = true → (t.dev.rach r).ents = (s.dev.rach r).ents
          ∧ ∃ y, (t.dev.rach r).stalls = (s.dev.rach r).stalls ++ [y] ∧ y.tok = some (tok, bitsOf tok 6 4))
      ∧ t.ram = s.ram)) ∧
  (∀ (r tok deadline : Nat) (s : State), s.dev.active r = true →
    let bad := bitsOf tok 6 4 = 0 ∨ kindKnown (tok % 64) = false
    let b := blk r ixRACHIS
    Answers (.tokenArrive r tok deadline) s (fun t =>
      (bad → t.dev.rd Reg.RA_CNT_TOK_BAD b = min (s.dev.rd Reg.RA_CNT_TOK_BAD b + 1) (2 ^ Reg.RA_CNT_TOK_BAD.width - 1)
          ∧ t.dev.body = s.dev.body ∧ s.dev.regsBut t.dev [Reg.RA_CNT_TOK_BAD.key b 0])
        ∧ (¬ bad → s.dev.genCurrent (keyChan (keyOf tok)) (keyGen (keyOf tok)) = false →
            t.dev.rd Reg.RA_CNT_TOK_STALE_CH b = min (s.dev.rd Reg.RA_CNT_TOK_STALE_CH b + 1) (2 ^ Reg.RA_CNT_TOK_STALE_CH.width - 1)
              ∧ t.dev.body = s.dev.body ∧ s.dev.regsBut t.dev [Reg.RA_CNT_TOK_STALE_CH.key b 0]))) ∧
  (∀ (r w idx : Nat) (s : State), s.dev.holds w (blk r ixRACHIS) = true →
    let tok := (s.dev.raWords r Reg.RA_TOKEN 4).foldr (fun x acc => x + acc * 2 ^ 32) 0
    bitsOf tok 6 4 ≠ 0 → kindKnown (tok % 64) = true →
    s.dev.genCurrent (keyChan (keyOf tok)) (keyGen (keyOf tok)) = true → (s.dev.rach r).openSlots (keyOf tok) = [] →
    s.dev.parkStalls r (keyOf tok) = false → lowestFree (s.dev.rach r).ents = some idx →
    Answers (.raTokenSend r w) s (fun t => (∃ until_ ord, tget? (t.dev.rach r).ents idx
        = some (.token (keyOf tok) (bitsOf tok 6 4) (bitsOf tok 96 32) (bitsOf tok 80 7) until_ ord)) ∧ t.dev.out = s.dev.out)) ∧
  (∀ (r idx t0 k n v a u o : Nat) (s : State), tget? (s.dev.rach r).ents idx = some (.token k n v a u o) →
    u ≤ (s.dev.advanceTo t0).now → (s.dev.rach r).stalls = [] →
    Answers (.tokenHoldExpiry r idx t0) s (fun t => tget? (t.dev.rach r).ents idx = none
      ∧ t.dev.rd Reg.RA_CNT_TOK_ORPHAN (blk r ixRACHIS)
          = min (s.dev.rd Reg.RA_CNT_TOK_ORPHAN (blk r ixRACHIS) + 1) (2 ^ Reg.RA_CNT_TOK_ORPHAN.width - 1) ∧ t.dev.out = s.dev.out)) ∧
  (∀ (r list : Nat) (x : Nat × Nat) (ds : Desc) (vals : List (Option (Nat × Nat))) (st : TaskAt) (eff : Nat) (s : State),
    x ∈ (s.dev.delayed r list true).take (1024 - (s.dev.delayed r list false).length) →
    tget? (s.dev.rach r).ents x.1 = some (.task ds vals st eff) →
    Answers (.delayListJoin r list) s (fun t => tget? (t.dev.rach r).ents x.1 = some (.task ds vals (.delayed false) eff)
      ∧ t.dev.out = s.dev.out ∧ t.ram = s.ram))

/-- R229: in NORMAL a core that asks is given the task that R228 picks for it, with its tag, its slots' values and their
presence, and holds it; no other entry changes. Where none is ready its request waits. A control core's request that has waited
GW_TIMEOUT is answered empty and leaves the list. The model's own readings here: log entry 82. -/
def Obligations.CoresAreGivenWork : Prop :=
  (∀ (r cls inst t0 : Nat) (job : JobData) (s : State), cls < 7 → (s.dev.advanceTo t0).instUp r cls inst = true →
    s.dev.busyInst r cls inst = false → (s.dev.rach r).reqs = [] → s.dev.raMode r = 1 → s.dev.pick r cls inst = none →
    Answers (.getWork r cls inst t0 job) s (fun t => (t.dev.rach r).reqs = [⟨cls, inst, (s.dev.advanceTo t0).now, s.loadJob r job⟩]
      ∧ (t.dev.rach r).ents = (s.dev.rach r).ents ∧ t.dev.out = s.dev.out ∧ t.dev.regs = s.dev.regs ∧ t.ram = s.ram)) ∧
  (∀ (r cls inst t0 idx : Nat) (job : JobData) (ds : Desc) (vals : List (Option (Nat × Nat))) (st : TaskAt) (eff : Nat) (s : State),
    cls < 7 → (s.dev.advanceTo t0).instUp r cls inst = true → s.dev.busyInst r cls inst = false → (s.dev.rach r).reqs = [] →
    s.dev.raMode r = 1 → s.dev.pick r cls inst = some idx → tget? (s.dev.rach r).ents idx = some (.task ds vals st eff) →
    Answers (.getWork r cls inst t0 job) s (fun t => (t.dev.rach r).reqs = []
      ∧ tget? (t.dev.rach r).ents idx = some (.task ds vals (.held inst none) eff)
      ∧ Out.work r inst idx (s.dev.entGen r idx) ds.word0 ds.ctx ((List.range 4).map (fun i => (vals.getD i none).getD (0, 0)))
          ((List.range 4).foldl (fun a i => a + b2n ((vals.getD i none).isSome) * 2 ^ i) 0) ∈ s.dev.since t.dev
      ∧ (∀ j, j ≠ idx → tget? (t.dev.rach r).ents j = tget? (s.dev.rach r).ents j) ∧ t.ram = s.ram)) ∧
  (∀ (r inst t0 : Nat) (q : Req) (s : State), q ∈ (s.dev.rach r).reqs → q.cls = 5 → q.inst = inst →
    q.since + s.dev.rd Reg.RA_PREEMPT_GW_TIMEOUT (blk r ixRACHIS) * 1000 ≤ (s.dev.advanceTo t0).now →
    Answers (.getWorkTimeout r inst t0) s (fun t => t.dev.out = s.dev.out ++ [.noWork r inst]
      ∧ (∀ y, y ∈ (t.dev.rach r).reqs ↔ y ∈ (s.dev.rach r).reqs ∧ ¬ (y.cls = 5 ∧ y.inst = inst)) ∧ t.dev.regs = s.dev.regs))

/-- R222, R230: OK and FAILED put a held task's entry into quarantine; FAILED is reported on the block's page with 0x55 and the
tag. R16, R230: a REPOST with slack makes the task ready again with its slots; without it a coding job goes on one ladder step
lower, and another ends FAILED. R239: a task that yields is ready at the head of its deadline order and its core holds the task
it was interrupted for; without an interrupt YIELD changes nothing. R222: a stale tag is only counted, and the end of quarantine
frees the entry. The model's own readings here: log entry 81. -/
def Obligations.CompletionsEndTasks : Prop :=
  (∀ (r idx gen inst eff : Nat) (intr : Option Nat) (ds : Desc) (vals : List (Option (Nat × Nat))) (s : State), s.dev.active r = true →
    s.dev.entGen r idx = gen → tget? (s.dev.rach r).ents idx = some (.task ds vals (.held inst intr) eff) → inst < classSize ds.cls →
    let q : Entry := .quar (s.dev.now + s.dev.taskQuar ds)
    let page := blk r (classBlock ds.cls inst)
    Answers (.doneOk r idx gen) s (fun t => tget? (t.dev.rach r).ents idx = some q ∧ t.ram = s.ram) ∧
    Answers (.doneFailed r idx gen) s (fun t => tget? (t.dev.rach r).ents idx = some q
      ∧ t.dev.rd Reg.ERR_CODE_CODE page = 0x55 ∧ t.dev.rd Reg.ERR_INFO page = (idx + gen * 4096) % 2 ^ 32
      ∧ bitOf (t.dev.rd Reg.EV_RAW page) 31 = true ∧ t.ram = s.ram) ∧
    (s.dev.hasSlack r ds = true → Answers (.doneRepost r idx gen) s (fun t => t.ram = s.ram ∧
      ∃ st, tget? (t.dev.rach r).ents idx = some (.task ds vals st eff) ∧ ((∃ n, st = .ready n) ∨ ∃ i, st = .held i none))) ∧
    (∀ j, s.dev.hasSlack r ds = false → ds.cls = 0 → tget? s.dev.ces (ceKey r inst) = some j → j.task = idx →
      Answers (.doneRepost r idx gen) s (fun t => tget? t.dev.ces (ceKey r inst) = some { j with level := min 5 (j.level + 1) }
        ∧ t.dev.ras = s.dev.ras ∧ t.dev.regs = s.dev.regs ∧ t.ram = s.ram)) ∧
    (s.dev.hasSlack r ds = false → ds.cls ≠ 0 → Answers (.doneRepost r idx gen) s (fun t => tget? (t.dev.rach r).ents idx = some q
      ∧ t.dev.rd Reg.ERR_CODE_CODE page = 0x55 ∧ t.ram = s.ram)) ∧
    (∀ b y vy m ey, intr = some b → tget? (s.dev.rach r).ents b = some (.task y vy (.ready m) ey) → fwClass y.cls = true →
      Answers (.doneYield r idx gen) s (fun t => tget? (t.dev.rach r).ents idx = some (.task ds vals (.ready 0) eff)
        ∧ tget? (t.dev.rach r).ents b = some (.task y vy (.held inst none) ey) ∧ t.ram = s.ram)) ∧
    (intr = none → Answers (.doneYield r idx gen) s (fun t => t = s))) ∧
  (∀ (r idx gen : Nat) (i : Instr) (s : State), s.dev.active r = true → s.dev.entGen r idx ≠ gen →
    i ∈ [Instr.doneOk r idx gen, .doneFailed r idx gen, .doneRepost r idx gen, .doneYield r idx gen] →
    Answers i s (fun t => t.dev.body = s.dev.body ∧ s.dev.regsBut t.dev [Reg.RA_CNT_TAG_STALE.key (blk r ixRACHIS) 0]
      ∧ t.dev.rd Reg.RA_CNT_TAG_STALE (blk r ixRACHIS)
          = min (s.dev.rd Reg.RA_CNT_TAG_STALE (blk r ixRACHIS) + 1) (2 ^ Reg.RA_CNT_TAG_STALE.width - 1))) ∧
  (∀ (r idx t0 u : Nat) (s : State), tget? (s.dev.rach r).ents idx = some (.quar u) → u ≤ (s.dev.advanceTo t0).now →
    (s.dev.rach r).stalls = [] →
    Answers (.taskQuarantineEnd r idx t0) s (fun t => tget? (t.dev.rach r).ents idx = none ∧ t.dev.out = s.dev.out ∧ t.ram = s.ram))

/-- R249 to R252: an accepted CREATE makes the flow ACTIVE, or SUSPENDED while its port is down, under its next generation; an
accepted MODIFY or DELETE leaves the flow's state and is kept with its instant; each posts 0, and CREATE the flow's ID and
generation. A refused command posts its code, changes no flow and no register but the result's. The end of QUARANTINE frees a
flow, which keeps its generation. The model's own readings here: log entry 86. -/
def Obligations.FlowCommandsAnswer : Prop :=
  (∀ (w r f gen : Nat) (s : State), r < 8 → f < 2048 → gen < 256 → s.dev.holds w (blk r ixEGRESS) = true →
    let e := (s.dev.restartLease (blk r ixEGRESS)).egressNow r
    let vals := e.takeRows (Reg.rows_flow ++ Reg.rows_shaper) (wFLOW r f)
    let v : Row → Nat := fun row => tget vals (row.key (wFLOW r f) 0) row.reset
    (e.flCheck r 1 f gen v = 0 → Answers (.flCreate w r f gen) s (fun t =>
      t.dev.rd Reg.FL_RESULT_CODE (blk r ixEGRESS) = 0 ∧ t.dev.rd Reg.FL_RESULT_FLOW (blk r ixEGRESS) = f
        ∧ t.dev.rd Reg.FL_RESULT_DONE (blk r ixEGRESS) = 1
        ∧ t.dev.flF r f Reg.FL_STATE_GEN = (if e.flF r f Reg.FL_STATE_GEN = 255 then 1 else e.flF r f Reg.FL_STATE_GEN + 1) % 256
        ∧ t.dev.rd Reg.FL_RESULT_GEN (blk r ixEGRESS) = t.dev.flF r f Reg.FL_STATE_GEN
        ∧ t.dev.flF r f Reg.FL_STATE_STATE = (if t.dev.pUp r (t.dev.flF r f Reg.FL_CTRL_PORT) = true then 1 else 2) ∧ t.ram = s.ram)) ∧
    (e.flCheck r 2 f gen v = 0 → Answers (.flModify w r f gen) s (fun t =>
      t.dev.rd Reg.FL_RESULT_CODE (blk r ixEGRESS) = 0 ∧ (t.dev.flow r f).pend = some (e.now, vals)
        ∧ t.dev.flF r f Reg.FL_STATE_STATE = e.flF r f Reg.FL_STATE_STATE ∧ t.ram = s.ram)) ∧
    (e.flCheck r 3 f gen v = 0 → Answers (.flDelete w r f gen) s (fun t =>
      t.dev.rd Reg.FL_RESULT_CODE (blk r ixEGRESS) = 0 ∧ (t.dev.flow r f).del = some e.now
        ∧ t.dev.flF r f Reg.FL_STATE_STATE = e.flF r f Reg.FL_STATE_STATE ∧ t.ram = s.ram)) ∧
    (∀ (op : Nat) (i : Instr), (op, i) ∈ [(1, Instr.flCreate w r f gen), (2, .flModify w r f gen), (3, .flDelete w r f gen)] →
      e.flCheck r op f gen v ≠ 0 → Answers i s (fun t =>
        t.dev.rd Reg.FL_RESULT_CODE (blk r ixEGRESS) = e.flCheck r op f gen v ∧ t.dev.flows = e.flows ∧ t.ram = s.ram
          ∧ e.regsBut t.dev [Reg.FL_RESULT_CODE.key (blk r ixEGRESS) 0, Reg.FL_RESULT_FLOW.key (blk r ixEGRESS) 0,
              Reg.FL_RESULT_GEN.key (blk r ixEGRESS) 0, Reg.FL_RESULT_DONE.key (blk r ixEGRESS) 0]))) ∧
  (∀ (r f t0 : Nat) (s : State),
    let e := (s.dev.advanceTo t0).egressNow r
    e.flF r f Reg.FL_STATE_STATE = 3 → (e.flow r f).quarEnd ≤ e.now →
    Answers (.flowQuarantineEnd r f t0) s (fun t => t.dev.flF r f Reg.FL_STATE_STATE = 0 ∧ tget? t.dev.flows (slotKey r f) = none
      ∧ t.dev.flF r f Reg.FL_STATE_GEN = e.flF r f Reg.FL_STATE_GEN ∧ t.ram = s.ram))

/-- R254, R255, R258: the first packet of a real-time slice leaves at its instant on an idle port, and an idle port sends what
the tree chooses: the packet leaves with its header, is off its queue (a flow that goes to QUARANTINE by it has none), is
charged to its flow, its service and its port, and keeps the port busy for its wire time; the first one of a tick slice sends
the DEPARTED token, and that of slice 0 ends STARTING. R256: the late packets of a flow go, each shown and counted. R246: a
rendition without a slice for 35 ms sends a packet with a PCR, which takes the next sequence number; the packets that have not
departed follow it. The model's own readings here: log entry 89. -/
def Obligations.PacketsLeave : Prop :=
  (∀ (r p f t0 : Nat) (q : QPkt) (rest : List QPkt) (i : Instr) (s : State), r < 8 → p < 16 → f < 2048 →
    let e := (s.dev.advanceTo t0).egressNow r
    let n := e.wireOf r f q
    let sv := e.flF r f Reg.FL_CTRL_SERVICE
    let c := e.flF r f Reg.FL_CTRL_CHANNEL
    (e.flow r f).queue = q :: rest → (e.flow r f).port = p → sv < 256 → e.portFree r p = true →
    ((i = .packetDepart r f t0 ∧ e.eligiblePkt r p f = some q ∧ e.isRt r f = true ∧ q.first = true)
      ∨ (i = .portIdle r p t0 ∧ e.portPick r p = some f)) →
    Answers i s (fun t =>
      (e.since t.dev).head? = some (.packet r f (e.flF r f Reg.FL_STATE_GEN) p q.seq q.ts q.bytes q.marker n (e.hdrOf r f q) q.du q.body)
        ∧ (t.dev.flF r f Reg.FL_STATE_STATE ≠ 3 → (t.dev.flow r f).queue = rest)
        ∧ (t.dev.flow r f).sh = (e.flow r f).sh.charge n (e.rd Reg.SH_WEIGHT (wFLOW r f))
        ∧ t.dev.node (svNode r sv) = (e.node (svNode r sv)).charge n (e.rd Reg.SH_WEIGHT (wSV r sv))
        ∧ t.dev.node (ptNode r p) = (e.node (ptNode r p)).charge n (e.rd Reg.SH_WEIGHT (wPT r p))
        ∧ tget? t.dev.busy (r * 16 + p) = some (e.now + ceilDiv (n * 8) (max 1 (e.lineGb r p)), f)
        ∧ (e.chState c = 1 → q.du = 0 → q.first = true → t.dev.chState c = 2)
        ∧ (∀ u, q.first = true →
            (e.rend c (e.flF r f Reg.FL_CTRL_RENDITION)).dus.find? (fun u => u.i == q.du && u.dep == q.dep && !u.left) = some u →
            e.tokenSent t.dev (e.lead c) 0x0B c (e.flF r f Reg.FL_CTRL_RENDITION) u.j u.k)
        ∧ t.ram = s.ram)) ∧
  (∀ (r f t0 : Nat) (s : State), r < 8 → f < 2048 →
    let e := s.dev.advanceTo t0
    let x := e.flow r f
    let late (q : QPkt) : Bool :=
      if e.isRt r f then decide (e.pktAt r f q + e.flowTs r f 2 ≤ e.now) else decide (q.enq + 1000000000 < e.now)
    e.flF r f Reg.FL_STATE_STATE = 1 → x.del = none → x.pend = none → x.back = none → x.resume = 0 →
    (∀ q, q ∈ x.queue → q.gen = e.flF r f Reg.FL_STATE_GEN) → e.flF r f Reg.FL_STATE_DROP < 2 ^ Reg.FL_STATE_DROP.width →
    Answers (.egressLateDiscard r f t0) s (fun t =>
      (t.dev.flF r f Reg.FL_STATE_STATE ≠ 3 → (t.dev.flow r f).queue = x.queue.filter (fun q => !(late q)))
        ∧ (∀ q, q ∈ x.queue → late q = true → .drop r f q.seq ∈ e.since t.dev)
        ∧ t.dev.flF r f Reg.FL_STATE_DROP
            = min (e.flF r f Reg.FL_STATE_DROP + (x.queue.filter late).length) (2 ^ Reg.FL_STATE_DROP.width - 1) ∧ t.ram = s.ram)) ∧
  (∀ (c rd t0 : Nat) (s : State),
    let r := s.dev.lead c
    let e := (s.dev.advanceTo t0).egressNow r
    let x := e.rend c rd
    e.live c = true → e.lead c = r → (s.dev.advanceTo t0).lead c = r → (tget? e.rends (c * 8 + rd)).isSome = true →
    cfR (e.chan c).cfg rd Reg.OUT_CTRL_ENCAP ≠ 0 → x.pcrNs ≠ 0 →
    (x.dus.filter (fun u => u.pkts.isSome && decide (u.dep ≤ e.now))).foldl (fun a u => max a u.dep) x.pcrNs + 35000000 ≤ e.now →
    Answers (.pcrOnlyPacket c rd t0) s (fun t => t.dev.out = e.out ++ [.pcr c rd (pcrAt e.now)]
      ∧ t.dev.rd Reg.OS_SEQ_NEXT_SEQ (wOS c rd) = (e.rd Reg.OS_SEQ_NEXT_SEQ (wOS c rd) + 1) % 2 ^ Reg.OS_SEQ_NEXT_SEQ.width
      ∧ t.dev.rd Reg.OS_PKTS (wOS c rd) = (e.rd Reg.OS_PKTS (wOS c rd) + 1) % 2 ^ Reg.OS_PKTS.width
      ∧ e.regsBut t.dev [Reg.OS_SEQ_NEXT_SEQ.key (wOS c rd) 0, Reg.OS_PKTS.key (wOS c rd) 0]
      ∧ (t.dev.rend c rd).pcrNs = e.now
      ∧ (t.dev.rend c rd).dus = x.dus.map (fun u =>
          if u.pkts.isSome && decide (e.now < u.dep) then { u with seq0 := (u.seq0 + 1) % 65536 } else u)
      ∧ (∀ f, (e.liveFlows r).filter (fun f => t.dev.flowMine c rd r f) = [f] →
          ((t.dev.flow r f).queue.filter (fun q => decide (e.now < q.dep)))
              = ((e.flow r f).queue.filter (fun q => decide (e.now < q.dep))).map (fun q => { q with seq := (q.seq + 1) % 65536 })
            ∧ ((t.dev.flow r f).queue.filter (fun q => decide (q.dep ≤ e.now))).length
                = ((e.flow r f).queue.filter (fun q => decide (q.dep ≤ e.now))).length + 1)
      ∧ t.ram = s.ram))

/-- R260, R261: of the packets that belong to a policer's path, one is RED without peak tokens, YELLOW without committed ones,
GREEN otherwise; it takes its tokens, is counted, and RED is dropped; another packet changes nothing. R257, R261: a policer's
rates and bursts take effect at once, and a smaller burst cuts the tokens. R328: a sound frame of 64 to 9,216 bytes reaches the
region, a PAUSE frame, a bad one and one of another length do not; firmware answers for the port's addresses. The model's own
readings here: log entry 92. -/
def Obligations.PolicersMeter : Prop :=
  (∀ (r e p bytes pct a b : Nat) (h : StreamHdr) (s : State), tget? s.dev.pols (r * 256 + e) = some (a, b) →
    s.dev.policed e p h = true →
    (b < bytes * 65536 → Answers (.policePacket r e ⟨p, h, bytes⟩ pct) s (fun t =>
      t.dev.rd Reg.PL_RED (wPL r e) = min (s.dev.rd Reg.PL_RED (wPL r e) + 1) (2 ^ Reg.PL_RED.width - 1)
        ∧ .police r e 2 true ∈ t.dev.out ∧ t.dev.pols = s.dev.pols)) ∧
    (bytes * 65536 ≤ b → a < bytes * 65536 → Answers (.policePacket r e ⟨p, h, bytes⟩ pct) s (fun t =>
      t.dev.rd Reg.PL_YELLOW (wPL r e) = min (s.dev.rd Reg.PL_YELLOW (wPL r e) + 1) (2 ^ Reg.PL_YELLOW.width - 1)
        ∧ t.dev.out = s.dev.out ++ [.police r e 1 (s.dev.rd Reg.PL_CTRL_YELLOW_DROP (wPL r e) == 1 && decide (75 < pct))]
        ∧ tget? t.dev.pols (r * 256 + e) = some (a, b - bytes * 65536) ∧ s.dev.regsBut t.dev [Reg.PL_YELLOW.key (wPL r e) 0])) ∧
    (bytes * 65536 ≤ b → bytes * 65536 ≤ a → Answers (.policePacket r e ⟨p, h, bytes⟩ pct) s (fun t =>
      t.dev.rd Reg.PL_GREEN (wPL r e) = min (s.dev.rd Reg.PL_GREEN (wPL r e) + 1) (2 ^ Reg.PL_GREEN.width - 1)
        ∧ t.dev.out = s.dev.out ++ [.police r e 0 false]
        ∧ tget? t.dev.pols (r * 256 + e) = some (a - bytes * 65536, b - bytes * 65536)
        ∧ s.dev.regsBut t.dev [Reg.PL_GREEN.key (wPL r e) 0]))) ∧
  (∀ (r e p bytes pct : Nat) (h : StreamHdr) (s : State), s.dev.policed e p h = false →
    Answers (.policePacket r e ⟨p, h, bytes⟩ pct) s (fun t => t = s)) ∧
  (∀ (w r e off v : Nat) (row : Row) (s : State), r < 8 → e < 256 → s.dev.holds w (blk r ixPOLICER) = true →
    (off, row) ∈ [(0, Reg.PL_CIR), (4, Reg.PL_PIR), (8, Reg.PL_CBS), (0xC, Reg.PL_PBS)] →
    Answers (.policerRateWrite w r e off v) s (fun t => t.dev.rd row (wPL r e) = v % 2 ^ row.width
      ∧ s.dev.regsBut t.dev [row.key (wPL r e) 0] ∧ t.dev.flows = s.dev.flows
      ∧ ∀ x, tget? s.dev.pols (r * 256 + e) = some x →
          tget? t.dev.pols (r * 256 + e) = some (if off < 8 then x
            else (min x.1 (t.dev.rd Reg.PL_CBS (wPL r e) * 65536), min x.2 (t.dev.rd Reg.PL_PBS (wPL r e) * 65536))))) ∧
  (∀ (g : Nat) (fr : EthFrame) (s : State), s.dev.pUp (g / 16) (g % 16) = true →
    (fr.fcsOk = true → fr.pause = false → 64 ≤ fr.bytes → fr.bytes ≤ 9216 →
      Answers (.ethFrameRx g fr) s (fun t => t.dev.out = s.dev.out ++ [.ethIn g fr.bytes] ∧ t.dev.regs = s.dev.regs)) ∧
    ((fr.fcsOk = false ∨ fr.pause = true ∨ fr.bytes < 64 ∨ 9216 < fr.bytes) →
      Answers (.ethFrameRx g fr) s (fun t => t = s))) ∧
  (∀ (g : Nat) (s : State), s.dev.pUp (g / 16) (g % 16) = true → s.dev.active (g / 16) = true →
    Answers (.arpRequest g (s.dev.rd Reg.PT_IPV4 (wPT (g / 16) (g % 16)))) s (fun t =>
      t.dev.out = s.dev.out ++ [.macReply g (s.dev.portMac g)] ∧ t.dev.regs = s.dev.regs)) ∧
  (∀ (g : Nat) (s : State), s.dev.pUp (g / 16) (g % 16) = true → s.dev.active (g / 16) = true →
    Answers (.neighborSolicitation g (s.dev.rd Reg.PT_IPV6 (wPT (g / 16) (g % 16)) 0
        + s.dev.rd Reg.PT_IPV6 (wPT (g / 16) (g % 16)) 1 * 2 ^ 32 + s.dev.rd Reg.PT_IPV6 (wPT (g / 16) (g % 16)) 2 * 2 ^ 64
        + s.dev.rd Reg.PT_IPV6 (wPT (g / 16) (g % 16)) 3 * 2 ^ 96)) s (fun t =>
      t.dev.out = s.dev.out ++ [.macReply g (s.dev.portMac g)] ∧ t.dev.regs = s.dev.regs))

/-- R262, R263: a sample of the one flow of a region is taken; the last of an epoch writes the flow's block of 128 bytes, which
counts the flow's sequence on by 2, and no other byte. A change of OBS_CTRL.EN ends the epochs in progress. The model's own
readings here: log entry 88. -/
def Obligations.QueuesAreObserved : Prop :=
  (∀ (r t0 f : Nat) (s : State),
    let e := (s.dev.advanceTo t0).egressNow r
    let pg := blk r ixEGRESS
    e.rd Reg.OBS_CTRL_EN pg = 1 → e.now % (max 1 (e.rd Reg.OBS_CTRL_PERIOD_US pg) * 1000) = 0 → e.active r = true →
    e.liveFlows r = [f] →
    ((e.flow r f).obs.n + 1 < e.rd Reg.OBS_EPOCH_SAMPLES pg → Answers (.obsSample r t0) s (fun t =>
      (t.dev.flow r f).obs.n = (e.flow r f).obs.n + 1 ∧ (t.dev.flow r f).queue = (e.flow r f).queue ∧ t.ram = s.ram
        ∧ t.dev.regs = e.regs)) ∧
    (e.rd Reg.OBS_EPOCH_SAMPLES pg ≤ (e.flow r f).obs.n + 1 → (e.flow r f).obs.dHist.length = 16 →
      (e.flow r f).obs.sHist.length = 16 → Answers (.obsSample r t0) s (fun t =>
      let q := (e.flow r f).queue
      let soj : Nat := match q.head? with
        | none => 0
        | some x => e.now - max x.enq (if e.isRt r f then e.pktAt r f x else 0)
      let du := e.rd Reg.OBS_CTRL_DEPTH_UNIT pg
      let su := e.rd Reg.OBS_CTRL_DELAY_UNIT pg
      let block := byteList (obsBlock ((e.flow r f).obs.add (sumL (q.map (e.wireOf r f))) soj du su)
        (((e.flow r f).obsSeq + 2) % 2 ^ 32) f (e.flF r f Reg.FL_STATE_GEN) (du + 4 * su) e.now)
      let at_ := e.rdPair Reg.OBS_BASE_LO Reg.OBS_BASE_HI pg + f * 0x80
      (t.dev.flow r f).obs = Obs.init ∧ (t.dev.flow r f).obsSeq = ((e.flow r f).obsSeq + 2) % 2 ^ 32
        ∧ (∀ k, (∀ i, i < 128 → k ≠ ramKey r (at_ + i)) → ramGet t.ram k = ramGet s.ram k)
        ∧ (∀ i, i < 128 → ramGet t.ram (ramKey r (at_ + i)) = if (e.portFor r (at_ + i)).isSome then block.getD i 0
            else ramGet s.ram (ramKey r (at_ + i)))))) ∧
  (∀ (w r v : Nat) (s : State), r < 8 → s.dev.holds w (blk r ixEGRESS) = true →
    Answers (.obsConfigWrite w r 0x10C v) s (fun t => t.dev.rd Reg.OBS_CTRL_EN (blk r ixEGRESS) = v % 2
      ∧ t.dev.rd Reg.OBS_CTRL_PERIOD_US (blk r ixEGRESS) = bitsOf v 16 16
      ∧ s.dev.regsBut t.dev [Reg.OBS_CTRL_EN.key (blk r ixEGRESS) 0, Reg.OBS_CTRL_DEPTH_UNIT.key (blk r ixEGRESS) 0,
          Reg.OBS_CTRL_DELAY_UNIT.key (blk r ixEGRESS) 0, Reg.OBS_CTRL_PERIOD_US.key (blk r ixEGRESS) 0]
      ∧ (s.dev.rd Reg.OBS_CTRL_EN (blk r ixEGRESS) ≠ v % 2 → ∀ f, f ∈ s.dev.liveFlows r → (t.dev.flow r f).obs = Obs.init)
      ∧ ∀ f, (t.dev.flow r f).queue = (s.dev.flow r f).queue) ∧
    Answers (.obsConfigWrite w r 0x110 v) s (fun t =>
      t.dev.rd Reg.OBS_EPOCH_SAMPLES (blk r ixEGRESS) = v % 2 ^ Reg.OBS_EPOCH_SAMPLES.width
        ∧ s.dev.regsBut t.dev [Reg.OBS_EPOCH_SAMPLES.key (blk r ixEGRESS) 0]))

/-- R393, R399, R57, R451: a write of a command word is the command that its table gives it; R392, R395, R398: a plain field
takes the value under the lock, RW at once and RWS in its shadow; LOCK_LEASE and EV_MASK take theirs; a misaligned address is
refused. The model's own readings here: log entry 10. -/
def Obligations.RegisterWritesAct : Prop :=
  (∀ (w page v : Nat) (s : State), isPage page = true → (isHost w = true → s.dev.portUp (w - 1) = true) → v < 2 ^ 32 →
    exec (.registerWrite w (page + 0x38) 0x100) s = exec (.lockAcquire w page) s
      ∧ exec (.registerWrite w (page + 0x38) 0x200) s = exec (.lockRelease w page) s
      ∧ exec (.registerWrite w (page + 0x38) 0x400) s = exec (.lockRecover w page) s
      ∧ exec (.registerWrite w (page + 0x10) v) s = exec (.evRawClear page ⟨w, v⟩) s
      ∧ exec (.registerWrite w (page + 0x1C) v) s = exec (.evInject page ⟨w, v⟩) s) ∧
  (∀ (w tag c gen r : Nat) (s : State), (isHost w = true → s.dev.portUp (w - 1) = true) → tag < 256 → c < 128 → gen < 256 → r < 8 →
    exec (.registerWrite w (pSHM + 0x140) (1 + tag * 256 + c * 65536 + gen * 16777216)) s = exec (.admCreate w tag c gen) s
      ∧ exec (.registerWrite w (blk r ixRGN + 0x108) 3) s = exec (.pwrPark w r) s) ∧
  (∀ (w page ms : Nat) (s : State), s.dev.holds w page = true → 0 < ms → ms < 65536 →
    Answers (.registerWrite w (page + 0x3C) ms) s (fun t => t.dev.rd Reg.LOCK_LEASE_LEASE_MS page = ms
      ∧ tget? t.dev.lease page = some (s.dev.now + ms * 1000000) ∧ s.dev.regsBut t.dev [Reg.LOCK_LEASE_LEASE_MS.key page 0])) ∧
  (∀ (w page v : Nat) (s : State), isPage page = true → s.dev.pageAnswers w page = true →
    Answers (.registerWrite w (page + 0x14) v) s (fun t => t.dev.rd Reg.EV_MASK page = v % 2 ^ 32 ∧ t.dev.body = s.dev.body)) ∧
  (∀ (w v : Nat) (s : State), s.dev.holds w pSHM = true →
    Answers (.registerWrite w (pSHM + 0x144) v) s (fun t => t.dev.rd Reg.ADM_PLACE_REGION_MASK pSHM = v % 256
      ∧ t.dev.rd Reg.ADM_PLACE_PRIO pSHM = bitsOf v 12 4 ∧ t.dev.body = s.dev.body
      ∧ s.dev.regsBut t.dev [Reg.ADM_PLACE_REGION_MASK.key pSHM 0, Reg.ADM_PLACE_SPAN.key pSHM 0, Reg.ADM_PLACE_PREEMPTIBLE.key pSHM 0,
          Reg.ADM_PLACE_PROTECT.key pSHM 0, Reg.ADM_PLACE_PRIO.key pSHM 0])) ∧
  (∀ (w r p v : Nat) (s : State), r < 8 → p < 4 → s.dev.holds w (mpPage r p) = true →
    Answers (.registerWrite w (mpPage r p + 0x110) v) s (fun t => t.dev.rdS Reg.MP_WQ_LO (mpPage r p) = bitsOf v 8 7
      ∧ t.dev.regs = s.dev.regs)) ∧
  (∀ (w addr v : Nat) (s : State), (isHost w = true → s.dev.portUp (w - 1) = true) → addr % 4 ≠ 0 →
    Answers (.registerWrite w addr v) s (fun t => t.dev.rd Reg.ERR_CODE_CODE pSHM = cAccessInvalid ∧ t.dev.body = s.dev.body))

/-- R57, R58: each of the four admission commands is held with its fields while nothing is held, and BUSY becomes 1; one made
while BUSY is 1 is ignored and counted. R57 to R62, R78, R82: the held command is answered: a refusal and a CHECK change no
channel; an accepted CREATE places the channel, which is STARTING under its next generation; an accepted MODIFY waits for its
frame; a STOP of a live channel ends it or sets it STOPPING, with its reason. BUSY ends, DONE is 1, and the result carries the
tag. The model's own readings here: log entry 37. -/
def Obligations.AdmissionAnswers : Prop :=
  (∀ (w tag c gen op : Nat) (i : Instr) (s : State),
    (op, i) ∈ [(1, Instr.admCreate w tag c gen), (2, .admModify w tag c gen), (3, .admStop w tag c gen), (4, .admCheck w tag c gen)] →
    s.dev.holds w pSHM = true → s.dev.rd Reg.ADM_STATUS_BUSY pSHM = 0 → tag < 256 → c < 128 → gen < 256 →
    Answers i s (fun t => (∃ q, t.dev.adm = some (q, s.dev.now) ∧ q.op = op ∧ q.tag = tag ∧ q.chan = c ∧ q.gen = gen
        ∧ q.mask = s.dev.rd Reg.ADM_PLACE_REGION_MASK pSHM)
      ∧ t.dev.rd Reg.ADM_STATUS_BUSY pSHM = 1 ∧ t.dev.chans = s.dev.chans
      ∧ s.dev.regsBut t.dev [Reg.ADM_STATUS_BUSY.key pSHM 0])) ∧
  (∀ (w tag c gen : Nat) (i : Instr) (s : State),
    i ∈ [Instr.admCreate w tag c gen, .admModify w tag c gen, .admStop w tag c gen, .admCheck w tag c gen] →
    s.dev.holds w pSHM = true → s.dev.rd Reg.ADM_STATUS_BUSY pSHM = 1 →
    Answers i s (fun t => t.dev.body = s.dev.body ∧ s.dev.regsBut t.dev [Reg.ERR_COUNT.key pSHM 0])) ∧
  (∀ (t0 at_ : Nat) (nv : List NvIn) (q : AdmReq) (s : State),
    let e := s.dev.advanceTo t0
    let o := e.evaluate q nv
    e.adm = some (q, at_) → e.rd Reg.ADM_STATUS_INTERNAL pSHM = 0 → e.sys.admOpen = true →
    e.pgs.any (fun x => x.2.declared.isSome) = false → q.chan < 128 →
    Answers (.admResultPost t0 nv) s (fun t => t.dev.adm = none ∧ t.dev.rd Reg.ADM_STATUS_BUSY pSHM = 0
      ∧ t.dev.rd Reg.ADM_STATUS_DONE pSHM = 1 ∧ t.dev.rd Reg.ADM_RESULT_TAG pSHM = q.tag % 256
      ∧ t.dev.rd Reg.ADM_RESULT_REASON pSHM = o.reason % 256
      ∧ (o.reason ≠ 0 ∨ q.op = 4 → t.dev.chans = e.chans ∧ t.dev.flows = e.flows ∧ t.dev.rends = e.rends
          ∧ t.dev.strms = e.strms ∧ ∀ c, t.dev.chState c = e.chState c)
      ∧ (o.reason = 0 → q.op = 1 → t.dev.chState q.chan = 1
          ∧ t.dev.chGen q.chan = (if e.chGen q.chan = 255 then 1 else e.chGen q.chan + 1) % 256
          ∧ t.dev.rd Reg.ADM_RESULT_GEN pSHM = t.dev.chGen q.chan
          ∧ (t.dev.chan q.chan).cfg = q.cfg ∧ (t.dev.chan q.chan).regions = o.placed)
      ∧ (o.reason = 0 → q.op = 2 → (t.dev.chan q.chan).next = some q.cfg ∧ (t.dev.chan q.chan).cfg = (e.chan q.chan).cfg
          ∧ (t.dev.chan q.chan).nextPlace = (q.prio, q.preempt) ∧ ∀ c, t.dev.chState c = e.chState c)
      ∧ (o.reason = 0 → q.op = 3 → e.chState q.chan = 1 ∨ e.chState q.chan = 2 →
          (t.dev.chState q.chan = 3 ∨ t.dev.chState q.chan = 4) ∧ t.dev.rd Reg.CH_STATE_STOP_REASON (wCHSTAT q.chan) = 0x20)
      ∧ t.ram = s.ram ∧ t.otp = s.otp))

/-- R62, R78, R79, R87, R119: at its frame, and not before, a waiting descriptor becomes the channel's, which keeps its state,
its generation and its regions; a STARTING channel fixes its phase at its start frame; at the end of QUARANTINE a channel is
FREE and keeps its generation, and no other channel changes. The model's own readings here: log entry 47. -/
def Obligations.ChannelsChangeState : Prop :=
  (∀ (c t0 : Nat) (g : Tbl Nat) (s : State), c < 128 →
    let e := s.dev.advanceTo t0
    let x := e.chan c
    x.next = some g → e.live c = true → e.tickAt c x.nextK ≤ (e.nowTu : Int) →
    Answers (.modifyApply c t0) s (fun t => (t.dev.chan c).cfg = g ∧ (t.dev.chan c).next = none
      ∧ (t.dev.chan c).prev = x.prev ++ [(x.nextK, x.cfg)] ∧ (t.dev.chan c).regions = x.regions ∧ t.dev.chState c = e.chState c
      ∧ t.dev.chGen c = e.chGen c ∧ t.dev.rd Reg.CH_STATE_PRIO (wCHSTAT c) = x.nextPlace.1 % 2 ^ Reg.CH_STATE_PRIO.width
      ∧ t.dev.rd Reg.CH_CLU_CLU (wCHSTAT c) = chClu g % 2 ^ Reg.CH_CLU_CLU.width ∧ t.ram = s.ram)) ∧
  (∀ (c t0 : Nat) (s : State),
    let e := s.dev.advanceTo t0
    e.chState c = 1 → e.tickAt c (e.chan c).startK ≤ (e.nowTu : Int) →
    Answers (.channelStart c t0) s (fun t => (t.dev.chan c).phase = some ((e.chan c).phase.getD 0)
      ∧ t.dev.rd Reg.CMP_PHASE_PHI (wCMP c) = ((e.chan c).phase.getD 0) % 2 ^ Reg.CMP_PHASE_PHI.width
      ∧ e.regsBut t.dev [Reg.CMP_PHASE_PHI.key (wCMP c) 0] ∧ t.ram = s.ram)) ∧
  (∀ (c t0 : Nat) (s : State), c < 128 →
    let e := s.dev.advanceTo t0
    e.chState c = 4 → (e.chan c).quarEnd ≤ e.now →
    Answers (.chQuarantineEnd c t0) s (fun t => t.dev.chState c = 0 ∧ tget? t.dev.chans c = none
      ∧ t.dev.chGen c = e.chGen c ∧ (∀ b, b ≠ c → tget? t.dev.chans b = tget? e.chans b) ∧ t.dev.flows = e.flows ∧ t.ram = s.ram)) ∧
  (∀ (c t0 : Nat) (s : State),
    let e := s.dev.advanceTo t0
    (((e.chan c).next = none ∨ (e.nowTu : Int) < e.tickAt c (e.chan c).nextK → Answers (.modifyApply c t0) s (fun t => t.dev = e))
      ∧ (e.chState c ≠ 1 ∨ (e.nowTu : Int) < e.tickAt c (e.chan c).startK → Answers (.channelStart c t0) s (fun t => t.dev = e))
      ∧ (e.chState c ≠ 4 ∨ e.now < (e.chan c).quarEnd → Answers (.chQuarantineEnd c t0) s (fun t => t.dev = e))))

/-- R38 to R44: at a frame tick that the timebase of each of the channel's regions has reached, the next frame is awaited, and a
frame of the running channel is captured; at a slice tick, which follows its frame's tick, the next slice is awaited; before its
instant neither does anything. At each new µs of an active region's own timebase up to 32 delayed tasks of each list become
ready, the rest are counted, and the buckets of the flow and of the policers are refilled. The model's own readings here: log
entry 2. -/
def Obligations.TicksFollowTheTimebase : Prop :=
  (∀ (c t0 : Nat) (s : State),
    let e := s.dev.advanceTo t0
    let x := e.chan c
    let go : Bool := decide (x.startK ≤ x.k) && (match x.stopK with
      | some z => decide (x.k < z)
      | none => true)
    e.live c = true → e.allReached c (e.tickAt c x.k) = true → x.undecided = none →
    Answers (.frameTick c t0) s (fun t => (t.dev.chan c).k = x.k + 1 ∧ (t.dev.chan c).n = x.n
      ∧ (go = true → (e.nowTu : Int) ≤ e.tickAt c x.k + (t.dev.phi c : Nat) → (t.dev.chan c).undecided = some x.k)
      ∧ (go = false → (t.dev.chan c).undecided = none) ∧ t.ram = s.ram)) ∧
  (∀ (c t0 : Nat) (s : State),
    let e := s.dev.advanceTo t0
    let x := e.chan c
    e.live c = true → e.allReached c (e.slotTu c x.n) = true → x.n < x.k * slices x.cfg → x.undecided = none →
    Answers (.sliceTick c t0) s (fun t => (t.dev.chan c).n = x.n + 1 ∧ (t.dev.chan c).k = x.k ∧ t.ram = s.ram)) ∧
  (∀ (c t0 : Nat) (s : State),
    let e := s.dev.advanceTo t0
    (e.live c = false ∨ e.allReached c (e.tickAt c (e.chan c).k) = false → Answers (.frameTick c t0) s (fun t => t.dev = e))
      ∧ (e.live c = false ∨ e.allReached c (e.slotTu c (e.chan c).n) = false ∨ (e.chan c).k * slices (e.chan c).cfg ≤ (e.chan c).n →
          Answers (.sliceTick c t0) s (fun t => t.dev = e))) ∧
  (∀ (r t0 : Nat) (s : State), r < 8 →
    let e := (s.dev.advanceTo t0).egressNow r
    (e.active r = true → e.tbNs r / 1000 ≠ (e.rach r).tick →
      Answers (.rachisTick r t0) s (fun t => (t.dev.rach r).tick = e.tbNs r / 1000
        ∧ t.dev.rd Reg.RA_DLY_SPILL (blk r ixRACHIS) 0
            = min (e.rd Reg.RA_DLY_SPILL (blk r ixRACHIS) 0
                + (((e.delayed r 0 false).filter (fun x => x.2 ≤ e.tbNs r / 1000 * 1000)).length - 32))
              (2 ^ Reg.RA_DLY_SPILL.width - 1)
        ∧ (∀ f, e.liveFlows r = [f] →
            (t.dev.flow r f).sh.tc = min (e.rd Reg.SH_CBS (wFLOW r f) * 65536)
                ((e.flow r f).sh.tc + e.rd Reg.SH_CIR (wFLOW r f) * 65536 / 8000)
              ∧ (t.dev.flow r f).queue = (e.flow r f).queue)
        ∧ (∀ k b, k / 256 = r → tget? e.pols k = some b → tget? t.dev.pols k = some (e.refillPol r (k % 256) b)) ∧ t.ram = s.ram)) ∧
    (e.active r = false ∨ e.tbNs r / 1000 = (e.rach r).tick → Answers (.rachisTick r t0) s (fun t => t.dev = e)))

/-- R84, R88: a sound source frame is assigned to its channel frame with the ancillary data that counts; a second one of the
frame is counted and takes its place; one that is not sound changes nothing. R274: one that reaches the standby of a protected
channel tells which frame the standby's input is at. R87: during STARTING a sound source frame fixes the phase, a whole number
of µs. R84, R86: a first packet of an ST 2110 stream of the channel is taken, its duplicate and a packet of another stream are
not. R224: a captured slice sends its token to the region that codes it. R111, R224: an analysed slice of a rendition is counted
and sends its token. The model's own readings here: log entries 54 and 55. -/
def Obligations.SourcesReachTheirFrames : Prop :=
  (∀ (c : Nat) (f : SrcFrame) (s : State),
    let e := s.dev.advanceTo (ceilDiv f.start 65536)
    let k := e.frameFrom c ((f.start : Int) - (e.phi c : Nat))
    let ch := e.chan c
    e.live c = true → feedOn ch.cfg = false → cf ch.cfg Reg.SRC_CTRL_IF = 2 →
    (f.stby = true → f.formatOk = true → e.protectedCh c = true → Answers (.sourceFrame c f) s (fun t =>
      (t.dev.chan c).sbyK = some k ∧ (t.dev.chan c).srcs = ch.srcs ∧ t.dev.regs = e.regs ∧ t.dev.out = e.out ∧ t.ram = s.ram)) ∧
    (f.stby = false → f.formatOk = true → e.chState c ≠ 1 → (ch.undecided = some k ∨ (ch.undecided = none ∧ ch.k ≤ k)) → ch.startK ≤ k →
      (∀ z, ch.stopK = some z → k < z) →
      (ch.srcs.find? (fun y => y.1 == k) = none →
        Answers (.sourceFrame c f) s (fun t => (t.dev.chan c).srcs = ch.srcs ++ [(k, { f with anc := [e.ancOf c f] })]
          ∧ t.dev.regs = e.regs ∧ t.dev.out = e.out ∧ t.ram = s.ram)) ∧
      ((ch.srcs.find? (fun y => y.1 == k)).isSome = true →
        Answers (.sourceFrame c f) s (fun t => (t.dev.chan c).srcs.length = ch.srcs.length
          ∧ t.dev.rd Reg.CMP_SRC_CNT_SKIP (wCMP c)
              = min (e.rd Reg.CMP_SRC_CNT_SKIP (wCMP c) + 1) (2 ^ Reg.CMP_SRC_CNT_SKIP.width - 1) ∧ t.ram = s.ram))) ∧
    (f.stby = false → f.formatOk = true → e.chState c = 1 → ch.k ≤ ch.startK → Answers (.sourceFrame c f) s (fun t =>
      ∃ phi, (t.dev.chan c).phase = some phi ∧ phi % 1000 = 0
        ∧ t.dev.rd Reg.CMP_PHASE_PHI (wCMP c) = phi % 2 ^ Reg.CMP_PHASE_PHI.width ∧ t.ram = s.ram)) ∧
    (f.stby = false → f.formatOk = false → ch.undecided = none → Answers (.sourceFrame c f) s (fun t => t.dev = e))) ∧
  (∀ (c path seq : Nat) (h : StreamHdr) (s : State), s.dev.live c = true →
    let g := (s.dev.chan c).cfg
    let q := seq % 65536
    feedOn g = false → cf g Reg.SRC_CTRL_IF = 2 → (path = 0 ∨ cf g Reg.SRC_2110_DUAL ≠ 0) →
    (s.dev.streamOurs c (if path = 0 then cf g Reg.SRC_2110_PORT else cf g Reg.SRC_2110_PORT2) h = true →
      (s.dev.chan c).seen.contains q = false → Answers (.st2110Packet c path ⟨seq, h⟩) s (fun t =>
        t.dev.out = s.dev.out ++ [.source c path q] ∧ (t.dev.chan c).seen.contains q = true ∧ t.dev.regs = s.dev.regs
          ∧ t.ram = s.ram)) ∧
    ((s.dev.streamOurs c (if path = 0 then cf g Reg.SRC_2110_PORT else cf g Reg.SRC_2110_PORT2) h = false
        ∨ (s.dev.chan c).seen.contains q = true) → Answers (.st2110Packet c path ⟨seq, h⟩) s (fun t => t = s))) ∧
  (∀ (c rd j k : Nat) (s : State), s.dev.live c = true → rd < numRend (s.dev.chan c).cfg → j < slices (s.dev.chan c).cfg →
    (s.dev.chan c).undecided = none → s.dev.arriving c = some k →
    Answers (.inputCaptured c rd j) s (fun t => s.dev.tokenSent t.dev (s.dev.codeRegion c k) 0x01 c rd j k ∧ t.ram = s.ram)) ∧
  (∀ (c rd j k : Nat) (x : Rend) (hints : List (Nat × Int × Int)) (s : State), s.dev.live c = true →
    (s.dev.chan c).undecided = none → (s.dev.chan c).prev = [] → tget? s.dev.olds (c * 8 + rd) = none →
    tget? s.dev.rends (c * 8 + rd) = some x → (s.dev.chan c).nextAn x = some k → x.an % slices (s.dev.chan c).cfg = j →
    k < (s.dev.chan c).k →
    Answers (.analysed c rd j hints) s (fun t => (t.dev.rend c rd).an = x.an + 1
      ∧ s.dev.tokenSent t.dev (s.dev.codeRegion c k) 0x02 c rd j k ∧ t.ram = s.ram))

/-- R96, R97, R147, R148: a commit of layers or regions of interest that fails its check is answered with the code, and no
channel changes; one that passes waits for its frame; a commit of layers made during an admission waits for its end. R93: posts
of a stream layer queue, up to four; one more is ignored and counted. The model's own readings here: log entry 59. -/
def Obligations.LayersAndRoisCommit : Prop :=
  (∀ (w c id t0 : Nat) (s : State), c < 128 →
    let e1 := s.dev.advanceTo t0
    let pg := blk (e1.lead c) ixCOMPOSE
    let e := e1.restartLease pg
    let vals := e.takeLayers c
    e1.holds w pg = true →
    (e.layerWaits = true → e.chState c = 1 ∨ e.chState c = 2 → Answers (.cmpCommit w c id t0) s (fun t =>
      (t.dev.chan c).lyWait = some (id % 256, vals, e.nowTu) ∧ t.dev.regs = e.regs ∧ t.ram = s.ram)) ∧
    (e.layerWaits = false → e.cmpCheck c (layerVal c vals) = none → Answers (.cmpCommit w c id t0) s (fun t =>
      t.dev.rd Reg.CMP_RESULT_CODE (wCMP c) = 0 ∧ t.dev.rd Reg.CMP_RESULT_PENDING (wCMP c) = 1
        ∧ (t.dev.chan c).lyPend = some (id % 256, vals) ∧ (t.dev.chan c).lyAt = e.nowTu ∧ t.ram = s.ram)) ∧
    (∀ x, e.layerWaits = false → e.cmpCheck c (layerVal c vals) = some x → Answers (.cmpCommit w c id t0) s (fun t =>
      t.dev.rd Reg.CMP_RESULT_CODE (wCMP c) = x.1 % 2 ^ Reg.CMP_RESULT_CODE.width ∧ t.dev.chans = e.chans
        ∧ t.dev.rd Reg.CMP_RESULT_PENDING (wCMP c) = e.rd Reg.CMP_RESULT_PENDING (wCMP c) ∧ t.ram = s.ram))) ∧
  (∀ (w c id t0 : Nat) (s : State), c < 128 →
    let e1 := s.dev.advanceTo t0
    let pg := blk (e1.lead c) ixRCU
    let e := e1.restartLease pg
    let vals := e.takeRows Reg.rows_roi (wROI c)
    e1.holds w pg = true →
    (e.roiCheck c vals = none → Answers (.roiCommit w c id t0) s (fun t =>
      t.dev.rd Reg.ROI_RESULT_CODE (wROI c) = 0 ∧ t.dev.rd Reg.ROI_RESULT_PENDING (wROI c) = 1
        ∧ (t.dev.chan c).roiPend = some (id % 256, vals) ∧ (t.dev.chan c).roiAt = e.nowTu ∧ t.ram = s.ram)) ∧
    (∀ x, e.roiCheck c vals = some x → Answers (.roiCommit w c id t0) s (fun t =>
      t.dev.rd Reg.ROI_RESULT_CODE (wROI c) = x.1 % 2 ^ Reg.ROI_RESULT_CODE.width ∧ t.dev.chans = e.chans
        ∧ t.dev.rd Reg.ROI_RESULT_PENDING (wROI c) = e.rd Reg.ROI_RESULT_PENDING (wROI c) ∧ t.ram = s.ram))) ∧
  (∀ (w c l slot : Nat) (s : State), c < 128 → l < 8 → s.dev.holds w (blk (s.dev.lead c) ixCOMPOSE) = true → s.dev.live c = true →
    s.dev.actL c l Reg.LY_CTRL_KIND = 2 →
    ((s.dev.lay c l).queue.length < 4 → Answers (.lyPost w c l slot) s (fun t =>
      (t.dev.lay c l).queue = (s.dev.lay c l).queue ++ [(slot % 4, s.dev.nowTu)]
        ∧ t.dev.rd Reg.LY_STAT_QUEUE (wLY c l) = (s.dev.lay c l).queue.length + 1
        ∧ s.dev.regsBut t.dev [Reg.LY_STAT_QUEUE.key (wLY c l) 0])) ∧
    (4 ≤ (s.dev.lay c l).queue.length → Answers (.lyPost w c l slot) s (fun t => t.dev.body = s.dev.body
      ∧ s.dev.regsBut t.dev [Reg.ERR_COUNT.key (blk (s.dev.lead c) ixCOMPOSE) 0])))

/-- R106: a set in use keeps its LUT_VALID bit, every other bit takes the value written. R156: STAT_CTRL takes its value. R160:
a complete picture's record that fits is written into the ring, at its start where it would pass the end, STAT_WR moves past it,
and no other byte changes but a padding record's header; one that does not fit is counted and no byte changes. The model's own
readings here: log entry 63. -/
def Obligations.TablesAndStatistics : Prop :=
  (∀ (w r v : Nat) (s : State), r < 8 → s.dev.holds w (blk r ixCOMPOSE) = true →
    Answers (.composeLutValidWrite w r v) s (fun t => ∀ b, b < 32 →
      bitOf (t.dev.rd Reg.LUT_VALID (blk r ixCOMPOSE)) b
        = (bitOf v b || (bitOf (s.dev.rd Reg.LUT_VALID (blk r ixCOMPOSE)) b && (s.dev.lutInUse r).contains b)))) ∧
  (∀ (w c rd v : Nat) (s : State), c < 128 → rd < 8 → s.dev.holds w (blk (s.dev.lead c) ixRGN) = true →
    Answers (.statCtrlWrite w c rd v) s (fun t => t.dev.rd Reg.STAT_CTRL_EN (wLIVE c rd) = v % 2
      ∧ t.dev.rd Reg.STAT_CTRL_CTU_EN (wLIVE c rd) = v / 2 % 2 ∧ t.dev.rd Reg.STAT_CTRL_MV_EN (wLIVE c rd) = v / 4 % 2
      ∧ s.dev.regsBut t.dev [Reg.STAT_CTRL_EN.key (wLIVE c rd) 0, Reg.STAT_CTRL_CTU_EN.key (wLIVE c rd) 0,
          Reg.STAT_CTRL_MV_EN.key (wLIVE c rd) 0] ∧ t.dev.stats = s.dev.stats)) ∧
  (∀ (c rd t0 key : Nat) (a : PicAcc) (s : State), c < 128 → rd < 8 →
    let e := s.dev.advanceTo t0
    let v := e.viewAs c rd a.k
    let b := wLIVE c rd
    let bytes := v.statBytes c rd a (e.statOf c rd).2
    let n := bytes.length
    let wr := e.rd Reg.STAT_WR b
    let size := e.rd Reg.STAT_SIZE b
    let pad := if size < wr + n then size - wr else 0
    let room := (((e.rd Reg.STAT_RD b : Int) - (wr : Int) - 64) % (size : Int)).toNat
    let at_ := if pad = 0 then wr else 0
    let r := e.lead c
    let addr (i : Nat) : Nat := e.rdPair Reg.STAT_BASE_LO Reg.STAT_BASE_HI b + i
    tget? e.olds (c * 8 + rd) = none → (e.rend c rd).accs.head? = some (key, a) → e.live c = true →
    picSlices (v.chan c).cfg ≤ a.slices →
    (pad + n ≤ room → (∀ i, i < n → (e.portFor r (addr (at_ + i))).isSome = true) →
      (pad = 0 ∨ ∀ i, i < 64 → (e.portFor r (addr (wr + i))).isSome = true) → Answers (.statRecordWrite c rd a.k t0) s (fun t =>
      (t.dev.rend c rd).accs = tdel (e.rend c rd).accs key
        ∧ t.dev.out = e.out ++ [.stat c rd at_ n]
        ∧ t.dev.rd Reg.STAT_WR b = (at_ + n) % max 1 size % 2 ^ Reg.STAT_WR.width
        ∧ e.regsBut t.dev [Reg.STAT_WR.key b 0]
        ∧ (∀ i, i < n → ramGet t.ram (ramKey r (addr (at_ + i))) = BitVec.ofNat 8 (bytes.getD i 0))
        ∧ (∀ k, (∀ i, i < n → k ≠ ramKey r (addr (at_ + i))) → (pad = 0 ∨ ∀ i, i < 64 → k ≠ ramKey r (addr (wr + i))) →
            ramGet t.ram k = ramGet s.ram k))) ∧
    (room < pad + n → Answers (.statRecordWrite c rd a.k t0) s (fun t =>
      (t.dev.rend c rd).accs = tdel (e.rend c rd).accs key ∧ t.ram = s.ram
        ∧ t.dev.rd Reg.STAT_LOST b = min (e.rd Reg.STAT_LOST b + 1) (2 ^ Reg.STAT_LOST.width - 1)
        ∧ t.dev.rd Reg.STAT_WR b = wr ∧ t.dev.statOf c rd = ((e.statOf c rd).1, true))))

/-- R172, R173: a slice whose lines and complexity are there is granted its bits, with its non-VCL units counted, and each row's
budget is sent as a token to the region that codes it. R71 to R76, R129, R176, R179 to R181: a CTU is coded only after those
above it, takes at most what the reserve of the rest of the row leaves, and one that needs more is coded again as minimal; a row
whose time has run out goes on at L5; a row that is complete is reconstructed and sends its token with its bits, at most its
budget; R142, R143: a halo row sends one too. The model's own readings here: log entries 69 and 71. -/
def Obligations.SlicesAreCoded : Prop :=
  (∀ (c rd j t0 k : Nat) (nv : NvIn) (a : ApsIn) (x : Rend) (s : State), rd < 8 →
    let e := s.dev.advanceTo t0
    let v := e.viewAs c rd k
    let g := (v.chan c).cfg
    let z := slot4 g rd x (stopFor (v.chan c) x) x.i
    let nals := v.nonVclOf c rd x z nv a
    let bits := 8 * sumL (nals.1.map (·.2)) + eobBits g rd x (stopFor (v.chan c) x) z
    let gr := v.grantOf c rd x z bits
    e.live c = true → (e.chan c).undecided = none → tget? e.olds (c * 8 + rd) = none → tget? e.rends (c * 8 + rd) = some x →
    e.grantFrame c rd j x = some k → (e.chan c).prev = [] → ladder g = false → z.jj ≠ 0 →
    Answers (.budgetGranted c rd j t0 ⟨nv, a⟩) s (fun t => (t.dev.rend c rd).i = x.i + 1 ∧ (t.dev.rend c rd).carry = 0
      ∧ (t.dev.rend c rd).opens.length = x.opens.length + 1
      ∧ (∃ o, (t.dev.rend c rd).opens.getLast? = some o ∧ o.i = x.i ∧ o.grant = gr.g ∧ o.qp = gr.qp ∧ o.nv = bits
          ∧ o.nonVcl = nals.1 ∧ o.rows.map (fun b => (b.row, b.budget)) = gr.rows)
      ∧ (∀ p, p ∈ gr.rows → e.tokenSent t.dev (v.rowRegion c rd z.k p.1) 0x04 c rd p.1 z.k) ∧ t.ram = s.ram)) ∧
  (∀ (r ce : Nat) (x : CtuIn) (j : CeJob) (z : RowCtx) (s : State),
    let v := s.dev.viewAs j.c j.rd j.k
    let g := (v.chan j.c).cfg
    let after := reserveFrom g j.rd z.kinds (j.x + 1)
    tget? s.dev.ces (ceKey r ce) = some j → s.dev.live j.c = true → v.rowCtx j = some z →
    (j.x < z.kinds.length → v.wppOpen j z = true → j.spent ≤ j.budget → after ≤ j.budget - j.spent →
      j.x + 1 ≠ (if rowCtus g j.rd j.row = 2 * ctuCols g j.rd ∧ codec g j.rd = 0 then ctuCols g j.rd + min 2 (ctuCols g j.rd)
        else min 2 z.kinds.length) →
      Answers (.ctuCode r ce x) s (fun t => ∃ j1, tget? t.dev.ces (ceKey r ce) = some j1 ∧ j1.budget = j.budget
        ∧ j1.spent ≤ j.budget ∧ j.spent ≤ j1.spent ∧ j1.row = j.row
        ∧ ((j1.x = j.x ∧ j1.minimal = true ∧ j1.spent = j.spent) ∨ (j1.x = j.x + 1 ∧ after ≤ j.budget - j1.spent))
        ∧ (j.minimal = true ∨ j.level = 5 → j1.x = j.x + 1) ∧ t.ram = s.ram)) ∧
    (z.kinds.length ≤ j.x ∨ v.wppOpen j z = false →
      Answers (.ctuCode r ce x) s (fun t => tget? t.dev.ces (ceKey r ce) = some j ∧ t.dev.out = s.dev.out ∧ t.ram = s.ram)) ∧
    Answers (.rowBudgetExpiry r ce) s (fun t => tget? t.dev.ces (ceKey r ce) = some { j with level := 5 } ∧ t.dev.out = s.dev.out
      ∧ t.ram = s.ram)) ∧
  (∀ (r ce : Nat) (q : ReconIn) (j : CeJob) (z : RowCtx) (s : State), j.rd < 8 →
    let v := s.dev.viewAs j.c j.rd j.k
    let bits := min (roundUpTo (j.spent + q.endBits) 8) (j.budget / 8 * 8)
    tget? s.dev.ces (ceKey r ce) = some j → s.dev.live j.c = true → v.rowCtx j = some z →
    (s.dev.chan j.c).prev = [] → tget? s.dev.olds (j.c * 8 + j.rd) = none →
    (z.kinds.length ≤ j.x → v.deblockOpen j z = true →
      Answers (.rowRecon r ce q) s (fun t => tget? (t.dev.rend j.c j.rd).recon j.row = some j.k
        ∧ (∃ tok, Out.token r tok ∈ s.dev.since t.dev ∧ keyOf tok = s.dev.tokenKey 0x06 j.c j.rd j.row j.k
            ∧ bitsOf tok 96 32 = min bits (2 ^ 32 - 1)) ∧ t.ram = s.ram)) ∧
    (j.x < z.kinds.length ∨ v.deblockOpen j z = false →
      Answers (.rowRecon r ce q) s (fun t => tget? t.dev.ces (ceKey r ce) = some j ∧ t.dev.out = s.dev.out ∧ t.ram = s.ram))) ∧
  (∀ (r c rd row lines k : Nat) (s : State), s.dev.live c = true → (s.dev.chan c).regions.contains r = true →
    tget? (s.dev.rend c rd).recon row = some k →
    Answers (.haloArrived r c rd row lines) s (fun t => s.dev.tokenSent t.dev r 0x07 c rd row k ∧ t.ram = s.ram))

/-- R202, R205, R210: the first bound that ends a job is recorded on its engine and counted for its slot, and the blocks not
decoded are concealed; a second one ends nothing. R207 to R213, R218: a random access picture of a confidence slot that is
decoded whole is counted, shown without taint and serves as concealment reference; one of which blocks are missing is concealed,
counted and tainted. R214: rows with equal CRCs change nothing, others are counted as a mismatch. R196, R199: a packet of a feed
reaches the buffer once; a copy is not taken again, a late one is counted, one that is not the feed's changes nothing; at the
end of the delay the access unit leaves the buffer and its token is sent. The model's own readings here: log entries 76 and 77.
-/
def Obligations.DecodingIsBounded : Prop :=
  (∀ (r de t0 cycles code : Nat) (x : List DecNal) (i : Instr) (row : Row) (j : DeJob) (s : State),
    let e0 := s.dev.advanceTo t0
    (i, code, row) ∈ [(Instr.cycleBudget r ⟨de, t0, cycles, x⟩, 0x21, Reg.DE_WD_BUDGET),
      (.wdExpiry r ⟨de, t0, cycles, x⟩, 0x20, Reg.DE_WD_EXPIRED)] →
    r < 8 → de < 2 → j.slot < 1152 → tget? e0.des (deKey r de) = some j →
    let use := ((tget? e0.strms (slotKey r j.slot)).map (·.use)).getD 0
    let e := e0.readNals r j.slot use x
    (j.ended ≠ none ∨ (e.decSlot r j.slot).cur = none → Answers i s (fun t => t.dev = e ∧ t.ram = s.ram)) ∧
    (∀ p, j.ended = none → (e.decSlot r j.slot).cur = some p →
      let blocks := p.missing (blocksIn p.seq (e.jobLines r j use p.seq))
      let w := e.slotWeights j.slot
      let lines := e.jobLines r j use p.seq
      blocks ≠ [] →
      (code = 0x21 → cycleBudget (e.rd Reg.DE_BOUND_CYC_MULT (blk r (ixDE + de))) (p.seq.width * (lines.2 - lines.1)) w.1 w.2 ≤ cycles) →
      (code = 0x20 → 3 * j.deadline ≤ 3 * e.now + 80 * blocks.length) →
      (∀ n, x.getLast? = some n → n.reach ≤ (e0.decSlot r j.slot).input) →
      Answers i s (fun t => tget? t.dev.des (deKey r de) = some { j with ended := some code }
        ∧ t.dev.rd row (blk r (ixDE + de)) = min (e.rd row (blk r (ixDE + de)) + 1) (2 ^ row.width - 1)
        ∧ t.dev.rd Reg.DS_STATE_LAST_ERR (e.dsOf r j.slot) = code
        ∧ ((t.dev.decSlot r j.slot).cur.map (·.conc)) = some (p.conc ++ blocks) ∧ t.ram = s.ram))) ∧
  (∀ (r slot t0 : Nat) (x : List DecNal) (y : Strm) (p : PicNow) (s : State), r < 8 → slot < 1152 →
    let e0 := s.dev.advanceTo t0
    let e := e0.readNals r slot 0 x
    let w := e.dsOf r slot
    let blocks := p.missing (blocksIn p.seq (e.bandLines r slot p.seq))
    tget? e0.strms (slotKey r slot) = some y → y.use = 0 → e0.active r = true → (e.decSlot r slot).cur = some p → p.use = .decode →
    (blocks = [] → p.conc = [] → p.gap = false → (e.bandCtus r slot p.seq).2 ≤ p.next → (e.decSlot r slot).bufFail = false →
      (p.kind = .idr ∨ p.kind = .cra) →
      Answers (.decodePictureEnd r slot ⟨t0, x⟩) s (fun t => t.dev.lastOut = some (.picture r slot (p.pocs.headD 0) false 0)
        ∧ t.dev.rd Reg.DS_PICS w = (e.rd Reg.DS_PICS w + 1) % 2 ^ Reg.DS_PICS.width ∧ t.dev.rd Reg.DS_STATE_TAINTED w = 0
        ∧ (t.dev.decSlot r slot).cur = none ∧ (t.dev.decSlot r slot).good = goodAfter (e.decSlot r slot).good p
        ∧ t.dev.chans = e.chans ∧ t.ram = s.ram)) ∧
    (blocks ≠ [] →
      Answers (.decodePictureEnd r slot ⟨t0, x⟩) s (fun t =>
        t.dev.lastOut = some (.picture r slot (p.pocs.headD 0) true (p.conc.length + blocks.length))
        ∧ t.dev.rd Reg.DS_PICS w = (e.rd Reg.DS_PICS w + 1) % 2 ^ Reg.DS_PICS.width ∧ t.dev.rd Reg.DS_STATE_TAINTED w = 1
        ∧ t.dev.rd Reg.DS_CONCEALED w
            = min (e.rd Reg.DS_CONCEALED w + (p.conc.length + blocks.length)) (2 ^ Reg.DS_CONCEALED.width - 1)
        ∧ (t.dev.decSlot r slot).cur = none ∧ (t.dev.decSlot r slot).good = (e.decSlot r slot).good
        ∧ t.dev.chans = e.chans ∧ t.ram = s.ram))) ∧
  (∀ (r slot row : Nat) (enc dec : List Nat) (x : Strm) (s : State), r < 8 → slot < 1152 →
    tget? s.dev.strms (slotKey r slot) = some x → x.use = 0 → s.dev.active r = true →
    (rowCrc enc = rowCrc dec → Answers (.confRowCompare r slot row enc dec) s (fun t => t = s)) ∧
    (rowCrc enc ≠ rowCrc dec → Answers (.confRowCompare r slot row enc dec) s (fun t =>
      t.dev.rd Reg.DS_MISMATCH (s.dev.dsOf r slot)
          = min (s.dev.rd Reg.DS_MISMATCH (s.dev.dsOf r slot) + 1) (2 ^ Reg.DS_MISMATCH.width - 1)
        ∧ (t.dev.decSlot r slot).confBad = true ∧ t.dev.chans = s.dev.chans ∧ t.ram = s.ram))) ∧
  (∀ (c t0 r : Nat) (p : FeedPkt) (s : State), r < 8 → c < 128 →
    let e := s.dev.advanceTo t0
    let g := (e.chan c).cfg
    let x := e.decSlot r (1024 + c)
    let q := pktNum g p
    let w := e.dsOf r (1024 + c)
    (e.feedRegions c).find? (fun r => (r == e.lead c) != p.stby) = some r →
    (e.feedOurs c p r = false → Answers (.feedPacket c p t0) s (fun t => t.dev = e)) ∧
    (e.feedOurs c p r = true →
      (x.seen.any (fun y => y.1 == q) = true → Answers (.feedPacket c p t0) s (fun t =>
        (t.dev.decSlot r (1024 + c)).pkts = x.pkts ∧ t.dev.regs = e.regs ∧ t.dev.out = e.out ∧ t.ram = s.ram)) ∧
      (x.seen.any (fun y => y.1 == q) = false → (∃ au, x.auNext = some au ∧ p.au < au) → Answers (.feedPacket c p t0) s (fun t =>
        (t.dev.decSlot r (1024 + c)).pkts = x.pkts
          ∧ t.dev.rd Reg.FS_RX_LATE w = min (e.rd Reg.FS_RX_LATE w + 1) (2 ^ Reg.FS_RX_LATE.width - 1)
          ∧ e.regsBut t.dev [Reg.FS_RX_LATE.key w 0] ∧ t.ram = s.ram)) ∧
      (x.seen.any (fun y => y.1 == q) = false → (∀ au, x.auNext = some au → au ≤ p.au) → Answers (.feedPacket c p t0) s (fun t =>
        t.dev.rd Reg.FS_RX_PKTS w = (e.rd Reg.FS_RX_PKTS w + 1) % 2 ^ Reg.FS_RX_PKTS.width
          ∧ (t.dev.decSlot r (1024 + c)).seen.contains (q, p.path) = true
          ∧ (p.last = false → (∀ y, y ∈ x.pkts → y.last = false) → (t.dev.decSlot r (1024 + c)).pkts = x.pkts ++ [p]) ∧ t.ram = s.ram)))) ∧
  (∀ (c t0 r au from_ : Nat) (s : State),
    let e := s.dev.advanceTo t0
    let x := e.decSlot r (1024 + c)
    e.feedRegions c = [r] → x.auNext = some au → tget? x.lastAt au = some from_ →
    (from_ + cf (e.chan c).cfg Reg.FEED_BUF_DELAY * 100000 ≤ e.now → Answers (.feedDelayExpiry c t0) s (fun t =>
      .au (1024 + c) au ∈ e.since t.dev ∧ e.tokenSent t.dev r 0x0A c 0 0 au
        ∧ (∀ p, p ∈ (t.dev.decSlot r (1024 + c)).pkts → p.au ≠ au) ∧ t.ram = s.ram)) ∧
    (e.now < from_ + cf (e.chan c).cfg Reg.FEED_BUF_DELAY * 100000 → Answers (.feedDelayExpiry c t0) s (fun t => t.dev = e)))

/-- R411, R418, R426: the personality's commands end with their result: START creates the channel that its registers describe,
STOP ends a running one, APPLY modifies one; a field out of range is refused with 1, a START of a live channel and an APPLY that
changes what only STOP and START may with 2, a STOP of one that does not run with 3, settings outside the format's with 4; a
command while another is in progress changes nothing. R419, R420: a soft reset stops the channels at once, drops the command in
progress and the registers, and starts the personality again, which owns its lanes. The model's own readings here: log entries
141 and 143. -/
def Obligations.PersonalityAnswersCommands : Prop :=
  (∀ (n : Nat) (s : State), n < 4 → s.dev.cl4On = true → s.dev.cl4Ready = true → s.dev.sys.cl4Cmd = none →
    s.dev.rd Reg.ADM_STATUS_INTERNAL pSHM = 0 → s.dev.sys.admOpen = true →
    let running : Bool := s.dev.chState n == 1 || s.dev.chState n == 2
    (∀ (code : Nat) (i : Instr),
      ((code = 1 ∧ s.dev.cl4Bad n = true ∧ i ∈ [Instr.cl4Start n, .cl4Apply n])
        ∨ (code = 2 ∧ s.dev.cl4Bad n = false ∧ s.dev.live n = true ∧ i = .cl4Start n)
        ∨ (code = 2 ∧ s.dev.cl4Bad n = false ∧ running = true ∧ s.dev.cl4Now n ≠ s.dev.cl4Settings n ∧ i = .cl4Apply n)
        ∨ (code = 4 ∧ s.dev.cl4Bad n = false ∧ s.dev.live n = false ∧ s.dev.cl4Format n = true ∧ i ∈ [Instr.cl4Start n, .cl4Apply n])
        ∨ (code = 3 ∧ running = false ∧ i = .cl4Stop n)) →
      Answers i s (fun t => t.dev.rd Reg.CMD_RESULT_CODE cl4B = code
        ∧ t.dev.rd Reg.IRQ_STAT_CMD_DONE cl4B = 1 ∧ t.dev.sys.cl4Cmd = none ∧ t.dev.chans = s.dev.chans ∧ t.ram = s.ram)) ∧
    (running = true → Answers (.cl4Stop n) s (fun t => t.dev.rd Reg.CMD_RESULT_CODE cl4B = 0
      ∧ t.dev.rd Reg.IRQ_STAT_CMD_DONE cl4B = 1 ∧ t.dev.sys.cl4Cmd = none ∧ (t.dev.chState n = 3 ∨ t.dev.chState n = 4)
      ∧ t.dev.rd Reg.CH_STATE_STOP_REASON (wCHSTAT n) = 0x20 ∧ t.ram = s.ram)) ∧
    (∀ (op : Nat) (i : Instr), (op, i) ∈ [(1, Instr.cl4Start n), (3, .cl4Apply n)] → s.dev.cl4Bad n = false → s.dev.cl4Format n = false →
      (op = 1 → s.dev.live n = false) → (op = 3 → running = false ∨ s.dev.cl4Now n = s.dev.cl4Settings n) →
      let e0 : Dev := { s.dev with sys := { s.dev.sys with cl4Cmd := some (op, n) } }
      let o := (e0.freeSkip 11).freeNext.evaluate (e0.cl4Req (if op = 1 then 1 else 2) n) [e0.freeNv]
      Answers i s (fun t => t.dev.rd Reg.IRQ_STAT_CMD_DONE cl4B = 1 ∧ t.dev.sys.cl4Cmd = none
        ∧ (t.dev.rd Reg.CMD_RESULT_CODE cl4B = 0 ↔ o.reason = 0) ∧ (o.reason ≠ 0 → t.dev.chans = s.dev.chans)
        ∧ (o.reason = 0 → op = 1 → t.dev.chState n = 1 ∧ (t.dev.chan n).cfg = s.dev.cl4Desc n ∧ (t.dev.chan n).regions = o.placed)
        ∧ (o.reason = 0 → op = 3 → (t.dev.chan n).next = some (s.dev.cl4Desc n) ∧ (t.dev.chan n).cfg = (s.dev.chan n).cfg)
        ∧ t.ram = s.ram))) ∧
  (∀ (n op : Nat) (i : Instr) (x : Nat × Nat) (s : State), (op, i) ∈ [(1, Instr.cl4Start n), (2, .cl4Stop n), (3, .cl4Apply n)] →
    s.dev.sys.cl4Cmd = some x → x ≠ (op, n) → Answers i s (fun t => t = s)) ∧
  (∀ (s : State), s.dev.cl4On = true → s.dev.active 0 = true →
    Answers .cl4SoftReset s (fun t => t.dev.sys.cl4Cmd = none ∧ t.dev.sys.spiLast = 0 ∧ t.dev.sys.cl4Run = []
      ∧ t.dev.rd Reg.RGN_RST_CAUSE (blk 0 ixRGN) = 6 ∧ t.dev.rd Reg.STATUS_READY cl4B = 1 ∧ t.dev.rd Reg.IRQ_STAT_BOOT cl4B = 1
      ∧ (∀ n, n < 4 → t.dev.rd Reg.CH_RATE_LO (cl4Ch n) = Reg.CH_RATE_LO.reset ∧ (s.dev.live n = true → t.dev.chState n = 4))
      ∧ (∀ g, g ∈ [0, 1, 2, 3, 4, 5, 6, 7, 11, 12, 13, 14, 15] → t.dev.rd Reg.LOCK_OWNER (lanePage g) = 0x30)
      ∧ t.ram = s.ram ∧ t.otp = s.otp))

/-- R412, R414, R416: a write over the control port puts the word into its register, and a read answers the last word of the bus
and one word per address, a rate register's its value. R340, R423: an ASI output that is on and free sends the next packet of
its channel when it is due, waits for one that is due within a packet's time, and otherwise sends a null packet; each keeps it
busy for a packet's time. The model's own readings here: log entry 142. -/
def Obligations.ControlPortReadsAndWrites : Prop :=
  (∀ (n v : Nat) (s : State), n < 4 → s.dev.cl4On = true → s.dev.cl4Ready = true →
    Answers (.spiWrite (0x43 + n * 0x20) [v]) s (fun t => t.dev.rd Reg.CH_RATE_LO (cl4Ch n) = v % 65536
      ∧ t.dev.sys.spiLast = v % 65536 ∧ s.dev.regsBut t.dev [Reg.CH_RATE_LO.key (cl4Ch n) 0] ∧ t.dev.chans = s.dev.chans)) ∧
  (∀ (header : Nat) (data : List Nat) (s : State), s.dev.cl4On = true → (bitOf header 15 = true ∨ bitsOf header 10 4 ≠ 0) →
    Answers (.spiWrite header data) s (fun t => t = s)) ∧
  (∀ (header n : Nat) (s : State), s.dev.cl4On = true → bitOf header 15 = true → bitsOf header 10 4 = 0 →
    Answers (.spiRead header n) s (fun t => (∃ ws irq, t.dev.out = s.dev.out ++ [.spi (s.dev.sys.spiLast :: ws) irq] ∧ ws.length = n)
      ∧ t.dev.chans = s.dev.chans ∧ t.ram = s.ram)) ∧
  (∀ (n : Nat) (s : State), n < 4 → s.dev.cl4On = true →
    Answers (.spiRead (0x8000 + 0x43 + n * 0x20) 1) s (fun t => (∃ irq, t.dev.out = s.dev.out
        ++ [.spi [s.dev.sys.spiLast, 0 + s.dev.rd Reg.CH_RATE_LO (cl4Ch n)] irq]) ∧ t.dev.regs = s.dev.regs)) ∧
  (∀ (n t0 : Nat) (s : State), n < 4 →
    let e := s.dev.advanceTo t0
    let len := e.asiPacketNs n
    let free := (tget e.sys.tsOut n (0, 0, 0)).2.2
    e.cl4On = true → e.cl4Ready = true → bitOf (e.rd Reg.ASI_CTRL_EN cl4B) n = true → e.lnMode (4 + n) = 4 →
    (e.region 0).killed = false → e.live n = true →
    (e.now < free → Answers (.asiPacketSend 0 n t0) s (fun t => t.dev = e)) ∧
    (free ≤ e.now →
      ((e.tsNext n n = none ∨ (∃ x, e.tsNext n n = some x ∧ e.now + len < x.1)) → Answers (.asiPacketSend 0 n t0) s (fun t =>
        t.dev.out = e.out ++ [.asi n none] ∧ t.dev.regs = e.regs ∧ (tget t.dev.sys.tsOut n (0, 0, 0)).2.2 = e.now + len ∧ t.ram = s.ram)) ∧
      (∀ x, e.tsNext n n = some x → x.1 ≤ e.now → Answers (.asiPacketSend 0 n t0) s (fun t =>
        (e.since t.dev).head? = some (.asi n (some x.2.2)) ∧ tget? t.dev.sys.tsOut n = some (x.1, x.2.1 + 1, e.now + len) ∧ t.ram = s.ram)) ∧
      (∀ x, e.tsNext n n = some x → e.now < x.1 → x.1 ≤ e.now + len → Answers (.asiPacketSend 0 n t0) s (fun t => t.dev = e)))) ∧
  (∀ (r n t0 : Nat) (s : State), r ≠ 0 → Answers (.asiPacketSend r n t0) s (fun t => t.dev = s.dev.advanceTo t0 ∧ t.ram = s.ram))

/-- A step takes the command at the front of the queue and runs it with the queue's rest. With no command waiting it is one
clock of the timebase, which is the model's choice (log entry 1). -/
def Obligations.StepTakesTheFront : Prop :=
  (∀ (c : Instr) (rest : List Instr) (s : State), s.pending = c :: rest → step s = exec c { s with pending := rest }) ∧
  (∀ s : State, s.pending = [] → step s = .next s.clock)

/-- R36: on each 500 MHz timebase clock TB_INC, in units of 2^-32 ns, is added to each region's timebase (one that is off the
holder's time is slewed by up to 100 ns a second besides, as R37 says), and no register, channel, output, memory or fuse
changes. The register shows the fraction down to 2^-16 ns, the nanoseconds and the seconds of 48 bits, with the status as its
last word. The nominal increment is 2 ns. -/
def Obligations.TimebaseCountsEachClock : Prop :=
  (∀ s : State, (∀ r, r < 8 → (r = s.dev.holder ∨ (s.dev.tb r).ofs = 0) →
      (s.clock.dev.tb r).cnt = (s.dev.tb r).cnt + s.dev.tbInc ∧ (s.clock.dev.tb r).ofs = (s.dev.tb r).ofs)
    ∧ (∀ r, r < 8 → ∃ z : Int, z.natAbs ≤ s.dev.tbInc / 10000000
      ∧ ((s.clock.dev.tb r).cnt : Int) = ((s.dev.tb r).cnt : Int) + (s.dev.tbInc : Int) - z ∧ (s.clock.dev.tb r).ofs = (s.dev.tb r).ofs - z)
    ∧ s.clock.dev.regs = s.dev.regs ∧ s.clock.dev.chans = s.dev.chans ∧ s.clock.dev.out = s.dev.out ∧ s.clock.ram = s.ram
    ∧ s.clock.otp = s.otp ∧ s.clock.pending = s.pending) ∧
  (∀ (d : Dev) (r : Nat), ∃ w0 w1 w2, d.tbWords r = [w0, w1, w2] ∧ w0 < 2 ^ 32 ∧ w1 < 2 ^ 32 ∧ w2 < 2 ^ 32 ∧
    w0 / 2 ^ 16 + w1 % 2 ^ 16 * 2 ^ 16 < 1000000000 ∧
    w0 % 2 ^ 16 + 2 ^ 16 * (w0 / 2 ^ 16 + w1 % 2 ^ 16 * 2 ^ 16 + 1000000000 * (w1 / 2 ^ 16 + w2 * 2 ^ 16))
      = (d.tb r).cnt / 2 ^ 16 % (2 ^ 16 * 1000000000 * 2 ^ 48)) ∧
  (∀ (w r : Nat) (s : State), r < 8 → s.dev.readable w (blk r ixTIMEBASE + 0x100) = true →
    Answers (.tbNowRead w r) s (fun t => t.dev.out = s.dev.out ++ [.hostData w (s.dev.tbWords r ++ [s.dev.tbStatus r])])) ∧
  State.reset.dev.tbInc = 0x200000000

/-- Every command answers a next state and leaves the queue to the step. Region memory changes by the commands that write it or
lose it, and by no other; the fuses by those that program them. The model's own readings here: log entry 3. -/
def Obligations.EveryCommandAnswers : Prop :=
  ∀ (i : Instr) (s : State), Answers i s (fun t => t.pending = s.pending
    ∧ (i.writesMemory = false → t.ram = s.ram) ∧ (i.programsFuses = false → t.otp = s.otp))

/-- R456: region memory stays through WARM, NAP and PARK, and through a BLOCK reset of any block but MEMPORT. POR, PIN and
REGION resets lose it, and a lost port loses its window. WARM drops the descriptors with their channels. -/
def Obligations.RegionMemorySurvives : Prop :=
  (∀ (w : Nat) (s : State), Answers (.warmReset w) s (fun t => t.ram = s.ram
    ∧ (s.dev.holds w pSHM = true → t.dev.chans = [] ∧ t.dev.rends = []))) ∧
  (∀ (w r t0 : Nat) (i : Instr) (s : State),
    i ∈ [Instr.pwrActive w r, .pwrIdle w r, .pwrNap w r, .pwrPark w r, .powerTransitionDone r t0] → Answers i s (fun t => t.ram = s.ram)) ∧
  (∀ (w page : Nat) (s : State), (∀ r p, r < 8 → p < 4 → page ≠ mpPage r p) → (∀ r, r < 8 → page ≠ blk r ixRGN) →
    Answers (.blockReset w page) s (fun t => t.ram = s.ram)) ∧
  (∀ (straps : List Straps) (us : Nat) (s : State), straps.length = 8 → 10 ≤ us →
    Answers (.por straps) s (fun t => t.ram = []) ∧ Answers (.pinReset straps us) s (fun t => t.ram = [])) ∧
  (∀ (w r : Nat) (s : State), r < 8 → s.dev.holds w (blk r ixRGN) = true → (s.dev.region r).held = false →
    ¬ (s.dev.sys.mode = 1 ∧ (s.dev.region r).pwr = .park) →
    Answers (.regionReset w r) s (fun t => ∀ a, a < 2 ^ 64 → ramGet t.ram (ramKey r a) = ramGet [] (ramKey r a))) ∧
  (∀ (r p temp margin t0 : Nat) (s : State), r < 8 → p < 4 → s.dev.rd Reg.MP_STATE_STATE (mpPage r p) = 3 → (s.dev.mp r p).panic = [] →
    Answers (.retrainEnd r p false temp margin t0) s (fun t =>
      ∀ a, p * 0x800000000 ≤ a → a < (p + 1) * 0x800000000 → ramGet t.ram (ramKey r a) = ramGet [] (ramKey r a)))

/-- R433: no step lowers a fused SVN, and a step raises one only by SVN_COMMIT, as a command or as a write of GL_CMD with OP 4,
which fuses the SVNs that run; CUST_KEY fuses the hash of the 57-byte key at GL_TOKEN, once; a second one is refused with
FUSE_LOCKED. No step changes a key hash once it is fused, or the consent bit and the serial number. -/
def Obligations.FusesOnlyGrow : Prop :=
  (∀ s t : State, step s = .next t → (∀ i, i < 3 → s.otp.svn.getD i 0 ≤ t.otp.svn.getD i 0)
    ∧ (∀ k, s.otp.custKey = some k → t.otp.custKey = some k) ∧ t.otp.consent = s.otp.consent ∧ t.otp.serial = s.otp.serial) ∧
  (∀ (c : Instr) (s t : State), exec c s = .next t → t.otp.svn ≠ s.otp.svn →
    t.otp.svn = svnMax s.otp.svn s.dev.sys.svnRun
      ∧ ((∃ w tag, c = .glSvnCommit w tag) ∨ (∃ w v, c = .registerWrite w 0x1100 v ∧ v % 16 = 4))) ∧
  (∀ (w tag : Nat) (s : State), s.dev.holds w pGLUME = true →
    Answers (.glSvnCommit w tag) s (fun t => t.otp.svn = svnMax s.otp.svn s.dev.sys.svnRun)) ∧
  (∀ (w tag : Nat) (s : State), s.dev.holds w pGLUME = true →
    Answers (.glCustKey w tag) s (fun t => (s.otp.custKey = none →
        t.otp.custKey = some (Config.shake256 ((s.dev.glBytes Reg.GL_TOKEN 128).take 57)))
      ∧ (s.otp.custKey ≠ none → t.otp = s.otp ∧ t.dev.rd Reg.GL_RESULT_CODE pGLUME = 0x4D)))

/-- Every step keeps region memory in its canonical form: addresses strictly rising, and no byte listed that reads 0x00. The
model's own readings here: log entry 6. -/
def Obligations.MemoryStaysCanonical : Prop :=
  ∀ s t : State, s.ramWf → step s = .next t → t.ramWf

/-- Reset: the canonical form holds; no command waits; every channel is FREE, every lock free, every event bit clear; each
dispatcher is in BOOT; TB_INC is nominal. The model's own readings here: log entry 12. -/
def Obligations.ResetLeavesTheBlock : Prop :=
  State.reset.ramWf ∧ State.reset.pending = [] ∧ (∀ c, State.reset.dev.chState c = 0) ∧
  (∀ page, State.reset.dev.rd Reg.LOCK_OWNER page = 0 ∧ State.reset.dev.rd Reg.LOCK_LEASE_LEASE_MS page = 1000
    ∧ State.reset.dev.rd Reg.EV_RAW page = 0) ∧
  (∀ r, State.reset.dev.raMode r = 0) ∧ State.reset.dev.tbInc = 2 ^ 33
end

