-- ==== Sys2Proof/Laws/Store.lean ====
section
/-! SUPPORT. The laws of sparse tables, of register fields and of region memory: what a read gives after a write, and that every
operation keeps the canonical form. -/

namespace Sys2Proof.Machine

variable {α : Type}

@[simp] theorem tget?_nil (k : Nat) : tget? ([] : Tbl α) k = none := rfl

theorem tget?_cons (a k : Nat) (v : α) (t : Tbl α) : tget? ((a, v) :: t) k = if a = k then some v else tget? t k := rfl

@[simp] theorem tget?_tput_same (t : Tbl α) (k : Nat) (v : α) : tget? (tput t k v) k = some v := by
  induction t with
  | nil => simp [tput, tget?]
  | cons e t ih =>
    obtain ⟨a, x⟩ := e
    unfold tput
    split
    · simp [tget?]
    · split
      · simp [tget?]
      · rename_i h
        simp [tget?, Ne.symm h, ih]

theorem tget?_tput_ne (t : Tbl α) {j k : Nat} (v : α) (h : j ≠ k) : tget? (tput t k v) j = tget? t j := by
  induction t with
  | nil => simp [tput, tget?, Ne.symm h]
  | cons e t ih =>
    obtain ⟨a, x⟩ := e
    unfold tput
    split
    · simp [tget?, Ne.symm h]
    · split
      · rename_i hk
        simp [tget?, ← hk, Ne.symm h]
      · simp [tget?, ih]

@[simp] theorem tget?_tdel_same (t : Tbl α) (k : Nat) : tget? (tdel t k) k = none := by
  induction t with
  | nil => rfl
  | cons e t ih =>
    obtain ⟨a, x⟩ := e
    unfold tdel
    split
    · exact ih
    · rename_i h
      simp [tget?, Ne.symm h, ih]

theorem tget?_tdel_ne (t : Tbl α) {j k : Nat} (h : j ≠ k) : tget? (tdel t k) j = tget? t j := by
  induction t with
  | nil => rfl
  | cons e t ih =>
    obtain ⟨a, x⟩ := e
    unfold tdel
    split
    · rename_i hk
      simp [tget?, ← hk, Ne.symm h, ih]
    · simp [tget?, ih]

@[simp] theorem tget_tput_same (t : Tbl α) (k : Nat) (v x : α) : tget (tput t k v) k x = v := by simp [tget]

theorem tget_tput_ne (t : Tbl α) {j k : Nat} (v x : α) (h : j ≠ k) : tget (tput t k v) j x = tget t j x := by
  simp [tget, tget?_tput_ne t v h]

@[simp] theorem tget_tmod_same (t : Tbl α) (k : Nat) (x : α) (f : α → α) : tget (tmod t k x f) k x = f (tget t k x) := by
  simp [tmod]

theorem tget_tmod_ne (t : Tbl α) {j k : Nat} (x y : α) (f : α → α) (h : j ≠ k) : tget (tmod t k x f) j y = tget t j y := by
  simp [tmod, tget_tput_ne t _ _ h]

/-! ## The canonical form -/

theorem twf_cons (a : Nat) (v : α) (t : Tbl α) : twf ((a, v) :: t) = true ↔ (∀ e ∈ t, a < e.1) ∧ twf t = true := by
  simp [twf]

theorem mem_tput {t : Tbl α} {k : Nat} {v : α} {e : Nat × α} (h : e ∈ tput t k v) : e = (k, v) ∨ e ∈ t := by
  induction t with
  | nil => simp [tput] at h; exact .inl h
  | cons y t ih =>
    obtain ⟨a, x⟩ := y
    unfold tput at h
    split at h
    · simpa using h
    · split at h
      · rcases List.mem_cons.1 h with h | h
        · exact .inl h
        · exact .inr (List.mem_cons_of_mem _ h)
      · rcases List.mem_cons.1 h with h | h
        · exact .inr (h ▸ List.mem_cons_self)
        · exact (ih h).imp_right (List.mem_cons_of_mem _)

theorem mem_tdel {t : Tbl α} {k : Nat} {e : Nat × α} (h : e ∈ tdel t k) : e ∈ t := by
  induction t with
  | nil => exact h
  | cons y t ih =>
    obtain ⟨a, x⟩ := y
    unfold tdel at h
    split at h
    · exact List.mem_cons_of_mem _ (ih h)
    · rcases List.mem_cons.1 h with h | h
      · exact h ▸ List.mem_cons_self
      · exact List.mem_cons_of_mem _ (ih h)

theorem twf_tput {t : Tbl α} (h : twf t = true) (k : Nat) (v : α) : twf (tput t k v) = true := by
  induction t with
  | nil => simp [tput, twf]
  | cons y t ih =>
    obtain ⟨a, x⟩ := y
    obtain ⟨h1, h2⟩ := (twf_cons a x t).1 h
    unfold tput
    split
    · rename_i hk
      refine (twf_cons k v _).2 ⟨fun e he => ?_, h⟩
      rcases List.mem_cons.1 he with he | he
      · simpa [he] using hk
      · exact Nat.lt_trans hk (h1 e he)
    · split
      · rename_i hk
        exact (twf_cons k v t).2 ⟨fun e he => hk ▸ h1 e he, h2⟩
      · refine (twf_cons a x _).2 ⟨fun e he => ?_, ih h2⟩
        rcases mem_tput he with he | he
        · subst he; simp only; omega
        · exact h1 e he

theorem twf_tdel {t : Tbl α} (h : twf t = true) (k : Nat) : twf (tdel t k) = true := by
  induction t with
  | nil => rfl
  | cons y t ih =>
    obtain ⟨a, x⟩ := y
    obtain ⟨h1, h2⟩ := (twf_cons a x t).1 h
    unfold tdel
    split
    · exact ih h2
    · exact (twf_cons a x _).2 ⟨fun e he => h1 e (mem_tdel he), ih h2⟩

theorem twf_tmod {t : Tbl α} (h : twf t = true) (k : Nat) (x : α) (f : α → α) : twf (tmod t k x f) = true := twf_tput h k _

theorem twf_tkeep {t : Tbl α} (h : twf t = true) (p : Nat → α → Bool) : twf (tkeep p t) = true := by
  induction t with
  | nil => rfl
  | cons y t ih =>
    obtain ⟨a, x⟩ := y
    obtain ⟨h1, h2⟩ := (twf_cons a x t).1 h
    have hs : ∀ e ∈ tkeep p t, e ∈ t := fun e he => (List.mem_filter.1 he).1
    unfold tkeep at *
    rw [List.filter_cons]
    split
    · exact (twf_cons a x _).2 ⟨fun e he => h1 e (hs e he), ih h2⟩
    · exact ih h2

/-! ## Register fields -/

@[simp] theorem stGet_stSet_same (st : Tbl Nat) (row : Row) (base i v : Nat) :
    stGet (stSet st row base i v) row base i = v % 2 ^ row.width := by
  unfold stGet stSet
  split
  · rename_i h; simp [tget, h]
  · simp

theorem stGet_stSet_ne (st : Tbl Nat) (row row' : Row) (base i v base' i' : Nat) (h : row'.key base' i' ≠ row.key base i) :
    stGet (stSet st row base i v) row' base' i' = stGet st row' base' i' := by
  unfold stGet stSet
  split
  · simp [tget, tget?_tdel_ne st h]
  · exact tget_tput_ne st _ _ h

theorem twf_stSet {st : Tbl Nat} (h : twf st = true) (row : Row) (base i v : Nat) : twf (stSet st row base i v) = true := by
  unfold stSet
  split
  · exact twf_tdel h _
  · exact twf_tput h _ _

/-! ## Region memory -/

@[simp] theorem ramGet_ramPut_same (m : List Host.Cell) (key : Nat) (b : Byte) : ramGet (ramPut m key b) key = b := by
  unfold ramGet ramPut
  split
  · rename_i h; simp [tget, h]
  · simp

theorem ramGet_ramPut_ne (m : List Host.Cell) {j key : Nat} (b : Byte) (h : j ≠ key) : ramGet (ramPut m key b) j = ramGet m j := by
  unfold ramGet ramPut
  split
  · simp [tget, tget?_tdel_ne m h]
  · exact tget_tput_ne m _ _ h

theorem Memory.wf_iff (m : List Host.Cell) : Memory.wf m = true ↔ twf m = true ∧ ∀ e ∈ m, e.2 ≠ 0 := by
  simp [Memory.wf]

/-- Writing a byte keeps the canonical form. -/
theorem Memory.wf_ramPut {m : List Host.Cell} (h : Memory.wf m = true) (key : Nat) (b : Byte) :
    Memory.wf (ramPut m key b) = true := by
  rw [Memory.wf_iff] at *
  unfold ramPut
  split
  · exact ⟨twf_tdel h.1 _, fun e he => h.2 e (mem_tdel he)⟩
  · rename_i hb
    refine ⟨twf_tput h.1 _ _, fun e he => ?_⟩
    rcases mem_tput he with he | he
    · simpa [he] using hb
    · exact h.2 e he

/-- Losing a range of addresses keeps the canonical form. -/
theorem Memory.wf_tkeep {m : List Host.Cell} (h : Memory.wf m = true) (p : Nat → Byte → Bool) :
    Memory.wf (tkeep p m) = true := by
  rw [Memory.wf_iff] at *
  exact ⟨twf_tkeep h.1 p, fun e he => h.2 e (List.mem_filter.1 he).1⟩

theorem Memory.wf_nil : Memory.wf [] = true := rfl

theorem Memory.wf_foldl {β : Type} (l : List β) (key : β → Nat) (val : β → Byte) {m : List Host.Cell} (h : Memory.wf m = true) :
    Memory.wf (l.foldl (fun m i => ramPut m (key i) (val i)) m) = true := by
  induction l generalizing m with
  | nil => exact h
  | cons i l ih => exact ih (Memory.wf_ramPut h _ _)

/-- A store of bytes keeps the canonical form. -/
theorem State.memPut_wf {s : State} (h : Memory.wf s.ram = true) (r addr : Nat) (bytes : List Byte) :
    Memory.wf (s.memPut r addr bytes).ram = true := Memory.wf_foldl _ _ _ h

/-- The loss of a range keeps the canonical form. -/
theorem State.loseRam_wf {s : State} (h : Memory.wf s.ram = true) (r lo hi : Nat) : Memory.wf (s.loseRam r lo hi).ram = true :=
  Memory.wf_tkeep h (fun k _ => !(ramKey r lo ≤ k && k < ramKey r hi))

theorem State.losePort_wf {s : State} (h : Memory.wf s.ram = true) (r p : Nat) : Memory.wf (s.losePort r p).ram = true :=
  State.loseRam_wf h _ _ _

/-- Two canonical tables that give the same entry under every key are equal. -/
theorem twf_ext {t u : Tbl α} (ht : twf t = true) (hu : twf u = true) (h : ∀ k, tget? t k = tget? u k) : t = u := by
  induction t generalizing u with
  | nil =>
    cases u with
    | nil => rfl
    | cons y u => have := h y.1; simp [tget?] at this
  | cons x t ih =>
    obtain ⟨a, v⟩ := x
    have low : ∀ {w : Tbl α} {b k : Nat}, (∀ e ∈ w, b < e.1) → k ≤ b → tget? w k = none := by
      intro w b k hw hk
      induction w with
      | nil => rfl
      | cons e w ihw =>
        have := hw e List.mem_cons_self
        have hne : e.1 ≠ k := by omega
        obtain ⟨c, z⟩ := e
        simp only [tget?, hne, if_false]
        exact ihw (fun e he => hw e (List.mem_cons_of_mem _ he))
    cases u with
    | nil => have := h a; simp [tget?] at this
    | cons y u =>
      obtain ⟨b, z⟩ := y
      obtain ⟨t1, t2⟩ := (twf_cons a v t).1 ht
      obtain ⟨u1, u2⟩ := (twf_cons b z u).1 hu
      have hab : a = b := by
        rcases Nat.lt_trichotomy a b with hl | he | hg
        · have := h a
          rw [tget?_cons, if_pos rfl, tget?_cons, if_neg (by omega), low u1 (by omega)] at this
          cases this
        · exact he
        · have := h b
          rw [tget?_cons, if_neg (by omega), low t1 (by omega), tget?_cons, if_pos rfl] at this
          cases this
      subst hab
      have hv : v = z := by
        have := h a
        rw [tget?_cons, if_pos rfl, tget?_cons, if_pos rfl] at this
        exact Option.some.inj this
      subst hv
      congr 1
      refine ih t2 u2 (fun k => ?_)
      by_cases hk : a = k
      · subst hk; rw [low t1 (Nat.le_refl _), low u1 (Nat.le_refl _)]
      · have := h k
        rwa [tget?_cons, if_neg hk, tget?_cons, if_neg hk] at this

end Sys2Proof.Machine
end

