-- ==== Sys2Proof/Laws/State.lean ====
section
/-! SUPPORT. What each basic update of the device leaves in each field, what a register field reads after a write, and what the lock
rules do to a command of the lock's holder. -/

namespace Sys2Proof.Machine

/-! ### `wr` -/

@[simp] theorem Dev.wr_shadow (d : Dev) (row : Row) (base v i : Nat) : (d.wr row base v i).shadow = d.shadow := rfl
@[simp] theorem Dev.wr_pend (d : Dev) (row : Row) (base v i : Nat) : (d.wr row base v i).pend = d.pend := rfl
@[simp] theorem Dev.wr_lockRes (d : Dev) (row : Row) (base v i : Nat) : (d.wr row base v i).lockRes = d.lockRes := rfl
@[simp] theorem Dev.wr_lease (d : Dev) (row : Row) (base v i : Nat) : (d.wr row base v i).lease = d.lease := rfl
@[simp] theorem Dev.wr_snaps (d : Dev) (row : Row) (base v i : Nat) : (d.wr row base v i).snaps = d.snaps := rfl
@[simp] theorem Dev.wr_lowWords (d : Dev) (row : Row) (base v i : Nat) : (d.wr row base v i).lowWords = d.lowWords := rfl
@[simp] theorem Dev.wr_setsWritten (d : Dev) (row : Row) (base v i : Nat) : (d.wr row base v i).setsWritten = d.setsWritten := rfl
@[simp] theorem Dev.wr_hosts (d : Dev) (row : Row) (base v i : Nat) : (d.wr row base v i).hosts = d.hosts := rfl
@[simp] theorem Dev.wr_lastSec (d : Dev) (row : Row) (base v i : Nat) : (d.wr row base v i).lastSec = d.lastSec := rfl
@[simp] theorem Dev.wr_sys (d : Dev) (row : Row) (base v i : Nat) : (d.wr row base v i).sys = d.sys := rfl
@[simp] theorem Dev.wr_rgn (d : Dev) (row : Row) (base v i : Nat) : (d.wr row base v i).rgn = d.rgn := rfl
@[simp] theorem Dev.wr_isl (d : Dev) (row : Row) (base v i : Nat) : (d.wr row base v i).isl = d.isl := rfl
@[simp] theorem Dev.wr_tbs (d : Dev) (row : Row) (base v i : Nat) : (d.wr row base v i).tbs = d.tbs := rfl
@[simp] theorem Dev.wr_nvm (d : Dev) (row : Row) (base v i : Nat) : (d.wr row base v i).nvm = d.nvm := rfl
@[simp] theorem Dev.wr_ref (d : Dev) (row : Row) (base v i : Nat) : (d.wr row base v i).ref = d.ref := rfl
@[simp] theorem Dev.wr_ptp (d : Dev) (row : Row) (base v i : Nat) : (d.wr row base v i).ptp = d.ptp := rfl
@[simp] theorem Dev.wr_phaseEnd (d : Dev) (row : Row) (base v i : Nat) : (d.wr row base v i).phaseEnd = d.phaseEnd := rfl
@[simp] theorem Dev.wr_adm (d : Dev) (row : Row) (base v i : Nat) : (d.wr row base v i).adm = d.adm := rfl
@[simp] theorem Dev.wr_tags (d : Dev) (row : Row) (base v i : Nat) : (d.wr row base v i).tags = d.tags := rfl
@[simp] theorem Dev.wr_chans (d : Dev) (row : Row) (base v i : Nat) : (d.wr row base v i).chans = d.chans := rfl
@[simp] theorem Dev.wr_rends (d : Dev) (row : Row) (base v i : Nat) : (d.wr row base v i).rends = d.rends := rfl
@[simp] theorem Dev.wr_olds (d : Dev) (row : Row) (base v i : Nat) : (d.wr row base v i).olds = d.olds := rfl
@[simp] theorem Dev.wr_stats (d : Dev) (row : Row) (base v i : Nat) : (d.wr row base v i).stats = d.stats := rfl
@[simp] theorem Dev.wr_strms (d : Dev) (row : Row) (base v i : Nat) : (d.wr row base v i).strms = d.strms := rfl
@[simp] theorem Dev.wr_slots (d : Dev) (row : Row) (base v i : Nat) : (d.wr row base v i).slots = d.slots := rfl
@[simp] theorem Dev.wr_ces (d : Dev) (row : Row) (base v i : Nat) : (d.wr row base v i).ces = d.ces := rfl
@[simp] theorem Dev.wr_des (d : Dev) (row : Row) (base v i : Nat) : (d.wr row base v i).des = d.des := rfl
@[simp] theorem Dev.wr_ras (d : Dev) (row : Row) (base v i : Nat) : (d.wr row base v i).ras = d.ras := rfl
@[simp] theorem Dev.wr_flows (d : Dev) (row : Row) (base v i : Nat) : (d.wr row base v i).flows = d.flows := rfl
@[simp] theorem Dev.wr_nodes (d : Dev) (row : Row) (base v i : Nat) : (d.wr row base v i).nodes = d.nodes := rfl
@[simp] theorem Dev.wr_busy (d : Dev) (row : Row) (base v i : Nat) : (d.wr row base v i).busy = d.busy := rfl
@[simp] theorem Dev.wr_lanes (d : Dev) (row : Row) (base v i : Nat) : (d.wr row base v i).lanes = d.lanes := rfl
@[simp] theorem Dev.wr_leg (d : Dev) (row : Row) (base v i : Nat) : (d.wr row base v i).leg = d.leg := rfl
@[simp] theorem Dev.wr_pols (d : Dev) (row : Row) (base v i : Nat) : (d.wr row base v i).pols = d.pols := rfl
@[simp] theorem Dev.wr_mps (d : Dev) (row : Row) (base v i : Nat) : (d.wr row base v i).mps = d.mps := rfl
@[simp] theorem Dev.wr_arbs (d : Dev) (row : Row) (base v i : Nat) : (d.wr row base v i).arbs = d.arbs := rfl
@[simp] theorem Dev.wr_mirs (d : Dev) (row : Row) (base v i : Nat) : (d.wr row base v i).mirs = d.mirs := rfl
@[simp] theorem Dev.wr_pgs (d : Dev) (row : Row) (base v i : Nat) : (d.wr row base v i).pgs = d.pgs := rfl
@[simp] theorem Dev.wr_free (d : Dev) (row : Row) (base v i : Nat) : (d.wr row base v i).free = d.free := rfl
@[simp] theorem Dev.wr_out (d : Dev) (row : Row) (base v i : Nat) : (d.wr row base v i).out = d.out := rfl

/-! ### `wrS` -/

@[simp] theorem Dev.wrS_regs (d : Dev) (row : Row) (base v i : Nat) : (d.wrS row base v i).regs = d.regs := rfl
@[simp] theorem Dev.wrS_pend (d : Dev) (row : Row) (base v i : Nat) : (d.wrS row base v i).pend = d.pend := rfl
@[simp] theorem Dev.wrS_lockRes (d : Dev) (row : Row) (base v i : Nat) : (d.wrS row base v i).lockRes = d.lockRes := rfl
@[simp] theorem Dev.wrS_lease (d : Dev) (row : Row) (base v i : Nat) : (d.wrS row base v i).lease = d.lease := rfl
@[simp] theorem Dev.wrS_snaps (d : Dev) (row : Row) (base v i : Nat) : (d.wrS row base v i).snaps = d.snaps := rfl
@[simp] theorem Dev.wrS_lowWords (d : Dev) (row : Row) (base v i : Nat) : (d.wrS row base v i).lowWords = d.lowWords := rfl
@[simp] theorem Dev.wrS_setsWritten (d : Dev) (row : Row) (base v i : Nat) : (d.wrS row base v i).setsWritten = d.setsWritten := rfl
@[simp] theorem Dev.wrS_hosts (d : Dev) (row : Row) (base v i : Nat) : (d.wrS row base v i).hosts = d.hosts := rfl
@[simp] theorem Dev.wrS_lastSec (d : Dev) (row : Row) (base v i : Nat) : (d.wrS row base v i).lastSec = d.lastSec := rfl
@[simp] theorem Dev.wrS_sys (d : Dev) (row : Row) (base v i : Nat) : (d.wrS row base v i).sys = d.sys := rfl
@[simp] theorem Dev.wrS_rgn (d : Dev) (row : Row) (base v i : Nat) : (d.wrS row base v i).rgn = d.rgn := rfl
@[simp] theorem Dev.wrS_isl (d : Dev) (row : Row) (base v i : Nat) : (d.wrS row base v i).isl = d.isl := rfl
@[simp] theorem Dev.wrS_tbs (d : Dev) (row : Row) (base v i : Nat) : (d.wrS row base v i).tbs = d.tbs := rfl
@[simp] theorem Dev.wrS_nvm (d : Dev) (row : Row) (base v i : Nat) : (d.wrS row base v i).nvm = d.nvm := rfl
@[simp] theorem Dev.wrS_ref (d : Dev) (row : Row) (base v i : Nat) : (d.wrS row base v i).ref = d.ref := rfl
@[simp] theorem Dev.wrS_ptp (d : Dev) (row : Row) (base v i : Nat) : (d.wrS row base v i).ptp = d.ptp := rfl
@[simp] theorem Dev.wrS_phaseEnd (d : Dev) (row : Row) (base v i : Nat) : (d.wrS row base v i).phaseEnd = d.phaseEnd := rfl
@[simp] theorem Dev.wrS_adm (d : Dev) (row : Row) (base v i : Nat) : (d.wrS row base v i).adm = d.adm := rfl
@[simp] theorem Dev.wrS_tags (d : Dev) (row : Row) (base v i : Nat) : (d.wrS row base v i).tags = d.tags := rfl
@[simp] theorem Dev.wrS_chans (d : Dev) (row : Row) (base v i : Nat) : (d.wrS row base v i).chans = d.chans := rfl
@[simp] theorem Dev.wrS_rends (d : Dev) (row : Row) (base v i : Nat) : (d.wrS row base v i).rends = d.rends := rfl
@[simp] theorem Dev.wrS_olds (d : Dev) (row : Row) (base v i : Nat) : (d.wrS row base v i).olds = d.olds := rfl
@[simp] theorem Dev.wrS_stats (d : Dev) (row : Row) (base v i : Nat) : (d.wrS row base v i).stats = d.stats := rfl
@[simp] theorem Dev.wrS_strms (d : Dev) (row : Row) (base v i : Nat) : (d.wrS row base v i).strms = d.strms := rfl
@[simp] theorem Dev.wrS_slots (d : Dev) (row : Row) (base v i : Nat) : (d.wrS row base v i).slots = d.slots := rfl
@[simp] theorem Dev.wrS_ces (d : Dev) (row : Row) (base v i : Nat) : (d.wrS row base v i).ces = d.ces := rfl
@[simp] theorem Dev.wrS_des (d : Dev) (row : Row) (base v i : Nat) : (d.wrS row base v i).des = d.des := rfl
@[simp] theorem Dev.wrS_ras (d : Dev) (row : Row) (base v i : Nat) : (d.wrS row base v i).ras = d.ras := rfl
@[simp] theorem Dev.wrS_flows (d : Dev) (row : Row) (base v i : Nat) : (d.wrS row base v i).flows = d.flows := rfl
@[simp] theorem Dev.wrS_nodes (d : Dev) (row : Row) (base v i : Nat) : (d.wrS row base v i).nodes = d.nodes := rfl
@[simp] theorem Dev.wrS_busy (d : Dev) (row : Row) (base v i : Nat) : (d.wrS row base v i).busy = d.busy := rfl
@[simp] theorem Dev.wrS_lanes (d : Dev) (row : Row) (base v i : Nat) : (d.wrS row base v i).lanes = d.lanes := rfl
@[simp] theorem Dev.wrS_leg (d : Dev) (row : Row) (base v i : Nat) : (d.wrS row base v i).leg = d.leg := rfl
@[simp] theorem Dev.wrS_pols (d : Dev) (row : Row) (base v i : Nat) : (d.wrS row base v i).pols = d.pols := rfl
@[simp] theorem Dev.wrS_mps (d : Dev) (row : Row) (base v i : Nat) : (d.wrS row base v i).mps = d.mps := rfl
@[simp] theorem Dev.wrS_arbs (d : Dev) (row : Row) (base v i : Nat) : (d.wrS row base v i).arbs = d.arbs := rfl
@[simp] theorem Dev.wrS_mirs (d : Dev) (row : Row) (base v i : Nat) : (d.wrS row base v i).mirs = d.mirs := rfl
@[simp] theorem Dev.wrS_pgs (d : Dev) (row : Row) (base v i : Nat) : (d.wrS row base v i).pgs = d.pgs := rfl
@[simp] theorem Dev.wrS_free (d : Dev) (row : Row) (base v i : Nat) : (d.wrS row base v i).free = d.free := rfl
@[simp] theorem Dev.wrS_out (d : Dev) (row : Row) (base v i : Nat) : (d.wrS row base v i).out = d.out := rfl
@[simp] theorem Dev.wrS_rd (d : Dev) (row : Row) (base v i : Nat) (ro : Row) (b j : Nat) : (d.wrS row base v i).rd ro b j = d.rd ro b j := rfl

/-! ### `emit` -/

@[simp] theorem Dev.emit_regs (d : Dev) (o : Out) : (d.emit o).regs = d.regs := rfl
@[simp] theorem Dev.emit_shadow (d : Dev) (o : Out) : (d.emit o).shadow = d.shadow := rfl
@[simp] theorem Dev.emit_pend (d : Dev) (o : Out) : (d.emit o).pend = d.pend := rfl
@[simp] theorem Dev.emit_lockRes (d : Dev) (o : Out) : (d.emit o).lockRes = d.lockRes := rfl
@[simp] theorem Dev.emit_lease (d : Dev) (o : Out) : (d.emit o).lease = d.lease := rfl
@[simp] theorem Dev.emit_snaps (d : Dev) (o : Out) : (d.emit o).snaps = d.snaps := rfl
@[simp] theorem Dev.emit_lowWords (d : Dev) (o : Out) : (d.emit o).lowWords = d.lowWords := rfl
@[simp] theorem Dev.emit_setsWritten (d : Dev) (o : Out) : (d.emit o).setsWritten = d.setsWritten := rfl
@[simp] theorem Dev.emit_hosts (d : Dev) (o : Out) : (d.emit o).hosts = d.hosts := rfl
@[simp] theorem Dev.emit_lastSec (d : Dev) (o : Out) : (d.emit o).lastSec = d.lastSec := rfl
@[simp] theorem Dev.emit_sys (d : Dev) (o : Out) : (d.emit o).sys = d.sys := rfl
@[simp] theorem Dev.emit_rgn (d : Dev) (o : Out) : (d.emit o).rgn = d.rgn := rfl
@[simp] theorem Dev.emit_isl (d : Dev) (o : Out) : (d.emit o).isl = d.isl := rfl
@[simp] theorem Dev.emit_tbs (d : Dev) (o : Out) : (d.emit o).tbs = d.tbs := rfl
@[simp] theorem Dev.emit_nvm (d : Dev) (o : Out) : (d.emit o).nvm = d.nvm := rfl
@[simp] theorem Dev.emit_ref (d : Dev) (o : Out) : (d.emit o).ref = d.ref := rfl
@[simp] theorem Dev.emit_ptp (d : Dev) (o : Out) : (d.emit o).ptp = d.ptp := rfl
@[simp] theorem Dev.emit_phaseEnd (d : Dev) (o : Out) : (d.emit o).phaseEnd = d.phaseEnd := rfl
@[simp] theorem Dev.emit_adm (d : Dev) (o : Out) : (d.emit o).adm = d.adm := rfl
@[simp] theorem Dev.emit_tags (d : Dev) (o : Out) : (d.emit o).tags = d.tags := rfl
@[simp] theorem Dev.emit_chans (d : Dev) (o : Out) : (d.emit o).chans = d.chans := rfl
@[simp] theorem Dev.emit_rends (d : Dev) (o : Out) : (d.emit o).rends = d.rends := rfl
@[simp] theorem Dev.emit_olds (d : Dev) (o : Out) : (d.emit o).olds = d.olds := rfl
@[simp] theorem Dev.emit_stats (d : Dev) (o : Out) : (d.emit o).stats = d.stats := rfl
@[simp] theorem Dev.emit_strms (d : Dev) (o : Out) : (d.emit o).strms = d.strms := rfl
@[simp] theorem Dev.emit_slots (d : Dev) (o : Out) : (d.emit o).slots = d.slots := rfl
@[simp] theorem Dev.emit_ces (d : Dev) (o : Out) : (d.emit o).ces = d.ces := rfl
@[simp] theorem Dev.emit_des (d : Dev) (o : Out) : (d.emit o).des = d.des := rfl
@[simp] theorem Dev.emit_ras (d : Dev) (o : Out) : (d.emit o).ras = d.ras := rfl
@[simp] theorem Dev.emit_flows (d : Dev) (o : Out) : (d.emit o).flows = d.flows := rfl
@[simp] theorem Dev.emit_nodes (d : Dev) (o : Out) : (d.emit o).nodes = d.nodes := rfl
@[simp] theorem Dev.emit_busy (d : Dev) (o : Out) : (d.emit o).busy = d.busy := rfl
@[simp] theorem Dev.emit_lanes (d : Dev) (o : Out) : (d.emit o).lanes = d.lanes := rfl
@[simp] theorem Dev.emit_leg (d : Dev) (o : Out) : (d.emit o).leg = d.leg := rfl
@[simp] theorem Dev.emit_pols (d : Dev) (o : Out) : (d.emit o).pols = d.pols := rfl
@[simp] theorem Dev.emit_mps (d : Dev) (o : Out) : (d.emit o).mps = d.mps := rfl
@[simp] theorem Dev.emit_arbs (d : Dev) (o : Out) : (d.emit o).arbs = d.arbs := rfl
@[simp] theorem Dev.emit_mirs (d : Dev) (o : Out) : (d.emit o).mirs = d.mirs := rfl
@[simp] theorem Dev.emit_pgs (d : Dev) (o : Out) : (d.emit o).pgs = d.pgs := rfl
@[simp] theorem Dev.emit_free (d : Dev) (o : Out) : (d.emit o).free = d.free := rfl
@[simp] theorem Dev.emit_rd (d : Dev) (o : Out) (ro : Row) (b j : Nat) : (d.emit o).rd ro b j = d.rd ro b j := rfl

/-! ### `freeNext` -/

@[simp] theorem Dev.freeNext_regs (d : Dev) : d.freeNext.regs = d.regs := rfl
@[simp] theorem Dev.freeNext_shadow (d : Dev) : d.freeNext.shadow = d.shadow := rfl
@[simp] theorem Dev.freeNext_pend (d : Dev) : d.freeNext.pend = d.pend := rfl
@[simp] theorem Dev.freeNext_lockRes (d : Dev) : d.freeNext.lockRes = d.lockRes := rfl
@[simp] theorem Dev.freeNext_lease (d : Dev) : d.freeNext.lease = d.lease := rfl
@[simp] theorem Dev.freeNext_snaps (d : Dev) : d.freeNext.snaps = d.snaps := rfl
@[simp] theorem Dev.freeNext_lowWords (d : Dev) : d.freeNext.lowWords = d.lowWords := rfl
@[simp] theorem Dev.freeNext_setsWritten (d : Dev) : d.freeNext.setsWritten = d.setsWritten := rfl
@[simp] theorem Dev.freeNext_hosts (d : Dev) : d.freeNext.hosts = d.hosts := rfl
@[simp] theorem Dev.freeNext_lastSec (d : Dev) : d.freeNext.lastSec = d.lastSec := rfl
@[simp] theorem Dev.freeNext_sys (d : Dev) : d.freeNext.sys = d.sys := rfl
@[simp] theorem Dev.freeNext_rgn (d : Dev) : d.freeNext.rgn = d.rgn := rfl
@[simp] theorem Dev.freeNext_isl (d : Dev) : d.freeNext.isl = d.isl := rfl
@[simp] theorem Dev.freeNext_tbs (d : Dev) : d.freeNext.tbs = d.tbs := rfl
@[simp] theorem Dev.freeNext_nvm (d : Dev) : d.freeNext.nvm = d.nvm := rfl
@[simp] theorem Dev.freeNext_ref (d : Dev) : d.freeNext.ref = d.ref := rfl
@[simp] theorem Dev.freeNext_ptp (d : Dev) : d.freeNext.ptp = d.ptp := rfl
@[simp] theorem Dev.freeNext_phaseEnd (d : Dev) : d.freeNext.phaseEnd = d.phaseEnd := rfl
@[simp] theorem Dev.freeNext_adm (d : Dev) : d.freeNext.adm = d.adm := rfl
@[simp] theorem Dev.freeNext_tags (d : Dev) : d.freeNext.tags = d.tags := rfl
@[simp] theorem Dev.freeNext_chans (d : Dev) : d.freeNext.chans = d.chans := rfl
@[simp] theorem Dev.freeNext_rends (d : Dev) : d.freeNext.rends = d.rends := rfl
@[simp] theorem Dev.freeNext_olds (d : Dev) : d.freeNext.olds = d.olds := rfl
@[simp] theorem Dev.freeNext_stats (d : Dev) : d.freeNext.stats = d.stats := rfl
@[simp] theorem Dev.freeNext_strms (d : Dev) : d.freeNext.strms = d.strms := rfl
@[simp] theorem Dev.freeNext_slots (d : Dev) : d.freeNext.slots = d.slots := rfl
@[simp] theorem Dev.freeNext_ces (d : Dev) : d.freeNext.ces = d.ces := rfl
@[simp] theorem Dev.freeNext_des (d : Dev) : d.freeNext.des = d.des := rfl
@[simp] theorem Dev.freeNext_ras (d : Dev) : d.freeNext.ras = d.ras := rfl
@[simp] theorem Dev.freeNext_flows (d : Dev) : d.freeNext.flows = d.flows := rfl
@[simp] theorem Dev.freeNext_nodes (d : Dev) : d.freeNext.nodes = d.nodes := rfl
@[simp] theorem Dev.freeNext_busy (d : Dev) : d.freeNext.busy = d.busy := rfl
@[simp] theorem Dev.freeNext_lanes (d : Dev) : d.freeNext.lanes = d.lanes := rfl
@[simp] theorem Dev.freeNext_leg (d : Dev) : d.freeNext.leg = d.leg := rfl
@[simp] theorem Dev.freeNext_pols (d : Dev) : d.freeNext.pols = d.pols := rfl
@[simp] theorem Dev.freeNext_mps (d : Dev) : d.freeNext.mps = d.mps := rfl
@[simp] theorem Dev.freeNext_arbs (d : Dev) : d.freeNext.arbs = d.arbs := rfl
@[simp] theorem Dev.freeNext_mirs (d : Dev) : d.freeNext.mirs = d.mirs := rfl
@[simp] theorem Dev.freeNext_pgs (d : Dev) : d.freeNext.pgs = d.pgs := rfl
@[simp] theorem Dev.freeNext_out (d : Dev) : d.freeNext.out = d.out := rfl
@[simp] theorem Dev.freeNext_rd (d : Dev) (ro : Row) (b j : Nat) : d.freeNext.rd ro b j = d.rd ro b j := rfl

/-! ### `markRaised` -/

@[simp] theorem Dev.markRaised_regs (d : Dev) (key : Nat) : (d.markRaised key).regs = d.regs := rfl
@[simp] theorem Dev.markRaised_shadow (d : Dev) (key : Nat) : (d.markRaised key).shadow = d.shadow := rfl
@[simp] theorem Dev.markRaised_pend (d : Dev) (key : Nat) : (d.markRaised key).pend = d.pend := rfl
@[simp] theorem Dev.markRaised_lockRes (d : Dev) (key : Nat) : (d.markRaised key).lockRes = d.lockRes := rfl
@[simp] theorem Dev.markRaised_lease (d : Dev) (key : Nat) : (d.markRaised key).lease = d.lease := rfl
@[simp] theorem Dev.markRaised_snaps (d : Dev) (key : Nat) : (d.markRaised key).snaps = d.snaps := rfl
@[simp] theorem Dev.markRaised_lowWords (d : Dev) (key : Nat) : (d.markRaised key).lowWords = d.lowWords := rfl
@[simp] theorem Dev.markRaised_setsWritten (d : Dev) (key : Nat) : (d.markRaised key).setsWritten = d.setsWritten := rfl
@[simp] theorem Dev.markRaised_hosts (d : Dev) (key : Nat) : (d.markRaised key).hosts = d.hosts := rfl
@[simp] theorem Dev.markRaised_sys (d : Dev) (key : Nat) : (d.markRaised key).sys = d.sys := rfl
@[simp] theorem Dev.markRaised_rgn (d : Dev) (key : Nat) : (d.markRaised key).rgn = d.rgn := rfl
@[simp] theorem Dev.markRaised_isl (d : Dev) (key : Nat) : (d.markRaised key).isl = d.isl := rfl
@[simp] theorem Dev.markRaised_tbs (d : Dev) (key : Nat) : (d.markRaised key).tbs = d.tbs := rfl
@[simp] theorem Dev.markRaised_nvm (d : Dev) (key : Nat) : (d.markRaised key).nvm = d.nvm := rfl
@[simp] theorem Dev.markRaised_ref (d : Dev) (key : Nat) : (d.markRaised key).ref = d.ref := rfl
@[simp] theorem Dev.markRaised_ptp (d : Dev) (key : Nat) : (d.markRaised key).ptp = d.ptp := rfl
@[simp] theorem Dev.markRaised_phaseEnd (d : Dev) (key : Nat) : (d.markRaised key).phaseEnd = d.phaseEnd := rfl
@[simp] theorem Dev.markRaised_adm (d : Dev) (key : Nat) : (d.markRaised key).adm = d.adm := rfl
@[simp] theorem Dev.markRaised_tags (d : Dev) (key : Nat) : (d.markRaised key).tags = d.tags := rfl
@[simp] theorem Dev.markRaised_chans (d : Dev) (key : Nat) : (d.markRaised key).chans = d.chans := rfl
@[simp] theorem Dev.markRaised_rends (d : Dev) (key : Nat) : (d.markRaised key).rends = d.rends := rfl
@[simp] theorem Dev.markRaised_olds (d : Dev) (key : Nat) : (d.markRaised key).olds = d.olds := rfl
@[simp] theorem Dev.markRaised_stats (d : Dev) (key : Nat) : (d.markRaised key).stats = d.stats := rfl
@[simp] theorem Dev.markRaised_strms (d : Dev) (key : Nat) : (d.markRaised key).strms = d.strms := rfl
@[simp] theorem Dev.markRaised_slots (d : Dev) (key : Nat) : (d.markRaised key).slots = d.slots := rfl
@[simp] theorem Dev.markRaised_ces (d : Dev) (key : Nat) : (d.markRaised key).ces = d.ces := rfl
@[simp] theorem Dev.markRaised_des (d : Dev) (key : Nat) : (d.markRaised key).des = d.des := rfl
@[simp] theorem Dev.markRaised_ras (d : Dev) (key : Nat) : (d.markRaised key).ras = d.ras := rfl
@[simp] theorem Dev.markRaised_flows (d : Dev) (key : Nat) : (d.markRaised key).flows = d.flows := rfl
@[simp] theorem Dev.markRaised_nodes (d : Dev) (key : Nat) : (d.markRaised key).nodes = d.nodes := rfl
@[simp] theorem Dev.markRaised_busy (d : Dev) (key : Nat) : (d.markRaised key).busy = d.busy := rfl
@[simp] theorem Dev.markRaised_lanes (d : Dev) (key : Nat) : (d.markRaised key).lanes = d.lanes := rfl
@[simp] theorem Dev.markRaised_leg (d : Dev) (key : Nat) : (d.markRaised key).leg = d.leg := rfl
@[simp] theorem Dev.markRaised_pols (d : Dev) (key : Nat) : (d.markRaised key).pols = d.pols := rfl
@[simp] theorem Dev.markRaised_mps (d : Dev) (key : Nat) : (d.markRaised key).mps = d.mps := rfl
@[simp] theorem Dev.markRaised_arbs (d : Dev) (key : Nat) : (d.markRaised key).arbs = d.arbs := rfl
@[simp] theorem Dev.markRaised_mirs (d : Dev) (key : Nat) : (d.markRaised key).mirs = d.mirs := rfl
@[simp] theorem Dev.markRaised_pgs (d : Dev) (key : Nat) : (d.markRaised key).pgs = d.pgs := rfl
@[simp] theorem Dev.markRaised_free (d : Dev) (key : Nat) : (d.markRaised key).free = d.free := rfl
@[simp] theorem Dev.markRaised_out (d : Dev) (key : Nat) : (d.markRaised key).out = d.out := rfl
@[simp] theorem Dev.markRaised_rd (d : Dev) (key : Nat) (ro : Row) (b j : Nat) : (d.markRaised key).rd ro b j = d.rd ro b j := rfl

/-! ### `advance` -/

@[simp] theorem Dev.advance_regs (d : Dev) (n : Nat) : (d.advance n).regs = d.regs := rfl
@[simp] theorem Dev.advance_shadow (d : Dev) (n : Nat) : (d.advance n).shadow = d.shadow := rfl
@[simp] theorem Dev.advance_pend (d : Dev) (n : Nat) : (d.advance n).pend = d.pend := rfl
@[simp] theorem Dev.advance_lockRes (d : Dev) (n : Nat) : (d.advance n).lockRes = d.lockRes := rfl
@[simp] theorem Dev.advance_lease (d : Dev) (n : Nat) : (d.advance n).lease = d.lease := rfl
@[simp] theorem Dev.advance_snaps (d : Dev) (n : Nat) : (d.advance n).snaps = d.snaps := rfl
@[simp] theorem Dev.advance_lowWords (d : Dev) (n : Nat) : (d.advance n).lowWords = d.lowWords := rfl
@[simp] theorem Dev.advance_setsWritten (d : Dev) (n : Nat) : (d.advance n).setsWritten = d.setsWritten := rfl
@[simp] theorem Dev.advance_hosts (d : Dev) (n : Nat) : (d.advance n).hosts = d.hosts := rfl
@[simp] theorem Dev.advance_lastSec (d : Dev) (n : Nat) : (d.advance n).lastSec = d.lastSec := rfl
@[simp] theorem Dev.advance_sys (d : Dev) (n : Nat) : (d.advance n).sys = d.sys := rfl
@[simp] theorem Dev.advance_rgn (d : Dev) (n : Nat) : (d.advance n).rgn = d.rgn := rfl
@[simp] theorem Dev.advance_isl (d : Dev) (n : Nat) : (d.advance n).isl = d.isl := rfl
@[simp] theorem Dev.advance_nvm (d : Dev) (n : Nat) : (d.advance n).nvm = d.nvm := rfl
@[simp] theorem Dev.advance_ref (d : Dev) (n : Nat) : (d.advance n).ref = d.ref := rfl
@[simp] theorem Dev.advance_ptp (d : Dev) (n : Nat) : (d.advance n).ptp = d.ptp := rfl
@[simp] theorem Dev.advance_phaseEnd (d : Dev) (n : Nat) : (d.advance n).phaseEnd = d.phaseEnd := rfl
@[simp] theorem Dev.advance_adm (d : Dev) (n : Nat) : (d.advance n).adm = d.adm := rfl
@[simp] theorem Dev.advance_tags (d : Dev) (n : Nat) : (d.advance n).tags = d.tags := rfl
@[simp] theorem Dev.advance_chans (d : Dev) (n : Nat) : (d.advance n).chans = d.chans := rfl
@[simp] theorem Dev.advance_rends (d : Dev) (n : Nat) : (d.advance n).rends = d.rends := rfl
@[simp] theorem Dev.advance_olds (d : Dev) (n : Nat) : (d.advance n).olds = d.olds := rfl
@[simp] theorem Dev.advance_stats (d : Dev) (n : Nat) : (d.advance n).stats = d.stats := rfl
@[simp] theorem Dev.advance_strms (d : Dev) (n : Nat) : (d.advance n).strms = d.strms := rfl
@[simp] theorem Dev.advance_slots (d : Dev) (n : Nat) : (d.advance n).slots = d.slots := rfl
@[simp] theorem Dev.advance_ces (d : Dev) (n : Nat) : (d.advance n).ces = d.ces := rfl
@[simp] theorem Dev.advance_des (d : Dev) (n : Nat) : (d.advance n).des = d.des := rfl
@[simp] theorem Dev.advance_ras (d : Dev) (n : Nat) : (d.advance n).ras = d.ras := rfl
@[simp] theorem Dev.advance_flows (d : Dev) (n : Nat) : (d.advance n).flows = d.flows := rfl
@[simp] theorem Dev.advance_nodes (d : Dev) (n : Nat) : (d.advance n).nodes = d.nodes := rfl
@[simp] theorem Dev.advance_busy (d : Dev) (n : Nat) : (d.advance n).busy = d.busy := rfl
@[simp] theorem Dev.advance_lanes (d : Dev) (n : Nat) : (d.advance n).lanes = d.lanes := rfl
@[simp] theorem Dev.advance_leg (d : Dev) (n : Nat) : (d.advance n).leg = d.leg := rfl
@[simp] theorem Dev.advance_pols (d : Dev) (n : Nat) : (d.advance n).pols = d.pols := rfl
@[simp] theorem Dev.advance_mps (d : Dev) (n : Nat) : (d.advance n).mps = d.mps := rfl
@[simp] theorem Dev.advance_arbs (d : Dev) (n : Nat) : (d.advance n).arbs = d.arbs := rfl
@[simp] theorem Dev.advance_mirs (d : Dev) (n : Nat) : (d.advance n).mirs = d.mirs := rfl
@[simp] theorem Dev.advance_pgs (d : Dev) (n : Nat) : (d.advance n).pgs = d.pgs := rfl
@[simp] theorem Dev.advance_free (d : Dev) (n : Nat) : (d.advance n).free = d.free := rfl
@[simp] theorem Dev.advance_out (d : Dev) (n : Nat) : (d.advance n).out = d.out := rfl
@[simp] theorem Dev.advance_rd (d : Dev) (n : Nat) (ro : Row) (b j : Nat) : (d.advance n).rd ro b j = d.rd ro b j := rfl

/-! ### `setRegion` -/

@[simp] theorem Dev.setRegion_regs (d : Dev) (r : Nat) (f : Rgn → Rgn) : (d.setRegion r f).regs = d.regs := rfl
@[simp] theorem Dev.setRegion_shadow (d : Dev) (r : Nat) (f : Rgn → Rgn) : (d.setRegion r f).shadow = d.shadow := rfl
@[simp] theorem Dev.setRegion_pend (d : Dev) (r : Nat) (f : Rgn → Rgn) : (d.setRegion r f).pend = d.pend := rfl
@[simp] theorem Dev.setRegion_lockRes (d : Dev) (r : Nat) (f : Rgn → Rgn) : (d.setRegion r f).lockRes = d.lockRes := rfl
@[simp] theorem Dev.setRegion_lease (d : Dev) (r : Nat) (f : Rgn → Rgn) : (d.setRegion r f).lease = d.lease := rfl
@[simp] theorem Dev.setRegion_snaps (d : Dev) (r : Nat) (f : Rgn → Rgn) : (d.setRegion r f).snaps = d.snaps := rfl
@[simp] theorem Dev.setRegion_lowWords (d : Dev) (r : Nat) (f : Rgn → Rgn) : (d.setRegion r f).lowWords = d.lowWords := rfl
@[simp] theorem Dev.setRegion_setsWritten (d : Dev) (r : Nat) (f : Rgn → Rgn) : (d.setRegion r f).setsWritten = d.setsWritten := rfl
@[simp] theorem Dev.setRegion_hosts (d : Dev) (r : Nat) (f : Rgn → Rgn) : (d.setRegion r f).hosts = d.hosts := rfl
@[simp] theorem Dev.setRegion_lastSec (d : Dev) (r : Nat) (f : Rgn → Rgn) : (d.setRegion r f).lastSec = d.lastSec := rfl
@[simp] theorem Dev.setRegion_sys (d : Dev) (r : Nat) (f : Rgn → Rgn) : (d.setRegion r f).sys = d.sys := rfl
@[simp] theorem Dev.setRegion_isl (d : Dev) (r : Nat) (f : Rgn → Rgn) : (d.setRegion r f).isl = d.isl := rfl
@[simp] theorem Dev.setRegion_tbs (d : Dev) (r : Nat) (f : Rgn → Rgn) : (d.setRegion r f).tbs = d.tbs := rfl
@[simp] theorem Dev.setRegion_nvm (d : Dev) (r : Nat) (f : Rgn → Rgn) : (d.setRegion r f).nvm = d.nvm := rfl
@[simp] theorem Dev.setRegion_ref (d : Dev) (r : Nat) (f : Rgn → Rgn) : (d.setRegion r f).ref = d.ref := rfl
@[simp] theorem Dev.setRegion_ptp (d : Dev) (r : Nat) (f : Rgn → Rgn) : (d.setRegion r f).ptp = d.ptp := rfl
@[simp] theorem Dev.setRegion_phaseEnd (d : Dev) (r : Nat) (f : Rgn → Rgn) : (d.setRegion r f).phaseEnd = d.phaseEnd := rfl
@[simp] theorem Dev.setRegion_adm (d : Dev) (r : Nat) (f : Rgn → Rgn) : (d.setRegion r f).adm = d.adm := rfl
@[simp] theorem Dev.setRegion_tags (d : Dev) (r : Nat) (f : Rgn → Rgn) : (d.setRegion r f).tags = d.tags := rfl
@[simp] theorem Dev.setRegion_chans (d : Dev) (r : Nat) (f : Rgn → Rgn) : (d.setRegion r f).chans = d.chans := rfl
@[simp] theorem Dev.setRegion_rends (d : Dev) (r : Nat) (f : Rgn → Rgn) : (d.setRegion r f).rends = d.rends := rfl
@[simp] theorem Dev.setRegion_olds (d : Dev) (r : Nat) (f : Rgn → Rgn) : (d.setRegion r f).olds = d.olds := rfl
@[simp] theorem Dev.setRegion_stats (d : Dev) (r : Nat) (f : Rgn → Rgn) : (d.setRegion r f).stats = d.stats := rfl
@[simp] theorem Dev.setRegion_strms (d : Dev) (r : Nat) (f : Rgn → Rgn) : (d.setRegion r f).strms = d.strms := rfl
@[simp] theorem Dev.setRegion_slots (d : Dev) (r : Nat) (f : Rgn → Rgn) : (d.setRegion r f).slots = d.slots := rfl
@[simp] theorem Dev.setRegion_ces (d : Dev) (r : Nat) (f : Rgn → Rgn) : (d.setRegion r f).ces = d.ces := rfl
@[simp] theorem Dev.setRegion_des (d : Dev) (r : Nat) (f : Rgn → Rgn) : (d.setRegion r f).des = d.des := rfl
@[simp] theorem Dev.setRegion_ras (d : Dev) (r : Nat) (f : Rgn → Rgn) : (d.setRegion r f).ras = d.ras := rfl
@[simp] theorem Dev.setRegion_flows (d : Dev) (r : Nat) (f : Rgn → Rgn) : (d.setRegion r f).flows = d.flows := rfl
@[simp] theorem Dev.setRegion_nodes (d : Dev) (r : Nat) (f : Rgn → Rgn) : (d.setRegion r f).nodes = d.nodes := rfl
@[simp] theorem Dev.setRegion_busy (d : Dev) (r : Nat) (f : Rgn → Rgn) : (d.setRegion r f).busy = d.busy := rfl
@[simp] theorem Dev.setRegion_lanes (d : Dev) (r : Nat) (f : Rgn → Rgn) : (d.setRegion r f).lanes = d.lanes := rfl
@[simp] theorem Dev.setRegion_leg (d : Dev) (r : Nat) (f : Rgn → Rgn) : (d.setRegion r f).leg = d.leg := rfl
@[simp] theorem Dev.setRegion_pols (d : Dev) (r : Nat) (f : Rgn → Rgn) : (d.setRegion r f).pols = d.pols := rfl
@[simp] theorem Dev.setRegion_mps (d : Dev) (r : Nat) (f : Rgn → Rgn) : (d.setRegion r f).mps = d.mps := rfl
@[simp] theorem Dev.setRegion_arbs (d : Dev) (r : Nat) (f : Rgn → Rgn) : (d.setRegion r f).arbs = d.arbs := rfl
@[simp] theorem Dev.setRegion_mirs (d : Dev) (r : Nat) (f : Rgn → Rgn) : (d.setRegion r f).mirs = d.mirs := rfl
@[simp] theorem Dev.setRegion_pgs (d : Dev) (r : Nat) (f : Rgn → Rgn) : (d.setRegion r f).pgs = d.pgs := rfl
@[simp] theorem Dev.setRegion_free (d : Dev) (r : Nat) (f : Rgn → Rgn) : (d.setRegion r f).free = d.free := rfl
@[simp] theorem Dev.setRegion_out (d : Dev) (r : Nat) (f : Rgn → Rgn) : (d.setRegion r f).out = d.out := rfl
@[simp] theorem Dev.setRegion_rd (d : Dev) (r : Nat) (f : Rgn → Rgn) (ro : Row) (b j : Nat) : (d.setRegion r f).rd ro b j = d.rd ro b j := rfl

/-! ### `setIsland` -/

@[simp] theorem Dev.setIsland_regs (d : Dev) (r : Nat) (f : Isl → Isl) : (d.setIsland r f).regs = d.regs := rfl
@[simp] theorem Dev.setIsland_shadow (d : Dev) (r : Nat) (f : Isl → Isl) : (d.setIsland r f).shadow = d.shadow := rfl
@[simp] theorem Dev.setIsland_pend (d : Dev) (r : Nat) (f : Isl → Isl) : (d.setIsland r f).pend = d.pend := rfl
@[simp] theorem Dev.setIsland_lockRes (d : Dev) (r : Nat) (f : Isl → Isl) : (d.setIsland r f).lockRes = d.lockRes := rfl
@[simp] theorem Dev.setIsland_lease (d : Dev) (r : Nat) (f : Isl → Isl) : (d.setIsland r f).lease = d.lease := rfl
@[simp] theorem Dev.setIsland_snaps (d : Dev) (r : Nat) (f : Isl → Isl) : (d.setIsland r f).snaps = d.snaps := rfl
@[simp] theorem Dev.setIsland_lowWords (d : Dev) (r : Nat) (f : Isl → Isl) : (d.setIsland r f).lowWords = d.lowWords := rfl
@[simp] theorem Dev.setIsland_setsWritten (d : Dev) (r : Nat) (f : Isl → Isl) : (d.setIsland r f).setsWritten = d.setsWritten := rfl
@[simp] theorem Dev.setIsland_hosts (d : Dev) (r : Nat) (f : Isl → Isl) : (d.setIsland r f).hosts = d.hosts := rfl
@[simp] theorem Dev.setIsland_lastSec (d : Dev) (r : Nat) (f : Isl → Isl) : (d.setIsland r f).lastSec = d.lastSec := rfl
@[simp] theorem Dev.setIsland_sys (d : Dev) (r : Nat) (f : Isl → Isl) : (d.setIsland r f).sys = d.sys := rfl
@[simp] theorem Dev.setIsland_rgn (d : Dev) (r : Nat) (f : Isl → Isl) : (d.setIsland r f).rgn = d.rgn := rfl
@[simp] theorem Dev.setIsland_tbs (d : Dev) (r : Nat) (f : Isl → Isl) : (d.setIsland r f).tbs = d.tbs := rfl
@[simp] theorem Dev.setIsland_nvm (d : Dev) (r : Nat) (f : Isl → Isl) : (d.setIsland r f).nvm = d.nvm := rfl
@[simp] theorem Dev.setIsland_ref (d : Dev) (r : Nat) (f : Isl → Isl) : (d.setIsland r f).ref = d.ref := rfl
@[simp] theorem Dev.setIsland_ptp (d : Dev) (r : Nat) (f : Isl → Isl) : (d.setIsland r f).ptp = d.ptp := rfl
@[simp] theorem Dev.setIsland_phaseEnd (d : Dev) (r : Nat) (f : Isl → Isl) : (d.setIsland r f).phaseEnd = d.phaseEnd := rfl
@[simp] theorem Dev.setIsland_adm (d : Dev) (r : Nat) (f : Isl → Isl) : (d.setIsland r f).adm = d.adm := rfl
@[simp] theorem Dev.setIsland_tags (d : Dev) (r : Nat) (f : Isl → Isl) : (d.setIsland r f).tags = d.tags := rfl
@[simp] theorem Dev.setIsland_chans (d : Dev) (r : Nat) (f : Isl → Isl) : (d.setIsland r f).chans = d.chans := rfl
@[simp] theorem Dev.setIsland_rends (d : Dev) (r : Nat) (f : Isl → Isl) : (d.setIsland r f).rends = d.rends := rfl
@[simp] theorem Dev.setIsland_olds (d : Dev) (r : Nat) (f : Isl → Isl) : (d.setIsland r f).olds = d.olds := rfl
@[simp] theorem Dev.setIsland_stats (d : Dev) (r : Nat) (f : Isl → Isl) : (d.setIsland r f).stats = d.stats := rfl
@[simp] theorem Dev.setIsland_strms (d : Dev) (r : Nat) (f : Isl → Isl) : (d.setIsland r f).strms = d.strms := rfl
@[simp] theorem Dev.setIsland_slots (d : Dev) (r : Nat) (f : Isl → Isl) : (d.setIsland r f).slots = d.slots := rfl
@[simp] theorem Dev.setIsland_ces (d : Dev) (r : Nat) (f : Isl → Isl) : (d.setIsland r f).ces = d.ces := rfl
@[simp] theorem Dev.setIsland_des (d : Dev) (r : Nat) (f : Isl → Isl) : (d.setIsland r f).des = d.des := rfl
@[simp] theorem Dev.setIsland_ras (d : Dev) (r : Nat) (f : Isl → Isl) : (d.setIsland r f).ras = d.ras := rfl
@[simp] theorem Dev.setIsland_flows (d : Dev) (r : Nat) (f : Isl → Isl) : (d.setIsland r f).flows = d.flows := rfl
@[simp] theorem Dev.setIsland_nodes (d : Dev) (r : Nat) (f : Isl → Isl) : (d.setIsland r f).nodes = d.nodes := rfl
@[simp] theorem Dev.setIsland_busy (d : Dev) (r : Nat) (f : Isl → Isl) : (d.setIsland r f).busy = d.busy := rfl
@[simp] theorem Dev.setIsland_lanes (d : Dev) (r : Nat) (f : Isl → Isl) : (d.setIsland r f).lanes = d.lanes := rfl
@[simp] theorem Dev.setIsland_leg (d : Dev) (r : Nat) (f : Isl → Isl) : (d.setIsland r f).leg = d.leg := rfl
@[simp] theorem Dev.setIsland_pols (d : Dev) (r : Nat) (f : Isl → Isl) : (d.setIsland r f).pols = d.pols := rfl
@[simp] theorem Dev.setIsland_mps (d : Dev) (r : Nat) (f : Isl → Isl) : (d.setIsland r f).mps = d.mps := rfl
@[simp] theorem Dev.setIsland_arbs (d : Dev) (r : Nat) (f : Isl → Isl) : (d.setIsland r f).arbs = d.arbs := rfl
@[simp] theorem Dev.setIsland_mirs (d : Dev) (r : Nat) (f : Isl → Isl) : (d.setIsland r f).mirs = d.mirs := rfl
@[simp] theorem Dev.setIsland_pgs (d : Dev) (r : Nat) (f : Isl → Isl) : (d.setIsland r f).pgs = d.pgs := rfl
@[simp] theorem Dev.setIsland_free (d : Dev) (r : Nat) (f : Isl → Isl) : (d.setIsland r f).free = d.free := rfl
@[simp] theorem Dev.setIsland_out (d : Dev) (r : Nat) (f : Isl → Isl) : (d.setIsland r f).out = d.out := rfl
@[simp] theorem Dev.setIsland_rd (d : Dev) (r : Nat) (f : Isl → Isl) (ro : Row) (b j : Nat) : (d.setIsland r f).rd ro b j = d.rd ro b j := rfl

/-! ### `setHost` -/

@[simp] theorem Dev.setHost_regs (d : Dev) (h : Nat) (f : HostP → HostP) : (d.setHost h f).regs = d.regs := rfl
@[simp] theorem Dev.setHost_shadow (d : Dev) (h : Nat) (f : HostP → HostP) : (d.setHost h f).shadow = d.shadow := rfl
@[simp] theorem Dev.setHost_pend (d : Dev) (h : Nat) (f : HostP → HostP) : (d.setHost h f).pend = d.pend := rfl
@[simp] theorem Dev.setHost_lockRes (d : Dev) (h : Nat) (f : HostP → HostP) : (d.setHost h f).lockRes = d.lockRes := rfl
@[simp] theorem Dev.setHost_lease (d : Dev) (h : Nat) (f : HostP → HostP) : (d.setHost h f).lease = d.lease := rfl
@[simp] theorem Dev.setHost_snaps (d : Dev) (h : Nat) (f : HostP → HostP) : (d.setHost h f).snaps = d.snaps := rfl
@[simp] theorem Dev.setHost_lowWords (d : Dev) (h : Nat) (f : HostP → HostP) : (d.setHost h f).lowWords = d.lowWords := rfl
@[simp] theorem Dev.setHost_setsWritten (d : Dev) (h : Nat) (f : HostP → HostP) : (d.setHost h f).setsWritten = d.setsWritten := rfl
@[simp] theorem Dev.setHost_lastSec (d : Dev) (h : Nat) (f : HostP → HostP) : (d.setHost h f).lastSec = d.lastSec := rfl
@[simp] theorem Dev.setHost_sys (d : Dev) (h : Nat) (f : HostP → HostP) : (d.setHost h f).sys = d.sys := rfl
@[simp] theorem Dev.setHost_rgn (d : Dev) (h : Nat) (f : HostP → HostP) : (d.setHost h f).rgn = d.rgn := rfl
@[simp] theorem Dev.setHost_isl (d : Dev) (h : Nat) (f : HostP → HostP) : (d.setHost h f).isl = d.isl := rfl
@[simp] theorem Dev.setHost_tbs (d : Dev) (h : Nat) (f : HostP → HostP) : (d.setHost h f).tbs = d.tbs := rfl
@[simp] theorem Dev.setHost_nvm (d : Dev) (h : Nat) (f : HostP → HostP) : (d.setHost h f).nvm = d.nvm := rfl
@[simp] theorem Dev.setHost_ref (d : Dev) (h : Nat) (f : HostP → HostP) : (d.setHost h f).ref = d.ref := rfl
@[simp] theorem Dev.setHost_ptp (d : Dev) (h : Nat) (f : HostP → HostP) : (d.setHost h f).ptp = d.ptp := rfl
@[simp] theorem Dev.setHost_phaseEnd (d : Dev) (h : Nat) (f : HostP → HostP) : (d.setHost h f).phaseEnd = d.phaseEnd := rfl
@[simp] theorem Dev.setHost_adm (d : Dev) (h : Nat) (f : HostP → HostP) : (d.setHost h f).adm = d.adm := rfl
@[simp] theorem Dev.setHost_tags (d : Dev) (h : Nat) (f : HostP → HostP) : (d.setHost h f).tags = d.tags := rfl
@[simp] theorem Dev.setHost_chans (d : Dev) (h : Nat) (f : HostP → HostP) : (d.setHost h f).chans = d.chans := rfl
@[simp] theorem Dev.setHost_rends (d : Dev) (h : Nat) (f : HostP → HostP) : (d.setHost h f).rends = d.rends := rfl
@[simp] theorem Dev.setHost_olds (d : Dev) (h : Nat) (f : HostP → HostP) : (d.setHost h f).olds = d.olds := rfl
@[simp] theorem Dev.setHost_stats (d : Dev) (h : Nat) (f : HostP → HostP) : (d.setHost h f).stats = d.stats := rfl
@[simp] theorem Dev.setHost_strms (d : Dev) (h : Nat) (f : HostP → HostP) : (d.setHost h f).strms = d.strms := rfl
@[simp] theorem Dev.setHost_slots (d : Dev) (h : Nat) (f : HostP → HostP) : (d.setHost h f).slots = d.slots := rfl
@[simp] theorem Dev.setHost_ces (d : Dev) (h : Nat) (f : HostP → HostP) : (d.setHost h f).ces = d.ces := rfl
@[simp] theorem Dev.setHost_des (d : Dev) (h : Nat) (f : HostP → HostP) : (d.setHost h f).des = d.des := rfl
@[simp] theorem Dev.setHost_ras (d : Dev) (h : Nat) (f : HostP → HostP) : (d.setHost h f).ras = d.ras := rfl
@[simp] theorem Dev.setHost_flows (d : Dev) (h : Nat) (f : HostP → HostP) : (d.setHost h f).flows = d.flows := rfl
@[simp] theorem Dev.setHost_nodes (d : Dev) (h : Nat) (f : HostP → HostP) : (d.setHost h f).nodes = d.nodes := rfl
@[simp] theorem Dev.setHost_busy (d : Dev) (h : Nat) (f : HostP → HostP) : (d.setHost h f).busy = d.busy := rfl
@[simp] theorem Dev.setHost_lanes (d : Dev) (h : Nat) (f : HostP → HostP) : (d.setHost h f).lanes = d.lanes := rfl
@[simp] theorem Dev.setHost_leg (d : Dev) (h : Nat) (f : HostP → HostP) : (d.setHost h f).leg = d.leg := rfl
@[simp] theorem Dev.setHost_pols (d : Dev) (h : Nat) (f : HostP → HostP) : (d.setHost h f).pols = d.pols := rfl
@[simp] theorem Dev.setHost_mps (d : Dev) (h : Nat) (f : HostP → HostP) : (d.setHost h f).mps = d.mps := rfl
@[simp] theorem Dev.setHost_arbs (d : Dev) (h : Nat) (f : HostP → HostP) : (d.setHost h f).arbs = d.arbs := rfl
@[simp] theorem Dev.setHost_mirs (d : Dev) (h : Nat) (f : HostP → HostP) : (d.setHost h f).mirs = d.mirs := rfl
@[simp] theorem Dev.setHost_pgs (d : Dev) (h : Nat) (f : HostP → HostP) : (d.setHost h f).pgs = d.pgs := rfl
@[simp] theorem Dev.setHost_free (d : Dev) (h : Nat) (f : HostP → HostP) : (d.setHost h f).free = d.free := rfl
@[simp] theorem Dev.setHost_out (d : Dev) (h : Nat) (f : HostP → HostP) : (d.setHost h f).out = d.out := rfl
@[simp] theorem Dev.setHost_rd (d : Dev) (h : Nat) (f : HostP → HostP) (ro : Row) (b j : Nat) : (d.setHost h f).rd ro b j = d.rd ro b j := rfl

/-! ### `setNvm` -/

@[simp] theorem Dev.setNvm_regs (d : Dev) (f : Nvm → Nvm) : (d.setNvm f).regs = d.regs := rfl
@[simp] theorem Dev.setNvm_shadow (d : Dev) (f : Nvm → Nvm) : (d.setNvm f).shadow = d.shadow := rfl
@[simp] theorem Dev.setNvm_pend (d : Dev) (f : Nvm → Nvm) : (d.setNvm f).pend = d.pend := rfl
@[simp] theorem Dev.setNvm_lockRes (d : Dev) (f : Nvm → Nvm) : (d.setNvm f).lockRes = d.lockRes := rfl
@[simp] theorem Dev.setNvm_lease (d : Dev) (f : Nvm → Nvm) : (d.setNvm f).lease = d.lease := rfl
@[simp] theorem Dev.setNvm_snaps (d : Dev) (f : Nvm → Nvm) : (d.setNvm f).snaps = d.snaps := rfl
@[simp] theorem Dev.setNvm_lowWords (d : Dev) (f : Nvm → Nvm) : (d.setNvm f).lowWords = d.lowWords := rfl
@[simp] theorem Dev.setNvm_setsWritten (d : Dev) (f : Nvm → Nvm) : (d.setNvm f).setsWritten = d.setsWritten := rfl
@[simp] theorem Dev.setNvm_hosts (d : Dev) (f : Nvm → Nvm) : (d.setNvm f).hosts = d.hosts := rfl
@[simp] theorem Dev.setNvm_lastSec (d : Dev) (f : Nvm → Nvm) : (d.setNvm f).lastSec = d.lastSec := rfl
@[simp] theorem Dev.setNvm_sys (d : Dev) (f : Nvm → Nvm) : (d.setNvm f).sys = d.sys := rfl
@[simp] theorem Dev.setNvm_rgn (d : Dev) (f : Nvm → Nvm) : (d.setNvm f).rgn = d.rgn := rfl
@[simp] theorem Dev.setNvm_isl (d : Dev) (f : Nvm → Nvm) : (d.setNvm f).isl = d.isl := rfl
@[simp] theorem Dev.setNvm_tbs (d : Dev) (f : Nvm → Nvm) : (d.setNvm f).tbs = d.tbs := rfl
@[simp] theorem Dev.setNvm_ref (d : Dev) (f : Nvm → Nvm) : (d.setNvm f).ref = d.ref := rfl
@[simp] theorem Dev.setNvm_ptp (d : Dev) (f : Nvm → Nvm) : (d.setNvm f).ptp = d.ptp := rfl
@[simp] theorem Dev.setNvm_phaseEnd (d : Dev) (f : Nvm → Nvm) : (d.setNvm f).phaseEnd = d.phaseEnd := rfl
@[simp] theorem Dev.setNvm_adm (d : Dev) (f : Nvm → Nvm) : (d.setNvm f).adm = d.adm := rfl
@[simp] theorem Dev.setNvm_tags (d : Dev) (f : Nvm → Nvm) : (d.setNvm f).tags = d.tags := rfl
@[simp] theorem Dev.setNvm_chans (d : Dev) (f : Nvm → Nvm) : (d.setNvm f).chans = d.chans := rfl
@[simp] theorem Dev.setNvm_rends (d : Dev) (f : Nvm → Nvm) : (d.setNvm f).rends = d.rends := rfl
@[simp] theorem Dev.setNvm_olds (d : Dev) (f : Nvm → Nvm) : (d.setNvm f).olds = d.olds := rfl
@[simp] theorem Dev.setNvm_stats (d : Dev) (f : Nvm → Nvm) : (d.setNvm f).stats = d.stats := rfl
@[simp] theorem Dev.setNvm_strms (d : Dev) (f : Nvm → Nvm) : (d.setNvm f).strms = d.strms := rfl
@[simp] theorem Dev.setNvm_slots (d : Dev) (f : Nvm → Nvm) : (d.setNvm f).slots = d.slots := rfl
@[simp] theorem Dev.setNvm_ces (d : Dev) (f : Nvm → Nvm) : (d.setNvm f).ces = d.ces := rfl
@[simp] theorem Dev.setNvm_des (d : Dev) (f : Nvm → Nvm) : (d.setNvm f).des = d.des := rfl
@[simp] theorem Dev.setNvm_ras (d : Dev) (f : Nvm → Nvm) : (d.setNvm f).ras = d.ras := rfl
@[simp] theorem Dev.setNvm_flows (d : Dev) (f : Nvm → Nvm) : (d.setNvm f).flows = d.flows := rfl
@[simp] theorem Dev.setNvm_nodes (d : Dev) (f : Nvm → Nvm) : (d.setNvm f).nodes = d.nodes := rfl
@[simp] theorem Dev.setNvm_busy (d : Dev) (f : Nvm → Nvm) : (d.setNvm f).busy = d.busy := rfl
@[simp] theorem Dev.setNvm_lanes (d : Dev) (f : Nvm → Nvm) : (d.setNvm f).lanes = d.lanes := rfl
@[simp] theorem Dev.setNvm_leg (d : Dev) (f : Nvm → Nvm) : (d.setNvm f).leg = d.leg := rfl
@[simp] theorem Dev.setNvm_pols (d : Dev) (f : Nvm → Nvm) : (d.setNvm f).pols = d.pols := rfl
@[simp] theorem Dev.setNvm_mps (d : Dev) (f : Nvm → Nvm) : (d.setNvm f).mps = d.mps := rfl
@[simp] theorem Dev.setNvm_arbs (d : Dev) (f : Nvm → Nvm) : (d.setNvm f).arbs = d.arbs := rfl
@[simp] theorem Dev.setNvm_mirs (d : Dev) (f : Nvm → Nvm) : (d.setNvm f).mirs = d.mirs := rfl
@[simp] theorem Dev.setNvm_pgs (d : Dev) (f : Nvm → Nvm) : (d.setNvm f).pgs = d.pgs := rfl
@[simp] theorem Dev.setNvm_free (d : Dev) (f : Nvm → Nvm) : (d.setNvm f).free = d.free := rfl
@[simp] theorem Dev.setNvm_out (d : Dev) (f : Nvm → Nvm) : (d.setNvm f).out = d.out := rfl
@[simp] theorem Dev.setNvm_rd (d : Dev) (f : Nvm → Nvm) (ro : Row) (b j : Nat) : (d.setNvm f).rd ro b j = d.rd ro b j := rfl

@[simp] theorem Dev.emit_out (d : Dev) (o : Out) : (d.emit o).out = d.out ++ [o] := rfl
@[simp] theorem Dev.freeNext_free (d : Dev) : d.freeNext.free = d.free + 1 := rfl
@[simp] theorem Dev.setNvm_nvm (d : Dev) (f : Nvm → Nvm) : (d.setNvm f).nvm = f d.nvm := rfl

/-! ### Reads after writes -/

@[simp] theorem Dev.rd_wr_same (d : Dev) (row : Row) (base v i : Nat) : (d.wr row base v i).rd row base i = v % 2 ^ row.width := by
  simp [Dev.rd, Dev.wr]

theorem Dev.rd_wr_ne (d : Dev) (row row' : Row) (base v i base' i' : Nat) (h : row'.key base' i' ≠ row.key base i) :
    (d.wr row base v i).rd row' base' i' = d.rd row' base' i' := stGet_stSet_ne _ _ _ _ _ _ _ _ h

@[simp] theorem Dev.wr_inc (d : Dev) (row : Row) (base i : Nat) :
    (d.inc row base i).rd row base i = min (d.rd row base i + 1) (2 ^ row.width - 1) := by
  have h : min (d.rd row base i + 1) (2 ^ row.width - 1) < 2 ^ row.width := by
    have := Nat.two_pow_pos row.width
    omega
  simp [Dev.inc, Dev.incBy, Nat.mod_eq_of_lt h]

@[simp] theorem Dev.setRegion_region (d : Dev) (r : Nat) (f : Rgn → Rgn) : (d.setRegion r f).region r = f (d.region r) := by
  simp [Dev.region, Dev.setRegion]

@[simp] theorem Dev.setIsland_island (d : Dev) (r : Nat) (f : Isl → Isl) : (d.setIsland r f).island r = f (d.island r) := by
  simp [Dev.island, Dev.setIsland]

@[simp] theorem Dev.setHost_host (d : Dev) (h : Nat) (f : HostP → HostP) : (d.setHost h f).host h = f (d.host h) := by
  simp [Dev.host, Dev.setHost]

/-! ### Commands -/

@[simp] theorem State.onDev_eq (s : State) (f : Dev → Dev) : s.onDev f = .next { s with dev := f s.dev } := rfl

end Sys2Proof.Machine
end

