-- ==== Sys2Proof/Laws/Body.lean ====
section
/-! SUPPORT. What events, errors, the fault log and broken locks leave alone. `Dev.body` is the device without its registers, host
ports, locks, log and outputs; those operations keep it, so a field of the body is the same after them. -/

namespace Sys2Proof.Machine

@[simp] theorem Dev.body_body (d : Dev) : d.body.body = d.body := rfl
@[simp] theorem Dev.wr_body (d : Dev) (row : Row) (base v i : Nat) : (d.wr row base v i).body = d.body := rfl
@[simp] theorem Dev.wrB_body (d : Dev) (row : Row) (base : Nat) (b : Bool) (i : Nat) : (d.wrB row base b i).body = d.body := rfl
@[simp] theorem Dev.wrI_body (d : Dev) (row : Row) (base : Nat) (v : Int) (i : Nat) : (d.wrI row base v i).body = d.body := rfl
@[simp] theorem Dev.wrPair_body (d : Dev) (lo hi : Row) (base v i : Nat) : (d.wrPair lo hi base v i).body = d.body := rfl
@[simp] theorem Dev.incBy_body (d : Dev) (row : Row) (base n i : Nat) : (d.incBy row base n i).body = d.body := rfl
@[simp] theorem Dev.inc_body (d : Dev) (row : Row) (base i : Nat) : (d.inc row base i).body = d.body := rfl
@[simp] theorem Dev.incWrap_body (d : Dev) (row : Row) (base i : Nat) : (d.incWrap row base i).body = d.body := rfl
@[simp] theorem Dev.wrS_body (d : Dev) (row : Row) (base v i : Nat) : (d.wrS row base v i).body = d.body := rfl
@[simp] theorem Dev.emit_body (d : Dev) (o : Out) : (d.emit o).body = d.body := rfl
@[simp] theorem Dev.freeNext_body (d : Dev) : d.freeNext.body = d.body := rfl
@[simp] theorem Dev.markRaised_body (d : Dev) (key : Nat) : (d.markRaised key).body = d.body := rfl
@[simp] theorem Dev.setHost_body (d : Dev) (h : Nat) (f : HostP → HostP) : (d.setHost h f).body = d.body := rfl
@[simp] theorem Dev.setNvm_body (d : Dev) (f : Nvm → Nvm) : (d.setNvm f).body = d.body := rfl
@[simp] theorem Dev.setArmed_body (d : Dev) (h v : Nat) (b : Bool) : (d.setArmed h v b).body = d.body := rfl
@[simp] theorem Dev.countErr_body (d : Dev) (page : Nat) : (d.countErr page).body = d.body := rfl

theorem Dev.when_body (d : Dev) (b : Bool) (f : Dev → Dev) (h : ∀ x : Dev, (f x).body = x.body) : (d.when b f).body = d.body := by
  unfold Dev.when
  split
  · exact h d
  · rfl

theorem Dev.each_body {α : Type} (d : Dev) (l : List α) (f : Dev → α → Dev) (h : ∀ (x : Dev) a, (f x a).body = x.body) :
    (d.each l f).body = d.body := by
  unfold Dev.each
  induction l generalizing d with
  | nil => rfl
  | cons a l ih => exact (ih (f d a)).trans (h d a)

@[simp] theorem Dev.signal_body (d : Dev) (h v : Nat) : (d.signal h v).body = d.body := by
  unfold Dev.signal
  split
  · rfl
  · dsimp only
    split <;> simp

@[simp] theorem Dev.ringWrite_body (d : Dev) (h src bit obj info err : Nat) (inj : Bool) :
    (d.ringWrite h src bit obj info err inj).body = d.body := by
  unfold Dev.ringWrite
  split
  · split <;> simp
  · rfl

@[simp] theorem Dev.occur_body (d : Dev) (page bit obj info err : Nat) (inj : Bool) :
    (d.occur page bit obj info err inj).body = d.body := by
  unfold Dev.occur
  dsimp only
  split
  · simp
  · split
    · rw [Dev.when_body _ _ _ (fun x => Dev.signal_body x _ _), Dev.when_body _ _ _ (fun x => Dev.signal_body x _ _)]
      simp
    · simp

@[simp] theorem Dev.evrOvf_body (d : Dev) (h : Nat) : (d.evrOvf h).body = d.body := by
  unfold Dev.evrOvf
  split <;> simp

/-- An event keeps the body. -/
@[simp] theorem Dev.event_body (d : Dev) (page bit obj info err : Nat) (inj : Bool) :
    (d.event page bit obj info err inj).body = d.body := by
  unfold Dev.event
  simp only []
  rw [Dev.when_body _ _ _ (fun x => Dev.evrOvf_body x _), Dev.when_body _ _ _ (fun x => Dev.evrOvf_body x _)]
  simp

@[simp] theorem Dev.syncTail_body (d : Dev) : d.syncTail.body = d.body := by
  unfold Dev.syncTail
  split <;> simp

@[simp] theorem Dev.logPut_body (d : Dev) (e : LogEntry) : (d.logPut e).body = d.body := by
  unfold Dev.logPut
  split <;> simp

theorem Dev.foldl_body {α : Type} (l : List α) (f : Dev → α → Dev) (d : Dev) (h : ∀ (x : Dev) a, (f x a).body = x.body) :
    (l.foldl f d).body = d.body := Dev.each_body d l f h

@[simp] theorem Dev.pfailEntries_body (d : Dev) : d.pfailEntries.body = d.body := by
  unfold Dev.pfailEntries
  rw [Dev.foldl_body _ _ _ (fun x a => Dev.logPut_body x _)]
  simp

@[simp] theorem Dev.storeStart_body (d : Dev) (j : StoreJob) (rest : List StoreJob) : (d.storeStart j rest).body = d.body := by
  unfold Dev.storeStart
  simp only []
  split
  · simp
  · split <;> simp

@[simp] theorem Dev.storeNext_body (d : Dev) : d.storeNext.body = d.body := by
  unfold Dev.storeNext
  simp only []
  have hw : ∀ x : Dev, (x.when (x.nvm.buf.isEmpty && x.nvm.pfailLog.isEmpty) (fun d =>
      d.setNvm (fun n => { n with queue := n.queue.filter (fun j => j.record != 5) }))).body = x.body :=
    fun x => Dev.when_body _ _ _ (fun y => Dev.setNvm_body y _)
  repeat' split
  all_goals simp [hw]

@[simp] theorem Dev.storeReq_body (d : Dev) (j : StoreJob) (first : Bool) : (d.storeReq j first).body = d.body := by
  unfold Dev.storeReq
  simp

@[simp] theorem Dev.logAdd_body (d : Dev) (kind sev region src code info obj flags : Nat) (detail : List Nat) :
    (d.logAdd kind sev region src code info obj flags detail).body = d.body := by
  unfold Dev.logAdd Dev.logStore
  dsimp only
  split
  · simp
  · split <;> simp

/-- An error keeps the body. -/
@[simp] theorem Dev.err_body (d : Dev) (page code sev info : Nat) (inj : Bool) (detail : List Nat) (obj : Nat) :
    (d.err page code sev info inj detail obj).body = d.body := by
  unfold Dev.err
  simp only [Dev.event_body]
  rw [Dev.when_body _ _ _ (fun x => Dev.logAdd_body x _ _ _ _ _ _ _ _ _), Dev.when_body _ _ _ (fun x => Dev.setNvm_body x _)]
  simp

/-- A write that is ignored and counted keeps the body. -/
@[simp] theorem Dev.ignored_body (d : Dev) (page code : Nat) : (d.ignored page code).body = d.body := by
  unfold Dev.ignored
  simp

@[simp] theorem Dev.restartLease_body (d : Dev) (page : Nat) : (d.restartLease page).body = d.body := by
  unfold Dev.restartLease
  simp only []
  split <;> rfl

@[simp] theorem Dev.breakLock_body (d : Dev) (page : Nat) : (d.breakLock page).body = d.body := by
  unfold Dev.breakLock
  simp only []
  split
  · rfl
  · simp only [Dev.event_body]
    rfl

@[simp] theorem Dev.expire_body (d : Dev) (page : Nat) : (d.expire page).body = d.body := by
  unfold Dev.expire
  split
  · split <;> simp
  · rfl

/-- The lock rules around a command that keeps the body. -/
theorem Dev.locked_body (d : Dev) (w page : Nat) (f : Dev → Dev) (h : ∀ x : Dev, (f x).body = x.body) :
    (d.locked w page f).body = d.body := by
  unfold Dev.locked
  split
  · rfl
  · simp only []
    split <;> simp [h]

/-- Equal bodies have equal fields. -/
theorem Dev.body_fields {d e : Dev} (h : d.body = e.body) :
    d.chans = e.chans ∧ d.rends = e.rends ∧ d.olds = e.olds ∧ d.rgn = e.rgn ∧ d.isl = e.isl ∧ d.tbs = e.tbs ∧ d.sys = e.sys
      ∧ d.adm = e.adm ∧ d.ras = e.ras ∧ d.flows = e.flows ∧ d.strms = e.strms ∧ d.slots = e.slots ∧ d.ces = e.ces ∧ d.des = e.des
      ∧ d.mps = e.mps ∧ d.arbs = e.arbs ∧ d.pgs = e.pgs ∧ d.mirs = e.mirs ∧ d.lanes = e.lanes ∧ d.leg = e.leg ∧ d.ref = e.ref
      ∧ d.ptp = e.ptp ∧ d.nodes = e.nodes ∧ d.busy = e.busy ∧ d.pols = e.pols ∧ d.stats = e.stats ∧ d.pend = e.pend := by
  have g {α : Type} (f : Dev → α) : f d.body = f e.body := congrArg f h
  exact ⟨g Dev.chans, g Dev.rends, g Dev.olds, g Dev.rgn, g Dev.isl, g Dev.tbs, g Dev.sys, g Dev.adm, g Dev.ras, g Dev.flows,
    g Dev.strms, g Dev.slots, g Dev.ces, g Dev.des, g Dev.mps, g Dev.arbs, g Dev.pgs, g Dev.mirs, g Dev.lanes, g Dev.leg, g Dev.ref,
    g Dev.ptp, g Dev.nodes, g Dev.busy, g Dev.pols, g Dev.stats, g Dev.pend⟩

end Sys2Proof.Machine
end

