-- ==== Sys2Proof/Laws/Updates.lean ====
section
/-! SUPPORT. What each change of one record of the device leaves in every field, what is read of the record after it, and what the passing
of time up to an instant leaves alone. -/

namespace Sys2Proof.Machine

/-! ### `setChan` -/

@[simp] theorem Dev.setChan_regs (d : Dev) (c : Nat) (f : Chan → Chan) : (d.setChan c f).regs = d.regs := rfl
@[simp] theorem Dev.setChan_shadow (d : Dev) (c : Nat) (f : Chan → Chan) : (d.setChan c f).shadow = d.shadow := rfl
@[simp] theorem Dev.setChan_pend (d : Dev) (c : Nat) (f : Chan → Chan) : (d.setChan c f).pend = d.pend := rfl
@[simp] theorem Dev.setChan_lockRes (d : Dev) (c : Nat) (f : Chan → Chan) : (d.setChan c f).lockRes = d.lockRes := rfl
@[simp] theorem Dev.setChan_lease (d : Dev) (c : Nat) (f : Chan → Chan) : (d.setChan c f).lease = d.lease := rfl
@[simp] theorem Dev.setChan_snaps (d : Dev) (c : Nat) (f : Chan → Chan) : (d.setChan c f).snaps = d.snaps := rfl
@[simp] theorem Dev.setChan_lowWords (d : Dev) (c : Nat) (f : Chan → Chan) : (d.setChan c f).lowWords = d.lowWords := rfl
@[simp] theorem Dev.setChan_setsWritten (d : Dev) (c : Nat) (f : Chan → Chan) : (d.setChan c f).setsWritten = d.setsWritten := rfl
@[simp] theorem Dev.setChan_hosts (d : Dev) (c : Nat) (f : Chan → Chan) : (d.setChan c f).hosts = d.hosts := rfl
@[simp] theorem Dev.setChan_lastSec (d : Dev) (c : Nat) (f : Chan → Chan) : (d.setChan c f).lastSec = d.lastSec := rfl
@[simp] theorem Dev.setChan_sys (d : Dev) (c : Nat) (f : Chan → Chan) : (d.setChan c f).sys = d.sys := rfl
@[simp] theorem Dev.setChan_rgn (d : Dev) (c : Nat) (f : Chan → Chan) : (d.setChan c f).rgn = d.rgn := rfl
@[simp] theorem Dev.setChan_isl (d : Dev) (c : Nat) (f : Chan → Chan) : (d.setChan c f).isl = d.isl := rfl
@[simp] theorem Dev.setChan_tbs (d : Dev) (c : Nat) (f : Chan → Chan) : (d.setChan c f).tbs = d.tbs := rfl
@[simp] theorem Dev.setChan_nvm (d : Dev) (c : Nat) (f : Chan → Chan) : (d.setChan c f).nvm = d.nvm := rfl
@[simp] theorem Dev.setChan_ref (d : Dev) (c : Nat) (f : Chan → Chan) : (d.setChan c f).ref = d.ref := rfl
@[simp] theorem Dev.setChan_ptp (d : Dev) (c : Nat) (f : Chan → Chan) : (d.setChan c f).ptp = d.ptp := rfl
@[simp] theorem Dev.setChan_phaseEnd (d : Dev) (c : Nat) (f : Chan → Chan) : (d.setChan c f).phaseEnd = d.phaseEnd := rfl
@[simp] theorem Dev.setChan_adm (d : Dev) (c : Nat) (f : Chan → Chan) : (d.setChan c f).adm = d.adm := rfl
@[simp] theorem Dev.setChan_tags (d : Dev) (c : Nat) (f : Chan → Chan) : (d.setChan c f).tags = d.tags := rfl
@[simp] theorem Dev.setChan_rends (d : Dev) (c : Nat) (f : Chan → Chan) : (d.setChan c f).rends = d.rends := rfl
@[simp] theorem Dev.setChan_olds (d : Dev) (c : Nat) (f : Chan → Chan) : (d.setChan c f).olds = d.olds := rfl
@[simp] theorem Dev.setChan_stats (d : Dev) (c : Nat) (f : Chan → Chan) : (d.setChan c f).stats = d.stats := rfl
@[simp] theorem Dev.setChan_strms (d : Dev) (c : Nat) (f : Chan → Chan) : (d.setChan c f).strms = d.strms := rfl
@[simp] theorem Dev.setChan_slots (d : Dev) (c : Nat) (f : Chan → Chan) : (d.setChan c f).slots = d.slots := rfl
@[simp] theorem Dev.setChan_ces (d : Dev) (c : Nat) (f : Chan → Chan) : (d.setChan c f).ces = d.ces := rfl
@[simp] theorem Dev.setChan_des (d : Dev) (c : Nat) (f : Chan → Chan) : (d.setChan c f).des = d.des := rfl
@[simp] theorem Dev.setChan_ras (d : Dev) (c : Nat) (f : Chan → Chan) : (d.setChan c f).ras = d.ras := rfl
@[simp] theorem Dev.setChan_flows (d : Dev) (c : Nat) (f : Chan → Chan) : (d.setChan c f).flows = d.flows := rfl
@[simp] theorem Dev.setChan_nodes (d : Dev) (c : Nat) (f : Chan → Chan) : (d.setChan c f).nodes = d.nodes := rfl
@[simp] theorem Dev.setChan_busy (d : Dev) (c : Nat) (f : Chan → Chan) : (d.setChan c f).busy = d.busy := rfl
@[simp] theorem Dev.setChan_lanes (d : Dev) (c : Nat) (f : Chan → Chan) : (d.setChan c f).lanes = d.lanes := rfl
@[simp] theorem Dev.setChan_leg (d : Dev) (c : Nat) (f : Chan → Chan) : (d.setChan c f).leg = d.leg := rfl
@[simp] theorem Dev.setChan_pols (d : Dev) (c : Nat) (f : Chan → Chan) : (d.setChan c f).pols = d.pols := rfl
@[simp] theorem Dev.setChan_mps (d : Dev) (c : Nat) (f : Chan → Chan) : (d.setChan c f).mps = d.mps := rfl
@[simp] theorem Dev.setChan_arbs (d : Dev) (c : Nat) (f : Chan → Chan) : (d.setChan c f).arbs = d.arbs := rfl
@[simp] theorem Dev.setChan_mirs (d : Dev) (c : Nat) (f : Chan → Chan) : (d.setChan c f).mirs = d.mirs := rfl
@[simp] theorem Dev.setChan_pgs (d : Dev) (c : Nat) (f : Chan → Chan) : (d.setChan c f).pgs = d.pgs := rfl
@[simp] theorem Dev.setChan_free (d : Dev) (c : Nat) (f : Chan → Chan) : (d.setChan c f).free = d.free := rfl
@[simp] theorem Dev.setChan_out (d : Dev) (c : Nat) (f : Chan → Chan) : (d.setChan c f).out = d.out := rfl
@[simp] theorem Dev.setChan_rd (d : Dev) (c : Nat) (f : Chan → Chan) (row : Row) (base i : Nat) :
    (d.setChan c f).rd row base i = d.rd row base i := rfl
@[simp] theorem Dev.setChan_now (d : Dev) (c : Nat) (f : Chan → Chan) : (d.setChan c f).now = d.now := rfl
@[simp] theorem Dev.setChan_chan (d : Dev) (c : Nat) (f : Chan → Chan) : (d.setChan c f).chan c = f (d.chan c) := by
  simp [Dev.chan, Dev.setChan]

/-! ### `setRend` -/

@[simp] theorem Dev.setRend_regs (d : Dev) (c rd : Nat) (f : Rend → Rend) : (d.setRend c rd f).regs = d.regs := rfl
@[simp] theorem Dev.setRend_shadow (d : Dev) (c rd : Nat) (f : Rend → Rend) : (d.setRend c rd f).shadow = d.shadow := rfl
@[simp] theorem Dev.setRend_pend (d : Dev) (c rd : Nat) (f : Rend → Rend) : (d.setRend c rd f).pend = d.pend := rfl
@[simp] theorem Dev.setRend_lockRes (d : Dev) (c rd : Nat) (f : Rend → Rend) : (d.setRend c rd f).lockRes = d.lockRes := rfl
@[simp] theorem Dev.setRend_lease (d : Dev) (c rd : Nat) (f : Rend → Rend) : (d.setRend c rd f).lease = d.lease := rfl
@[simp] theorem Dev.setRend_snaps (d : Dev) (c rd : Nat) (f : Rend → Rend) : (d.setRend c rd f).snaps = d.snaps := rfl
@[simp] theorem Dev.setRend_lowWords (d : Dev) (c rd : Nat) (f : Rend → Rend) : (d.setRend c rd f).lowWords = d.lowWords := rfl
@[simp] theorem Dev.setRend_setsWritten (d : Dev) (c rd : Nat) (f : Rend → Rend) : (d.setRend c rd f).setsWritten = d.setsWritten := rfl
@[simp] theorem Dev.setRend_hosts (d : Dev) (c rd : Nat) (f : Rend → Rend) : (d.setRend c rd f).hosts = d.hosts := rfl
@[simp] theorem Dev.setRend_lastSec (d : Dev) (c rd : Nat) (f : Rend → Rend) : (d.setRend c rd f).lastSec = d.lastSec := rfl
@[simp] theorem Dev.setRend_sys (d : Dev) (c rd : Nat) (f : Rend → Rend) : (d.setRend c rd f).sys = d.sys := rfl
@[simp] theorem Dev.setRend_rgn (d : Dev) (c rd : Nat) (f : Rend → Rend) : (d.setRend c rd f).rgn = d.rgn := rfl
@[simp] theorem Dev.setRend_isl (d : Dev) (c rd : Nat) (f : Rend → Rend) : (d.setRend c rd f).isl = d.isl := rfl
@[simp] theorem Dev.setRend_tbs (d : Dev) (c rd : Nat) (f : Rend → Rend) : (d.setRend c rd f).tbs = d.tbs := rfl
@[simp] theorem Dev.setRend_nvm (d : Dev) (c rd : Nat) (f : Rend → Rend) : (d.setRend c rd f).nvm = d.nvm := rfl
@[simp] theorem Dev.setRend_ref (d : Dev) (c rd : Nat) (f : Rend → Rend) : (d.setRend c rd f).ref = d.ref := rfl
@[simp] theorem Dev.setRend_ptp (d : Dev) (c rd : Nat) (f : Rend → Rend) : (d.setRend c rd f).ptp = d.ptp := rfl
@[simp] theorem Dev.setRend_phaseEnd (d : Dev) (c rd : Nat) (f : Rend → Rend) : (d.setRend c rd f).phaseEnd = d.phaseEnd := rfl
@[simp] theorem Dev.setRend_adm (d : Dev) (c rd : Nat) (f : Rend → Rend) : (d.setRend c rd f).adm = d.adm := rfl
@[simp] theorem Dev.setRend_tags (d : Dev) (c rd : Nat) (f : Rend → Rend) : (d.setRend c rd f).tags = d.tags := rfl
@[simp] theorem Dev.setRend_chans (d : Dev) (c rd : Nat) (f : Rend → Rend) : (d.setRend c rd f).chans = d.chans := rfl
@[simp] theorem Dev.setRend_olds (d : Dev) (c rd : Nat) (f : Rend → Rend) : (d.setRend c rd f).olds = d.olds := rfl
@[simp] theorem Dev.setRend_stats (d : Dev) (c rd : Nat) (f : Rend → Rend) : (d.setRend c rd f).stats = d.stats := rfl
@[simp] theorem Dev.setRend_strms (d : Dev) (c rd : Nat) (f : Rend → Rend) : (d.setRend c rd f).strms = d.strms := rfl
@[simp] theorem Dev.setRend_slots (d : Dev) (c rd : Nat) (f : Rend → Rend) : (d.setRend c rd f).slots = d.slots := rfl
@[simp] theorem Dev.setRend_ces (d : Dev) (c rd : Nat) (f : Rend → Rend) : (d.setRend c rd f).ces = d.ces := rfl
@[simp] theorem Dev.setRend_des (d : Dev) (c rd : Nat) (f : Rend → Rend) : (d.setRend c rd f).des = d.des := rfl
@[simp] theorem Dev.setRend_ras (d : Dev) (c rd : Nat) (f : Rend → Rend) : (d.setRend c rd f).ras = d.ras := rfl
@[simp] theorem Dev.setRend_flows (d : Dev) (c rd : Nat) (f : Rend → Rend) : (d.setRend c rd f).flows = d.flows := rfl
@[simp] theorem Dev.setRend_nodes (d : Dev) (c rd : Nat) (f : Rend → Rend) : (d.setRend c rd f).nodes = d.nodes := rfl
@[simp] theorem Dev.setRend_busy (d : Dev) (c rd : Nat) (f : Rend → Rend) : (d.setRend c rd f).busy = d.busy := rfl
@[simp] theorem Dev.setRend_lanes (d : Dev) (c rd : Nat) (f : Rend → Rend) : (d.setRend c rd f).lanes = d.lanes := rfl
@[simp] theorem Dev.setRend_leg (d : Dev) (c rd : Nat) (f : Rend → Rend) : (d.setRend c rd f).leg = d.leg := rfl
@[simp] theorem Dev.setRend_pols (d : Dev) (c rd : Nat) (f : Rend → Rend) : (d.setRend c rd f).pols = d.pols := rfl
@[simp] theorem Dev.setRend_mps (d : Dev) (c rd : Nat) (f : Rend → Rend) : (d.setRend c rd f).mps = d.mps := rfl
@[simp] theorem Dev.setRend_arbs (d : Dev) (c rd : Nat) (f : Rend → Rend) : (d.setRend c rd f).arbs = d.arbs := rfl
@[simp] theorem Dev.setRend_mirs (d : Dev) (c rd : Nat) (f : Rend → Rend) : (d.setRend c rd f).mirs = d.mirs := rfl
@[simp] theorem Dev.setRend_pgs (d : Dev) (c rd : Nat) (f : Rend → Rend) : (d.setRend c rd f).pgs = d.pgs := rfl
@[simp] theorem Dev.setRend_free (d : Dev) (c rd : Nat) (f : Rend → Rend) : (d.setRend c rd f).free = d.free := rfl
@[simp] theorem Dev.setRend_out (d : Dev) (c rd : Nat) (f : Rend → Rend) : (d.setRend c rd f).out = d.out := rfl
@[simp] theorem Dev.setRend_rd (d : Dev) (c rd : Nat) (f : Rend → Rend) (row : Row) (base i : Nat) :
    (d.setRend c rd f).rd row base i = d.rd row base i := rfl
@[simp] theorem Dev.setRend_now (d : Dev) (c rd : Nat) (f : Rend → Rend) : (d.setRend c rd f).now = d.now := rfl
@[simp] theorem Dev.setRend_rend (d : Dev) (c rd : Nat) (f : Rend → Rend) : (d.setRend c rd f).rend c rd = f (d.rend c rd) := by
  simp [Dev.rend, Dev.setRend]

/-! ### `setRach` -/

@[simp] theorem Dev.setRach_regs (d : Dev) (r : Nat) (f : Rachis → Rachis) : (d.setRach r f).regs = d.regs := rfl
@[simp] theorem Dev.setRach_shadow (d : Dev) (r : Nat) (f : Rachis → Rachis) : (d.setRach r f).shadow = d.shadow := rfl
@[simp] theorem Dev.setRach_pend (d : Dev) (r : Nat) (f : Rachis → Rachis) : (d.setRach r f).pend = d.pend := rfl
@[simp] theorem Dev.setRach_lockRes (d : Dev) (r : Nat) (f : Rachis → Rachis) : (d.setRach r f).lockRes = d.lockRes := rfl
@[simp] theorem Dev.setRach_lease (d : Dev) (r : Nat) (f : Rachis → Rachis) : (d.setRach r f).lease = d.lease := rfl
@[simp] theorem Dev.setRach_snaps (d : Dev) (r : Nat) (f : Rachis → Rachis) : (d.setRach r f).snaps = d.snaps := rfl
@[simp] theorem Dev.setRach_lowWords (d : Dev) (r : Nat) (f : Rachis → Rachis) : (d.setRach r f).lowWords = d.lowWords := rfl
@[simp] theorem Dev.setRach_setsWritten (d : Dev) (r : Nat) (f : Rachis → Rachis) : (d.setRach r f).setsWritten = d.setsWritten := rfl
@[simp] theorem Dev.setRach_hosts (d : Dev) (r : Nat) (f : Rachis → Rachis) : (d.setRach r f).hosts = d.hosts := rfl
@[simp] theorem Dev.setRach_lastSec (d : Dev) (r : Nat) (f : Rachis → Rachis) : (d.setRach r f).lastSec = d.lastSec := rfl
@[simp] theorem Dev.setRach_sys (d : Dev) (r : Nat) (f : Rachis → Rachis) : (d.setRach r f).sys = d.sys := rfl
@[simp] theorem Dev.setRach_rgn (d : Dev) (r : Nat) (f : Rachis → Rachis) : (d.setRach r f).rgn = d.rgn := rfl
@[simp] theorem Dev.setRach_isl (d : Dev) (r : Nat) (f : Rachis → Rachis) : (d.setRach r f).isl = d.isl := rfl
@[simp] theorem Dev.setRach_tbs (d : Dev) (r : Nat) (f : Rachis → Rachis) : (d.setRach r f).tbs = d.tbs := rfl
@[simp] theorem Dev.setRach_nvm (d : Dev) (r : Nat) (f : Rachis → Rachis) : (d.setRach r f).nvm = d.nvm := rfl
@[simp] theorem Dev.setRach_ref (d : Dev) (r : Nat) (f : Rachis → Rachis) : (d.setRach r f).ref = d.ref := rfl
@[simp] theorem Dev.setRach_ptp (d : Dev) (r : Nat) (f : Rachis → Rachis) : (d.setRach r f).ptp = d.ptp := rfl
@[simp] theorem Dev.setRach_phaseEnd (d : Dev) (r : Nat) (f : Rachis → Rachis) : (d.setRach r f).phaseEnd = d.phaseEnd := rfl
@[simp] theorem Dev.setRach_adm (d : Dev) (r : Nat) (f : Rachis → Rachis) : (d.setRach r f).adm = d.adm := rfl
@[simp] theorem Dev.setRach_tags (d : Dev) (r : Nat) (f : Rachis → Rachis) : (d.setRach r f).tags = d.tags := rfl
@[simp] theorem Dev.setRach_chans (d : Dev) (r : Nat) (f : Rachis → Rachis) : (d.setRach r f).chans = d.chans := rfl
@[simp] theorem Dev.setRach_rends (d : Dev) (r : Nat) (f : Rachis → Rachis) : (d.setRach r f).rends = d.rends := rfl
@[simp] theorem Dev.setRach_olds (d : Dev) (r : Nat) (f : Rachis → Rachis) : (d.setRach r f).olds = d.olds := rfl
@[simp] theorem Dev.setRach_stats (d : Dev) (r : Nat) (f : Rachis → Rachis) : (d.setRach r f).stats = d.stats := rfl
@[simp] theorem Dev.setRach_strms (d : Dev) (r : Nat) (f : Rachis → Rachis) : (d.setRach r f).strms = d.strms := rfl
@[simp] theorem Dev.setRach_slots (d : Dev) (r : Nat) (f : Rachis → Rachis) : (d.setRach r f).slots = d.slots := rfl
@[simp] theorem Dev.setRach_ces (d : Dev) (r : Nat) (f : Rachis → Rachis) : (d.setRach r f).ces = d.ces := rfl
@[simp] theorem Dev.setRach_des (d : Dev) (r : Nat) (f : Rachis → Rachis) : (d.setRach r f).des = d.des := rfl
@[simp] theorem Dev.setRach_flows (d : Dev) (r : Nat) (f : Rachis → Rachis) : (d.setRach r f).flows = d.flows := rfl
@[simp] theorem Dev.setRach_nodes (d : Dev) (r : Nat) (f : Rachis → Rachis) : (d.setRach r f).nodes = d.nodes := rfl
@[simp] theorem Dev.setRach_busy (d : Dev) (r : Nat) (f : Rachis → Rachis) : (d.setRach r f).busy = d.busy := rfl
@[simp] theorem Dev.setRach_lanes (d : Dev) (r : Nat) (f : Rachis → Rachis) : (d.setRach r f).lanes = d.lanes := rfl
@[simp] theorem Dev.setRach_leg (d : Dev) (r : Nat) (f : Rachis → Rachis) : (d.setRach r f).leg = d.leg := rfl
@[simp] theorem Dev.setRach_pols (d : Dev) (r : Nat) (f : Rachis → Rachis) : (d.setRach r f).pols = d.pols := rfl
@[simp] theorem Dev.setRach_mps (d : Dev) (r : Nat) (f : Rachis → Rachis) : (d.setRach r f).mps = d.mps := rfl
@[simp] theorem Dev.setRach_arbs (d : Dev) (r : Nat) (f : Rachis → Rachis) : (d.setRach r f).arbs = d.arbs := rfl
@[simp] theorem Dev.setRach_mirs (d : Dev) (r : Nat) (f : Rachis → Rachis) : (d.setRach r f).mirs = d.mirs := rfl
@[simp] theorem Dev.setRach_pgs (d : Dev) (r : Nat) (f : Rachis → Rachis) : (d.setRach r f).pgs = d.pgs := rfl
@[simp] theorem Dev.setRach_free (d : Dev) (r : Nat) (f : Rachis → Rachis) : (d.setRach r f).free = d.free := rfl
@[simp] theorem Dev.setRach_out (d : Dev) (r : Nat) (f : Rachis → Rachis) : (d.setRach r f).out = d.out := rfl
@[simp] theorem Dev.setRach_rd (d : Dev) (r : Nat) (f : Rachis → Rachis) (row : Row) (base i : Nat) :
    (d.setRach r f).rd row base i = d.rd row base i := rfl
@[simp] theorem Dev.setRach_now (d : Dev) (r : Nat) (f : Rachis → Rachis) : (d.setRach r f).now = d.now := rfl
@[simp] theorem Dev.setRach_rach (d : Dev) (r : Nat) (f : Rachis → Rachis) : (d.setRach r f).rach r = f (d.rach r) := by
  simp [Dev.rach, Dev.setRach]

/-! ### `setFlow` -/

@[simp] theorem Dev.setFlow_regs (d : Dev) (r k : Nat) (f : Flow → Flow) : (d.setFlow r k f).regs = d.regs := rfl
@[simp] theorem Dev.setFlow_shadow (d : Dev) (r k : Nat) (f : Flow → Flow) : (d.setFlow r k f).shadow = d.shadow := rfl
@[simp] theorem Dev.setFlow_pend (d : Dev) (r k : Nat) (f : Flow → Flow) : (d.setFlow r k f).pend = d.pend := rfl
@[simp] theorem Dev.setFlow_lockRes (d : Dev) (r k : Nat) (f : Flow → Flow) : (d.setFlow r k f).lockRes = d.lockRes := rfl
@[simp] theorem Dev.setFlow_lease (d : Dev) (r k : Nat) (f : Flow → Flow) : (d.setFlow r k f).lease = d.lease := rfl
@[simp] theorem Dev.setFlow_snaps (d : Dev) (r k : Nat) (f : Flow → Flow) : (d.setFlow r k f).snaps = d.snaps := rfl
@[simp] theorem Dev.setFlow_lowWords (d : Dev) (r k : Nat) (f : Flow → Flow) : (d.setFlow r k f).lowWords = d.lowWords := rfl
@[simp] theorem Dev.setFlow_setsWritten (d : Dev) (r k : Nat) (f : Flow → Flow) : (d.setFlow r k f).setsWritten = d.setsWritten := rfl
@[simp] theorem Dev.setFlow_hosts (d : Dev) (r k : Nat) (f : Flow → Flow) : (d.setFlow r k f).hosts = d.hosts := rfl
@[simp] theorem Dev.setFlow_lastSec (d : Dev) (r k : Nat) (f : Flow → Flow) : (d.setFlow r k f).lastSec = d.lastSec := rfl
@[simp] theorem Dev.setFlow_sys (d : Dev) (r k : Nat) (f : Flow → Flow) : (d.setFlow r k f).sys = d.sys := rfl
@[simp] theorem Dev.setFlow_rgn (d : Dev) (r k : Nat) (f : Flow → Flow) : (d.setFlow r k f).rgn = d.rgn := rfl
@[simp] theorem Dev.setFlow_isl (d : Dev) (r k : Nat) (f : Flow → Flow) : (d.setFlow r k f).isl = d.isl := rfl
@[simp] theorem Dev.setFlow_tbs (d : Dev) (r k : Nat) (f : Flow → Flow) : (d.setFlow r k f).tbs = d.tbs := rfl
@[simp] theorem Dev.setFlow_nvm (d : Dev) (r k : Nat) (f : Flow → Flow) : (d.setFlow r k f).nvm = d.nvm := rfl
@[simp] theorem Dev.setFlow_ref (d : Dev) (r k : Nat) (f : Flow → Flow) : (d.setFlow r k f).ref = d.ref := rfl
@[simp] theorem Dev.setFlow_ptp (d : Dev) (r k : Nat) (f : Flow → Flow) : (d.setFlow r k f).ptp = d.ptp := rfl
@[simp] theorem Dev.setFlow_phaseEnd (d : Dev) (r k : Nat) (f : Flow → Flow) : (d.setFlow r k f).phaseEnd = d.phaseEnd := rfl
@[simp] theorem Dev.setFlow_adm (d : Dev) (r k : Nat) (f : Flow → Flow) : (d.setFlow r k f).adm = d.adm := rfl
@[simp] theorem Dev.setFlow_tags (d : Dev) (r k : Nat) (f : Flow → Flow) : (d.setFlow r k f).tags = d.tags := rfl
@[simp] theorem Dev.setFlow_chans (d : Dev) (r k : Nat) (f : Flow → Flow) : (d.setFlow r k f).chans = d.chans := rfl
@[simp] theorem Dev.setFlow_rends (d : Dev) (r k : Nat) (f : Flow → Flow) : (d.setFlow r k f).rends = d.rends := rfl
@[simp] theorem Dev.setFlow_olds (d : Dev) (r k : Nat) (f : Flow → Flow) : (d.setFlow r k f).olds = d.olds := rfl
@[simp] theorem Dev.setFlow_stats (d : Dev) (r k : Nat) (f : Flow → Flow) : (d.setFlow r k f).stats = d.stats := rfl
@[simp] theorem Dev.setFlow_strms (d : Dev) (r k : Nat) (f : Flow → Flow) : (d.setFlow r k f).strms = d.strms := rfl
@[simp] theorem Dev.setFlow_slots (d : Dev) (r k : Nat) (f : Flow → Flow) : (d.setFlow r k f).slots = d.slots := rfl
@[simp] theorem Dev.setFlow_ces (d : Dev) (r k : Nat) (f : Flow → Flow) : (d.setFlow r k f).ces = d.ces := rfl
@[simp] theorem Dev.setFlow_des (d : Dev) (r k : Nat) (f : Flow → Flow) : (d.setFlow r k f).des = d.des := rfl
@[simp] theorem Dev.setFlow_ras (d : Dev) (r k : Nat) (f : Flow → Flow) : (d.setFlow r k f).ras = d.ras := rfl
@[simp] theorem Dev.setFlow_nodes (d : Dev) (r k : Nat) (f : Flow → Flow) : (d.setFlow r k f).nodes = d.nodes := rfl
@[simp] theorem Dev.setFlow_busy (d : Dev) (r k : Nat) (f : Flow → Flow) : (d.setFlow r k f).busy = d.busy := rfl
@[simp] theorem Dev.setFlow_lanes (d : Dev) (r k : Nat) (f : Flow → Flow) : (d.setFlow r k f).lanes = d.lanes := rfl
@[simp] theorem Dev.setFlow_leg (d : Dev) (r k : Nat) (f : Flow → Flow) : (d.setFlow r k f).leg = d.leg := rfl
@[simp] theorem Dev.setFlow_pols (d : Dev) (r k : Nat) (f : Flow → Flow) : (d.setFlow r k f).pols = d.pols := rfl
@[simp] theorem Dev.setFlow_mps (d : Dev) (r k : Nat) (f : Flow → Flow) : (d.setFlow r k f).mps = d.mps := rfl
@[simp] theorem Dev.setFlow_arbs (d : Dev) (r k : Nat) (f : Flow → Flow) : (d.setFlow r k f).arbs = d.arbs := rfl
@[simp] theorem Dev.setFlow_mirs (d : Dev) (r k : Nat) (f : Flow → Flow) : (d.setFlow r k f).mirs = d.mirs := rfl
@[simp] theorem Dev.setFlow_pgs (d : Dev) (r k : Nat) (f : Flow → Flow) : (d.setFlow r k f).pgs = d.pgs := rfl
@[simp] theorem Dev.setFlow_free (d : Dev) (r k : Nat) (f : Flow → Flow) : (d.setFlow r k f).free = d.free := rfl
@[simp] theorem Dev.setFlow_out (d : Dev) (r k : Nat) (f : Flow → Flow) : (d.setFlow r k f).out = d.out := rfl
@[simp] theorem Dev.setFlow_rd (d : Dev) (r k : Nat) (f : Flow → Flow) (row : Row) (base i : Nat) :
    (d.setFlow r k f).rd row base i = d.rd row base i := rfl
@[simp] theorem Dev.setFlow_now (d : Dev) (r k : Nat) (f : Flow → Flow) : (d.setFlow r k f).now = d.now := rfl
@[simp] theorem Dev.setFlow_flow (d : Dev) (r k : Nat) (f : Flow → Flow) : (d.setFlow r k f).flow r k = f (d.flow r k) := by
  simp [Dev.flow, Dev.setFlow]

/-! ### `setNode` -/

@[simp] theorem Dev.setNode_regs (d : Dev) (k : Nat) (f : Shp → Shp) : (d.setNode k f).regs = d.regs := rfl
@[simp] theorem Dev.setNode_shadow (d : Dev) (k : Nat) (f : Shp → Shp) : (d.setNode k f).shadow = d.shadow := rfl
@[simp] theorem Dev.setNode_pend (d : Dev) (k : Nat) (f : Shp → Shp) : (d.setNode k f).pend = d.pend := rfl
@[simp] theorem Dev.setNode_lockRes (d : Dev) (k : Nat) (f : Shp → Shp) : (d.setNode k f).lockRes = d.lockRes := rfl
@[simp] theorem Dev.setNode_lease (d : Dev) (k : Nat) (f : Shp → Shp) : (d.setNode k f).lease = d.lease := rfl
@[simp] theorem Dev.setNode_snaps (d : Dev) (k : Nat) (f : Shp → Shp) : (d.setNode k f).snaps = d.snaps := rfl
@[simp] theorem Dev.setNode_lowWords (d : Dev) (k : Nat) (f : Shp → Shp) : (d.setNode k f).lowWords = d.lowWords := rfl
@[simp] theorem Dev.setNode_setsWritten (d : Dev) (k : Nat) (f : Shp → Shp) : (d.setNode k f).setsWritten = d.setsWritten := rfl
@[simp] theorem Dev.setNode_hosts (d : Dev) (k : Nat) (f : Shp → Shp) : (d.setNode k f).hosts = d.hosts := rfl
@[simp] theorem Dev.setNode_lastSec (d : Dev) (k : Nat) (f : Shp → Shp) : (d.setNode k f).lastSec = d.lastSec := rfl
@[simp] theorem Dev.setNode_sys (d : Dev) (k : Nat) (f : Shp → Shp) : (d.setNode k f).sys = d.sys := rfl
@[simp] theorem Dev.setNode_rgn (d : Dev) (k : Nat) (f : Shp → Shp) : (d.setNode k f).rgn = d.rgn := rfl
@[simp] theorem Dev.setNode_isl (d : Dev) (k : Nat) (f : Shp → Shp) : (d.setNode k f).isl = d.isl := rfl
@[simp] theorem Dev.setNode_tbs (d : Dev) (k : Nat) (f : Shp → Shp) : (d.setNode k f).tbs = d.tbs := rfl
@[simp] theorem Dev.setNode_nvm (d : Dev) (k : Nat) (f : Shp → Shp) : (d.setNode k f).nvm = d.nvm := rfl
@[simp] theorem Dev.setNode_ref (d : Dev) (k : Nat) (f : Shp → Shp) : (d.setNode k f).ref = d.ref := rfl
@[simp] theorem Dev.setNode_ptp (d : Dev) (k : Nat) (f : Shp → Shp) : (d.setNode k f).ptp = d.ptp := rfl
@[simp] theorem Dev.setNode_phaseEnd (d : Dev) (k : Nat) (f : Shp → Shp) : (d.setNode k f).phaseEnd = d.phaseEnd := rfl
@[simp] theorem Dev.setNode_adm (d : Dev) (k : Nat) (f : Shp → Shp) : (d.setNode k f).adm = d.adm := rfl
@[simp] theorem Dev.setNode_tags (d : Dev) (k : Nat) (f : Shp → Shp) : (d.setNode k f).tags = d.tags := rfl
@[simp] theorem Dev.setNode_chans (d : Dev) (k : Nat) (f : Shp → Shp) : (d.setNode k f).chans = d.chans := rfl
@[simp] theorem Dev.setNode_rends (d : Dev) (k : Nat) (f : Shp → Shp) : (d.setNode k f).rends = d.rends := rfl
@[simp] theorem Dev.setNode_olds (d : Dev) (k : Nat) (f : Shp → Shp) : (d.setNode k f).olds = d.olds := rfl
@[simp] theorem Dev.setNode_stats (d : Dev) (k : Nat) (f : Shp → Shp) : (d.setNode k f).stats = d.stats := rfl
@[simp] theorem Dev.setNode_strms (d : Dev) (k : Nat) (f : Shp → Shp) : (d.setNode k f).strms = d.strms := rfl
@[simp] theorem Dev.setNode_slots (d : Dev) (k : Nat) (f : Shp → Shp) : (d.setNode k f).slots = d.slots := rfl
@[simp] theorem Dev.setNode_ces (d : Dev) (k : Nat) (f : Shp → Shp) : (d.setNode k f).ces = d.ces := rfl
@[simp] theorem Dev.setNode_des (d : Dev) (k : Nat) (f : Shp → Shp) : (d.setNode k f).des = d.des := rfl
@[simp] theorem Dev.setNode_ras (d : Dev) (k : Nat) (f : Shp → Shp) : (d.setNode k f).ras = d.ras := rfl
@[simp] theorem Dev.setNode_flows (d : Dev) (k : Nat) (f : Shp → Shp) : (d.setNode k f).flows = d.flows := rfl
@[simp] theorem Dev.setNode_busy (d : Dev) (k : Nat) (f : Shp → Shp) : (d.setNode k f).busy = d.busy := rfl
@[simp] theorem Dev.setNode_lanes (d : Dev) (k : Nat) (f : Shp → Shp) : (d.setNode k f).lanes = d.lanes := rfl
@[simp] theorem Dev.setNode_leg (d : Dev) (k : Nat) (f : Shp → Shp) : (d.setNode k f).leg = d.leg := rfl
@[simp] theorem Dev.setNode_pols (d : Dev) (k : Nat) (f : Shp → Shp) : (d.setNode k f).pols = d.pols := rfl
@[simp] theorem Dev.setNode_mps (d : Dev) (k : Nat) (f : Shp → Shp) : (d.setNode k f).mps = d.mps := rfl
@[simp] theorem Dev.setNode_arbs (d : Dev) (k : Nat) (f : Shp → Shp) : (d.setNode k f).arbs = d.arbs := rfl
@[simp] theorem Dev.setNode_mirs (d : Dev) (k : Nat) (f : Shp → Shp) : (d.setNode k f).mirs = d.mirs := rfl
@[simp] theorem Dev.setNode_pgs (d : Dev) (k : Nat) (f : Shp → Shp) : (d.setNode k f).pgs = d.pgs := rfl
@[simp] theorem Dev.setNode_free (d : Dev) (k : Nat) (f : Shp → Shp) : (d.setNode k f).free = d.free := rfl
@[simp] theorem Dev.setNode_out (d : Dev) (k : Nat) (f : Shp → Shp) : (d.setNode k f).out = d.out := rfl
@[simp] theorem Dev.setNode_rd (d : Dev) (k : Nat) (f : Shp → Shp) (row : Row) (base i : Nat) :
    (d.setNode k f).rd row base i = d.rd row base i := rfl
@[simp] theorem Dev.setNode_now (d : Dev) (k : Nat) (f : Shp → Shp) : (d.setNode k f).now = d.now := rfl
@[simp] theorem Dev.setNode_node (d : Dev) (k : Nat) (f : Shp → Shp) : (d.setNode k f).node k = f (d.node k) := by
  simp [Dev.node, Dev.setNode]

/-! ### `setLane` -/

@[simp] theorem Dev.setLane_regs (d : Dev) (g : Nat) (f : LaneSt → LaneSt) : (d.setLane g f).regs = d.regs := rfl
@[simp] theorem Dev.setLane_shadow (d : Dev) (g : Nat) (f : LaneSt → LaneSt) : (d.setLane g f).shadow = d.shadow := rfl
@[simp] theorem Dev.setLane_pend (d : Dev) (g : Nat) (f : LaneSt → LaneSt) : (d.setLane g f).pend = d.pend := rfl
@[simp] theorem Dev.setLane_lockRes (d : Dev) (g : Nat) (f : LaneSt → LaneSt) : (d.setLane g f).lockRes = d.lockRes := rfl
@[simp] theorem Dev.setLane_lease (d : Dev) (g : Nat) (f : LaneSt → LaneSt) : (d.setLane g f).lease = d.lease := rfl
@[simp] theorem Dev.setLane_snaps (d : Dev) (g : Nat) (f : LaneSt → LaneSt) : (d.setLane g f).snaps = d.snaps := rfl
@[simp] theorem Dev.setLane_lowWords (d : Dev) (g : Nat) (f : LaneSt → LaneSt) : (d.setLane g f).lowWords = d.lowWords := rfl
@[simp] theorem Dev.setLane_setsWritten (d : Dev) (g : Nat) (f : LaneSt → LaneSt) : (d.setLane g f).setsWritten = d.setsWritten := rfl
@[simp] theorem Dev.setLane_hosts (d : Dev) (g : Nat) (f : LaneSt → LaneSt) : (d.setLane g f).hosts = d.hosts := rfl
@[simp] theorem Dev.setLane_lastSec (d : Dev) (g : Nat) (f : LaneSt → LaneSt) : (d.setLane g f).lastSec = d.lastSec := rfl
@[simp] theorem Dev.setLane_sys (d : Dev) (g : Nat) (f : LaneSt → LaneSt) : (d.setLane g f).sys = d.sys := rfl
@[simp] theorem Dev.setLane_rgn (d : Dev) (g : Nat) (f : LaneSt → LaneSt) : (d.setLane g f).rgn = d.rgn := rfl
@[simp] theorem Dev.setLane_isl (d : Dev) (g : Nat) (f : LaneSt → LaneSt) : (d.setLane g f).isl = d.isl := rfl
@[simp] theorem Dev.setLane_tbs (d : Dev) (g : Nat) (f : LaneSt → LaneSt) : (d.setLane g f).tbs = d.tbs := rfl
@[simp] theorem Dev.setLane_nvm (d : Dev) (g : Nat) (f : LaneSt → LaneSt) : (d.setLane g f).nvm = d.nvm := rfl
@[simp] theorem Dev.setLane_ref (d : Dev) (g : Nat) (f : LaneSt → LaneSt) : (d.setLane g f).ref = d.ref := rfl
@[simp] theorem Dev.setLane_ptp (d : Dev) (g : Nat) (f : LaneSt → LaneSt) : (d.setLane g f).ptp = d.ptp := rfl
@[simp] theorem Dev.setLane_phaseEnd (d : Dev) (g : Nat) (f : LaneSt → LaneSt) : (d.setLane g f).phaseEnd = d.phaseEnd := rfl
@[simp] theorem Dev.setLane_adm (d : Dev) (g : Nat) (f : LaneSt → LaneSt) : (d.setLane g f).adm = d.adm := rfl
@[simp] theorem Dev.setLane_tags (d : Dev) (g : Nat) (f : LaneSt → LaneSt) : (d.setLane g f).tags = d.tags := rfl
@[simp] theorem Dev.setLane_chans (d : Dev) (g : Nat) (f : LaneSt → LaneSt) : (d.setLane g f).chans = d.chans := rfl
@[simp] theorem Dev.setLane_rends (d : Dev) (g : Nat) (f : LaneSt → LaneSt) : (d.setLane g f).rends = d.rends := rfl
@[simp] theorem Dev.setLane_olds (d : Dev) (g : Nat) (f : LaneSt → LaneSt) : (d.setLane g f).olds = d.olds := rfl
@[simp] theorem Dev.setLane_stats (d : Dev) (g : Nat) (f : LaneSt → LaneSt) : (d.setLane g f).stats = d.stats := rfl
@[simp] theorem Dev.setLane_strms (d : Dev) (g : Nat) (f : LaneSt → LaneSt) : (d.setLane g f).strms = d.strms := rfl
@[simp] theorem Dev.setLane_slots (d : Dev) (g : Nat) (f : LaneSt → LaneSt) : (d.setLane g f).slots = d.slots := rfl
@[simp] theorem Dev.setLane_ces (d : Dev) (g : Nat) (f : LaneSt → LaneSt) : (d.setLane g f).ces = d.ces := rfl
@[simp] theorem Dev.setLane_des (d : Dev) (g : Nat) (f : LaneSt → LaneSt) : (d.setLane g f).des = d.des := rfl
@[simp] theorem Dev.setLane_ras (d : Dev) (g : Nat) (f : LaneSt → LaneSt) : (d.setLane g f).ras = d.ras := rfl
@[simp] theorem Dev.setLane_flows (d : Dev) (g : Nat) (f : LaneSt → LaneSt) : (d.setLane g f).flows = d.flows := rfl
@[simp] theorem Dev.setLane_nodes (d : Dev) (g : Nat) (f : LaneSt → LaneSt) : (d.setLane g f).nodes = d.nodes := rfl
@[simp] theorem Dev.setLane_busy (d : Dev) (g : Nat) (f : LaneSt → LaneSt) : (d.setLane g f).busy = d.busy := rfl
@[simp] theorem Dev.setLane_leg (d : Dev) (g : Nat) (f : LaneSt → LaneSt) : (d.setLane g f).leg = d.leg := rfl
@[simp] theorem Dev.setLane_pols (d : Dev) (g : Nat) (f : LaneSt → LaneSt) : (d.setLane g f).pols = d.pols := rfl
@[simp] theorem Dev.setLane_mps (d : Dev) (g : Nat) (f : LaneSt → LaneSt) : (d.setLane g f).mps = d.mps := rfl
@[simp] theorem Dev.setLane_arbs (d : Dev) (g : Nat) (f : LaneSt → LaneSt) : (d.setLane g f).arbs = d.arbs := rfl
@[simp] theorem Dev.setLane_mirs (d : Dev) (g : Nat) (f : LaneSt → LaneSt) : (d.setLane g f).mirs = d.mirs := rfl
@[simp] theorem Dev.setLane_pgs (d : Dev) (g : Nat) (f : LaneSt → LaneSt) : (d.setLane g f).pgs = d.pgs := rfl
@[simp] theorem Dev.setLane_free (d : Dev) (g : Nat) (f : LaneSt → LaneSt) : (d.setLane g f).free = d.free := rfl
@[simp] theorem Dev.setLane_out (d : Dev) (g : Nat) (f : LaneSt → LaneSt) : (d.setLane g f).out = d.out := rfl
@[simp] theorem Dev.setLane_rd (d : Dev) (g : Nat) (f : LaneSt → LaneSt) (row : Row) (base i : Nat) :
    (d.setLane g f).rd row base i = d.rd row base i := rfl
@[simp] theorem Dev.setLane_now (d : Dev) (g : Nat) (f : LaneSt → LaneSt) : (d.setLane g f).now = d.now := rfl
@[simp] theorem Dev.setLane_lane (d : Dev) (g : Nat) (f : LaneSt → LaneSt) : (d.setLane g f).lane g = f (d.lane g) := by
  simp [Dev.lane, Dev.setLane]

/-! ### `setLeg` -/

@[simp] theorem Dev.setLeg_regs (d : Dev) (f : LegSt → LegSt) : (d.setLeg f).regs = d.regs := rfl
@[simp] theorem Dev.setLeg_shadow (d : Dev) (f : LegSt → LegSt) : (d.setLeg f).shadow = d.shadow := rfl
@[simp] theorem Dev.setLeg_pend (d : Dev) (f : LegSt → LegSt) : (d.setLeg f).pend = d.pend := rfl
@[simp] theorem Dev.setLeg_lockRes (d : Dev) (f : LegSt → LegSt) : (d.setLeg f).lockRes = d.lockRes := rfl
@[simp] theorem Dev.setLeg_lease (d : Dev) (f : LegSt → LegSt) : (d.setLeg f).lease = d.lease := rfl
@[simp] theorem Dev.setLeg_snaps (d : Dev) (f : LegSt → LegSt) : (d.setLeg f).snaps = d.snaps := rfl
@[simp] theorem Dev.setLeg_lowWords (d : Dev) (f : LegSt → LegSt) : (d.setLeg f).lowWords = d.lowWords := rfl
@[simp] theorem Dev.setLeg_setsWritten (d : Dev) (f : LegSt → LegSt) : (d.setLeg f).setsWritten = d.setsWritten := rfl
@[simp] theorem Dev.setLeg_hosts (d : Dev) (f : LegSt → LegSt) : (d.setLeg f).hosts = d.hosts := rfl
@[simp] theorem Dev.setLeg_lastSec (d : Dev) (f : LegSt → LegSt) : (d.setLeg f).lastSec = d.lastSec := rfl
@[simp] theorem Dev.setLeg_sys (d : Dev) (f : LegSt → LegSt) : (d.setLeg f).sys = d.sys := rfl
@[simp] theorem Dev.setLeg_rgn (d : Dev) (f : LegSt → LegSt) : (d.setLeg f).rgn = d.rgn := rfl
@[simp] theorem Dev.setLeg_isl (d : Dev) (f : LegSt → LegSt) : (d.setLeg f).isl = d.isl := rfl
@[simp] theorem Dev.setLeg_tbs (d : Dev) (f : LegSt → LegSt) : (d.setLeg f).tbs = d.tbs := rfl
@[simp] theorem Dev.setLeg_nvm (d : Dev) (f : LegSt → LegSt) : (d.setLeg f).nvm = d.nvm := rfl
@[simp] theorem Dev.setLeg_ref (d : Dev) (f : LegSt → LegSt) : (d.setLeg f).ref = d.ref := rfl
@[simp] theorem Dev.setLeg_ptp (d : Dev) (f : LegSt → LegSt) : (d.setLeg f).ptp = d.ptp := rfl
@[simp] theorem Dev.setLeg_phaseEnd (d : Dev) (f : LegSt → LegSt) : (d.setLeg f).phaseEnd = d.phaseEnd := rfl
@[simp] theorem Dev.setLeg_adm (d : Dev) (f : LegSt → LegSt) : (d.setLeg f).adm = d.adm := rfl
@[simp] theorem Dev.setLeg_tags (d : Dev) (f : LegSt → LegSt) : (d.setLeg f).tags = d.tags := rfl
@[simp] theorem Dev.setLeg_chans (d : Dev) (f : LegSt → LegSt) : (d.setLeg f).chans = d.chans := rfl
@[simp] theorem Dev.setLeg_rends (d : Dev) (f : LegSt → LegSt) : (d.setLeg f).rends = d.rends := rfl
@[simp] theorem Dev.setLeg_olds (d : Dev) (f : LegSt → LegSt) : (d.setLeg f).olds = d.olds := rfl
@[simp] theorem Dev.setLeg_stats (d : Dev) (f : LegSt → LegSt) : (d.setLeg f).stats = d.stats := rfl
@[simp] theorem Dev.setLeg_strms (d : Dev) (f : LegSt → LegSt) : (d.setLeg f).strms = d.strms := rfl
@[simp] theorem Dev.setLeg_slots (d : Dev) (f : LegSt → LegSt) : (d.setLeg f).slots = d.slots := rfl
@[simp] theorem Dev.setLeg_ces (d : Dev) (f : LegSt → LegSt) : (d.setLeg f).ces = d.ces := rfl
@[simp] theorem Dev.setLeg_des (d : Dev) (f : LegSt → LegSt) : (d.setLeg f).des = d.des := rfl
@[simp] theorem Dev.setLeg_ras (d : Dev) (f : LegSt → LegSt) : (d.setLeg f).ras = d.ras := rfl
@[simp] theorem Dev.setLeg_flows (d : Dev) (f : LegSt → LegSt) : (d.setLeg f).flows = d.flows := rfl
@[simp] theorem Dev.setLeg_nodes (d : Dev) (f : LegSt → LegSt) : (d.setLeg f).nodes = d.nodes := rfl
@[simp] theorem Dev.setLeg_busy (d : Dev) (f : LegSt → LegSt) : (d.setLeg f).busy = d.busy := rfl
@[simp] theorem Dev.setLeg_lanes (d : Dev) (f : LegSt → LegSt) : (d.setLeg f).lanes = d.lanes := rfl
@[simp] theorem Dev.setLeg_pols (d : Dev) (f : LegSt → LegSt) : (d.setLeg f).pols = d.pols := rfl
@[simp] theorem Dev.setLeg_mps (d : Dev) (f : LegSt → LegSt) : (d.setLeg f).mps = d.mps := rfl
@[simp] theorem Dev.setLeg_arbs (d : Dev) (f : LegSt → LegSt) : (d.setLeg f).arbs = d.arbs := rfl
@[simp] theorem Dev.setLeg_mirs (d : Dev) (f : LegSt → LegSt) : (d.setLeg f).mirs = d.mirs := rfl
@[simp] theorem Dev.setLeg_pgs (d : Dev) (f : LegSt → LegSt) : (d.setLeg f).pgs = d.pgs := rfl
@[simp] theorem Dev.setLeg_free (d : Dev) (f : LegSt → LegSt) : (d.setLeg f).free = d.free := rfl
@[simp] theorem Dev.setLeg_out (d : Dev) (f : LegSt → LegSt) : (d.setLeg f).out = d.out := rfl
@[simp] theorem Dev.setLeg_rd (d : Dev) (f : LegSt → LegSt) (row : Row) (base i : Nat) :
    (d.setLeg f).rd row base i = d.rd row base i := rfl
@[simp] theorem Dev.setLeg_now (d : Dev) (f : LegSt → LegSt) : (d.setLeg f).now = d.now := rfl

/-! ### `setMp` -/

@[simp] theorem Dev.setMp_regs (d : Dev) (r p : Nat) (f : MpSt → MpSt) : (d.setMp r p f).regs = d.regs := rfl
@[simp] theorem Dev.setMp_shadow (d : Dev) (r p : Nat) (f : MpSt → MpSt) : (d.setMp r p f).shadow = d.shadow := rfl
@[simp] theorem Dev.setMp_pend (d : Dev) (r p : Nat) (f : MpSt → MpSt) : (d.setMp r p f).pend = d.pend := rfl
@[simp] theorem Dev.setMp_lockRes (d : Dev) (r p : Nat) (f : MpSt → MpSt) : (d.setMp r p f).lockRes = d.lockRes := rfl
@[simp] theorem Dev.setMp_lease (d : Dev) (r p : Nat) (f : MpSt → MpSt) : (d.setMp r p f).lease = d.lease := rfl
@[simp] theorem Dev.setMp_snaps (d : Dev) (r p : Nat) (f : MpSt → MpSt) : (d.setMp r p f).snaps = d.snaps := rfl
@[simp] theorem Dev.setMp_lowWords (d : Dev) (r p : Nat) (f : MpSt → MpSt) : (d.setMp r p f).lowWords = d.lowWords := rfl
@[simp] theorem Dev.setMp_setsWritten (d : Dev) (r p : Nat) (f : MpSt → MpSt) : (d.setMp r p f).setsWritten = d.setsWritten := rfl
@[simp] theorem Dev.setMp_hosts (d : Dev) (r p : Nat) (f : MpSt → MpSt) : (d.setMp r p f).hosts = d.hosts := rfl
@[simp] theorem Dev.setMp_lastSec (d : Dev) (r p : Nat) (f : MpSt → MpSt) : (d.setMp r p f).lastSec = d.lastSec := rfl
@[simp] theorem Dev.setMp_sys (d : Dev) (r p : Nat) (f : MpSt → MpSt) : (d.setMp r p f).sys = d.sys := rfl
@[simp] theorem Dev.setMp_rgn (d : Dev) (r p : Nat) (f : MpSt → MpSt) : (d.setMp r p f).rgn = d.rgn := rfl
@[simp] theorem Dev.setMp_isl (d : Dev) (r p : Nat) (f : MpSt → MpSt) : (d.setMp r p f).isl = d.isl := rfl
@[simp] theorem Dev.setMp_tbs (d : Dev) (r p : Nat) (f : MpSt → MpSt) : (d.setMp r p f).tbs = d.tbs := rfl
@[simp] theorem Dev.setMp_nvm (d : Dev) (r p : Nat) (f : MpSt → MpSt) : (d.setMp r p f).nvm = d.nvm := rfl
@[simp] theorem Dev.setMp_ref (d : Dev) (r p : Nat) (f : MpSt → MpSt) : (d.setMp r p f).ref = d.ref := rfl
@[simp] theorem Dev.setMp_ptp (d : Dev) (r p : Nat) (f : MpSt → MpSt) : (d.setMp r p f).ptp = d.ptp := rfl
@[simp] theorem Dev.setMp_phaseEnd (d : Dev) (r p : Nat) (f : MpSt → MpSt) : (d.setMp r p f).phaseEnd = d.phaseEnd := rfl
@[simp] theorem Dev.setMp_adm (d : Dev) (r p : Nat) (f : MpSt → MpSt) : (d.setMp r p f).adm = d.adm := rfl
@[simp] theorem Dev.setMp_tags (d : Dev) (r p : Nat) (f : MpSt → MpSt) : (d.setMp r p f).tags = d.tags := rfl
@[simp] theorem Dev.setMp_chans (d : Dev) (r p : Nat) (f : MpSt → MpSt) : (d.setMp r p f).chans = d.chans := rfl
@[simp] theorem Dev.setMp_rends (d : Dev) (r p : Nat) (f : MpSt → MpSt) : (d.setMp r p f).rends = d.rends := rfl
@[simp] theorem Dev.setMp_olds (d : Dev) (r p : Nat) (f : MpSt → MpSt) : (d.setMp r p f).olds = d.olds := rfl
@[simp] theorem Dev.setMp_stats (d : Dev) (r p : Nat) (f : MpSt → MpSt) : (d.setMp r p f).stats = d.stats := rfl
@[simp] theorem Dev.setMp_strms (d : Dev) (r p : Nat) (f : MpSt → MpSt) : (d.setMp r p f).strms = d.strms := rfl
@[simp] theorem Dev.setMp_slots (d : Dev) (r p : Nat) (f : MpSt → MpSt) : (d.setMp r p f).slots = d.slots := rfl
@[simp] theorem Dev.setMp_ces (d : Dev) (r p : Nat) (f : MpSt → MpSt) : (d.setMp r p f).ces = d.ces := rfl
@[simp] theorem Dev.setMp_des (d : Dev) (r p : Nat) (f : MpSt → MpSt) : (d.setMp r p f).des = d.des := rfl
@[simp] theorem Dev.setMp_ras (d : Dev) (r p : Nat) (f : MpSt → MpSt) : (d.setMp r p f).ras = d.ras := rfl
@[simp] theorem Dev.setMp_flows (d : Dev) (r p : Nat) (f : MpSt → MpSt) : (d.setMp r p f).flows = d.flows := rfl
@[simp] theorem Dev.setMp_nodes (d : Dev) (r p : Nat) (f : MpSt → MpSt) : (d.setMp r p f).nodes = d.nodes := rfl
@[simp] theorem Dev.setMp_busy (d : Dev) (r p : Nat) (f : MpSt → MpSt) : (d.setMp r p f).busy = d.busy := rfl
@[simp] theorem Dev.setMp_lanes (d : Dev) (r p : Nat) (f : MpSt → MpSt) : (d.setMp r p f).lanes = d.lanes := rfl
@[simp] theorem Dev.setMp_leg (d : Dev) (r p : Nat) (f : MpSt → MpSt) : (d.setMp r p f).leg = d.leg := rfl
@[simp] theorem Dev.setMp_pols (d : Dev) (r p : Nat) (f : MpSt → MpSt) : (d.setMp r p f).pols = d.pols := rfl
@[simp] theorem Dev.setMp_arbs (d : Dev) (r p : Nat) (f : MpSt → MpSt) : (d.setMp r p f).arbs = d.arbs := rfl
@[simp] theorem Dev.setMp_mirs (d : Dev) (r p : Nat) (f : MpSt → MpSt) : (d.setMp r p f).mirs = d.mirs := rfl
@[simp] theorem Dev.setMp_pgs (d : Dev) (r p : Nat) (f : MpSt → MpSt) : (d.setMp r p f).pgs = d.pgs := rfl
@[simp] theorem Dev.setMp_free (d : Dev) (r p : Nat) (f : MpSt → MpSt) : (d.setMp r p f).free = d.free := rfl
@[simp] theorem Dev.setMp_out (d : Dev) (r p : Nat) (f : MpSt → MpSt) : (d.setMp r p f).out = d.out := rfl
@[simp] theorem Dev.setMp_rd (d : Dev) (r p : Nat) (f : MpSt → MpSt) (row : Row) (base i : Nat) :
    (d.setMp r p f).rd row base i = d.rd row base i := rfl
@[simp] theorem Dev.setMp_now (d : Dev) (r p : Nat) (f : MpSt → MpSt) : (d.setMp r p f).now = d.now := rfl
@[simp] theorem Dev.setMp_mp (d : Dev) (r p : Nat) (f : MpSt → MpSt) : (d.setMp r p f).mp r p = f (d.mp r p) := by
  simp [Dev.mp, Dev.setMp]

/-! ### `setArb` -/

@[simp] theorem Dev.setArb_regs (d : Dev) (r t : Nat) (f : Arb → Arb) : (d.setArb r t f).regs = d.regs := rfl
@[simp] theorem Dev.setArb_shadow (d : Dev) (r t : Nat) (f : Arb → Arb) : (d.setArb r t f).shadow = d.shadow := rfl
@[simp] theorem Dev.setArb_pend (d : Dev) (r t : Nat) (f : Arb → Arb) : (d.setArb r t f).pend = d.pend := rfl
@[simp] theorem Dev.setArb_lockRes (d : Dev) (r t : Nat) (f : Arb → Arb) : (d.setArb r t f).lockRes = d.lockRes := rfl
@[simp] theorem Dev.setArb_lease (d : Dev) (r t : Nat) (f : Arb → Arb) : (d.setArb r t f).lease = d.lease := rfl
@[simp] theorem Dev.setArb_snaps (d : Dev) (r t : Nat) (f : Arb → Arb) : (d.setArb r t f).snaps = d.snaps := rfl
@[simp] theorem Dev.setArb_lowWords (d : Dev) (r t : Nat) (f : Arb → Arb) : (d.setArb r t f).lowWords = d.lowWords := rfl
@[simp] theorem Dev.setArb_setsWritten (d : Dev) (r t : Nat) (f : Arb → Arb) : (d.setArb r t f).setsWritten = d.setsWritten := rfl
@[simp] theorem Dev.setArb_hosts (d : Dev) (r t : Nat) (f : Arb → Arb) : (d.setArb r t f).hosts = d.hosts := rfl
@[simp] theorem Dev.setArb_lastSec (d : Dev) (r t : Nat) (f : Arb → Arb) : (d.setArb r t f).lastSec = d.lastSec := rfl
@[simp] theorem Dev.setArb_sys (d : Dev) (r t : Nat) (f : Arb → Arb) : (d.setArb r t f).sys = d.sys := rfl
@[simp] theorem Dev.setArb_rgn (d : Dev) (r t : Nat) (f : Arb → Arb) : (d.setArb r t f).rgn = d.rgn := rfl
@[simp] theorem Dev.setArb_isl (d : Dev) (r t : Nat) (f : Arb → Arb) : (d.setArb r t f).isl = d.isl := rfl
@[simp] theorem Dev.setArb_tbs (d : Dev) (r t : Nat) (f : Arb → Arb) : (d.setArb r t f).tbs = d.tbs := rfl
@[simp] theorem Dev.setArb_nvm (d : Dev) (r t : Nat) (f : Arb → Arb) : (d.setArb r t f).nvm = d.nvm := rfl
@[simp] theorem Dev.setArb_ref (d : Dev) (r t : Nat) (f : Arb → Arb) : (d.setArb r t f).ref = d.ref := rfl
@[simp] theorem Dev.setArb_ptp (d : Dev) (r t : Nat) (f : Arb → Arb) : (d.setArb r t f).ptp = d.ptp := rfl
@[simp] theorem Dev.setArb_phaseEnd (d : Dev) (r t : Nat) (f : Arb → Arb) : (d.setArb r t f).phaseEnd = d.phaseEnd := rfl
@[simp] theorem Dev.setArb_adm (d : Dev) (r t : Nat) (f : Arb → Arb) : (d.setArb r t f).adm = d.adm := rfl
@[simp] theorem Dev.setArb_tags (d : Dev) (r t : Nat) (f : Arb → Arb) : (d.setArb r t f).tags = d.tags := rfl
@[simp] theorem Dev.setArb_chans (d : Dev) (r t : Nat) (f : Arb → Arb) : (d.setArb r t f).chans = d.chans := rfl
@[simp] theorem Dev.setArb_rends (d : Dev) (r t : Nat) (f : Arb → Arb) : (d.setArb r t f).rends = d.rends := rfl
@[simp] theorem Dev.setArb_olds (d : Dev) (r t : Nat) (f : Arb → Arb) : (d.setArb r t f).olds = d.olds := rfl
@[simp] theorem Dev.setArb_stats (d : Dev) (r t : Nat) (f : Arb → Arb) : (d.setArb r t f).stats = d.stats := rfl
@[simp] theorem Dev.setArb_strms (d : Dev) (r t : Nat) (f : Arb → Arb) : (d.setArb r t f).strms = d.strms := rfl
@[simp] theorem Dev.setArb_slots (d : Dev) (r t : Nat) (f : Arb → Arb) : (d.setArb r t f).slots = d.slots := rfl
@[simp] theorem Dev.setArb_ces (d : Dev) (r t : Nat) (f : Arb → Arb) : (d.setArb r t f).ces = d.ces := rfl
@[simp] theorem Dev.setArb_des (d : Dev) (r t : Nat) (f : Arb → Arb) : (d.setArb r t f).des = d.des := rfl
@[simp] theorem Dev.setArb_ras (d : Dev) (r t : Nat) (f : Arb → Arb) : (d.setArb r t f).ras = d.ras := rfl
@[simp] theorem Dev.setArb_flows (d : Dev) (r t : Nat) (f : Arb → Arb) : (d.setArb r t f).flows = d.flows := rfl
@[simp] theorem Dev.setArb_nodes (d : Dev) (r t : Nat) (f : Arb → Arb) : (d.setArb r t f).nodes = d.nodes := rfl
@[simp] theorem Dev.setArb_busy (d : Dev) (r t : Nat) (f : Arb → Arb) : (d.setArb r t f).busy = d.busy := rfl
@[simp] theorem Dev.setArb_lanes (d : Dev) (r t : Nat) (f : Arb → Arb) : (d.setArb r t f).lanes = d.lanes := rfl
@[simp] theorem Dev.setArb_leg (d : Dev) (r t : Nat) (f : Arb → Arb) : (d.setArb r t f).leg = d.leg := rfl
@[simp] theorem Dev.setArb_pols (d : Dev) (r t : Nat) (f : Arb → Arb) : (d.setArb r t f).pols = d.pols := rfl
@[simp] theorem Dev.setArb_mps (d : Dev) (r t : Nat) (f : Arb → Arb) : (d.setArb r t f).mps = d.mps := rfl
@[simp] theorem Dev.setArb_mirs (d : Dev) (r t : Nat) (f : Arb → Arb) : (d.setArb r t f).mirs = d.mirs := rfl
@[simp] theorem Dev.setArb_pgs (d : Dev) (r t : Nat) (f : Arb → Arb) : (d.setArb r t f).pgs = d.pgs := rfl
@[simp] theorem Dev.setArb_free (d : Dev) (r t : Nat) (f : Arb → Arb) : (d.setArb r t f).free = d.free := rfl
@[simp] theorem Dev.setArb_out (d : Dev) (r t : Nat) (f : Arb → Arb) : (d.setArb r t f).out = d.out := rfl
@[simp] theorem Dev.setArb_rd (d : Dev) (r t : Nat) (f : Arb → Arb) (row : Row) (base i : Nat) :
    (d.setArb r t f).rd row base i = d.rd row base i := rfl
@[simp] theorem Dev.setArb_now (d : Dev) (r t : Nat) (f : Arb → Arb) : (d.setArb r t f).now = d.now := rfl
@[simp] theorem Dev.setArb_arb (d : Dev) (r t : Nat) (f : Arb → Arb) : (d.setArb r t f).arb r t = f (d.arb r t) := by
  simp [Dev.arb, Dev.setArb]

/-! ### `setSlot` -/

@[simp] theorem Dev.setSlot_regs (d : Dev) (r slot : Nat) (f : DecSlot → DecSlot) : (d.setSlot r slot f).regs = d.regs := rfl
@[simp] theorem Dev.setSlot_shadow (d : Dev) (r slot : Nat) (f : DecSlot → DecSlot) : (d.setSlot r slot f).shadow = d.shadow := rfl
@[simp] theorem Dev.setSlot_pend (d : Dev) (r slot : Nat) (f : DecSlot → DecSlot) : (d.setSlot r slot f).pend = d.pend := rfl
@[simp] theorem Dev.setSlot_lockRes (d : Dev) (r slot : Nat) (f : DecSlot → DecSlot) : (d.setSlot r slot f).lockRes = d.lockRes := rfl
@[simp] theorem Dev.setSlot_lease (d : Dev) (r slot : Nat) (f : DecSlot → DecSlot) : (d.setSlot r slot f).lease = d.lease := rfl
@[simp] theorem Dev.setSlot_snaps (d : Dev) (r slot : Nat) (f : DecSlot → DecSlot) : (d.setSlot r slot f).snaps = d.snaps := rfl
@[simp] theorem Dev.setSlot_lowWords (d : Dev) (r slot : Nat) (f : DecSlot → DecSlot) : (d.setSlot r slot f).lowWords = d.lowWords := rfl
@[simp] theorem Dev.setSlot_setsWritten (d : Dev) (r slot : Nat) (f : DecSlot → DecSlot) : (d.setSlot r slot f).setsWritten = d.setsWritten := rfl
@[simp] theorem Dev.setSlot_hosts (d : Dev) (r slot : Nat) (f : DecSlot → DecSlot) : (d.setSlot r slot f).hosts = d.hosts := rfl
@[simp] theorem Dev.setSlot_lastSec (d : Dev) (r slot : Nat) (f : DecSlot → DecSlot) : (d.setSlot r slot f).lastSec = d.lastSec := rfl
@[simp] theorem Dev.setSlot_sys (d : Dev) (r slot : Nat) (f : DecSlot → DecSlot) : (d.setSlot r slot f).sys = d.sys := rfl
@[simp] theorem Dev.setSlot_rgn (d : Dev) (r slot : Nat) (f : DecSlot → DecSlot) : (d.setSlot r slot f).rgn = d.rgn := rfl
@[simp] theorem Dev.setSlot_isl (d : Dev) (r slot : Nat) (f : DecSlot → DecSlot) : (d.setSlot r slot f).isl = d.isl := rfl
@[simp] theorem Dev.setSlot_tbs (d : Dev) (r slot : Nat) (f : DecSlot → DecSlot) : (d.setSlot r slot f).tbs = d.tbs := rfl
@[simp] theorem Dev.setSlot_nvm (d : Dev) (r slot : Nat) (f : DecSlot → DecSlot) : (d.setSlot r slot f).nvm = d.nvm := rfl
@[simp] theorem Dev.setSlot_ref (d : Dev) (r slot : Nat) (f : DecSlot → DecSlot) : (d.setSlot r slot f).ref = d.ref := rfl
@[simp] theorem Dev.setSlot_ptp (d : Dev) (r slot : Nat) (f : DecSlot → DecSlot) : (d.setSlot r slot f).ptp = d.ptp := rfl
@[simp] theorem Dev.setSlot_phaseEnd (d : Dev) (r slot : Nat) (f : DecSlot → DecSlot) : (d.setSlot r slot f).phaseEnd = d.phaseEnd := rfl
@[simp] theorem Dev.setSlot_adm (d : Dev) (r slot : Nat) (f : DecSlot → DecSlot) : (d.setSlot r slot f).adm = d.adm := rfl
@[simp] theorem Dev.setSlot_tags (d : Dev) (r slot : Nat) (f : DecSlot → DecSlot) : (d.setSlot r slot f).tags = d.tags := rfl
@[simp] theorem Dev.setSlot_chans (d : Dev) (r slot : Nat) (f : DecSlot → DecSlot) : (d.setSlot r slot f).chans = d.chans := rfl
@[simp] theorem Dev.setSlot_rends (d : Dev) (r slot : Nat) (f : DecSlot → DecSlot) : (d.setSlot r slot f).rends = d.rends := rfl
@[simp] theorem Dev.setSlot_olds (d : Dev) (r slot : Nat) (f : DecSlot → DecSlot) : (d.setSlot r slot f).olds = d.olds := rfl
@[simp] theorem Dev.setSlot_stats (d : Dev) (r slot : Nat) (f : DecSlot → DecSlot) : (d.setSlot r slot f).stats = d.stats := rfl
@[simp] theorem Dev.setSlot_strms (d : Dev) (r slot : Nat) (f : DecSlot → DecSlot) : (d.setSlot r slot f).strms = d.strms := rfl
@[simp] theorem Dev.setSlot_ces (d : Dev) (r slot : Nat) (f : DecSlot → DecSlot) : (d.setSlot r slot f).ces = d.ces := rfl
@[simp] theorem Dev.setSlot_des (d : Dev) (r slot : Nat) (f : DecSlot → DecSlot) : (d.setSlot r slot f).des = d.des := rfl
@[simp] theorem Dev.setSlot_ras (d : Dev) (r slot : Nat) (f : DecSlot → DecSlot) : (d.setSlot r slot f).ras = d.ras := rfl
@[simp] theorem Dev.setSlot_flows (d : Dev) (r slot : Nat) (f : DecSlot → DecSlot) : (d.setSlot r slot f).flows = d.flows := rfl
@[simp] theorem Dev.setSlot_nodes (d : Dev) (r slot : Nat) (f : DecSlot → DecSlot) : (d.setSlot r slot f).nodes = d.nodes := rfl
@[simp] theorem Dev.setSlot_busy (d : Dev) (r slot : Nat) (f : DecSlot → DecSlot) : (d.setSlot r slot f).busy = d.busy := rfl
@[simp] theorem Dev.setSlot_lanes (d : Dev) (r slot : Nat) (f : DecSlot → DecSlot) : (d.setSlot r slot f).lanes = d.lanes := rfl
@[simp] theorem Dev.setSlot_leg (d : Dev) (r slot : Nat) (f : DecSlot → DecSlot) : (d.setSlot r slot f).leg = d.leg := rfl
@[simp] theorem Dev.setSlot_pols (d : Dev) (r slot : Nat) (f : DecSlot → DecSlot) : (d.setSlot r slot f).pols = d.pols := rfl
@[simp] theorem Dev.setSlot_mps (d : Dev) (r slot : Nat) (f : DecSlot → DecSlot) : (d.setSlot r slot f).mps = d.mps := rfl
@[simp] theorem Dev.setSlot_arbs (d : Dev) (r slot : Nat) (f : DecSlot → DecSlot) : (d.setSlot r slot f).arbs = d.arbs := rfl
@[simp] theorem Dev.setSlot_mirs (d : Dev) (r slot : Nat) (f : DecSlot → DecSlot) : (d.setSlot r slot f).mirs = d.mirs := rfl
@[simp] theorem Dev.setSlot_pgs (d : Dev) (r slot : Nat) (f : DecSlot → DecSlot) : (d.setSlot r slot f).pgs = d.pgs := rfl
@[simp] theorem Dev.setSlot_free (d : Dev) (r slot : Nat) (f : DecSlot → DecSlot) : (d.setSlot r slot f).free = d.free := rfl
@[simp] theorem Dev.setSlot_out (d : Dev) (r slot : Nat) (f : DecSlot → DecSlot) : (d.setSlot r slot f).out = d.out := rfl
@[simp] theorem Dev.setSlot_rd (d : Dev) (r slot : Nat) (f : DecSlot → DecSlot) (row : Row) (base i : Nat) :
    (d.setSlot r slot f).rd row base i = d.rd row base i := rfl
@[simp] theorem Dev.setSlot_now (d : Dev) (r slot : Nat) (f : DecSlot → DecSlot) : (d.setSlot r slot f).now = d.now := rfl
@[simp] theorem Dev.setSlot_decSlot (d : Dev) (r slot : Nat) (f : DecSlot → DecSlot) : (d.setSlot r slot f).decSlot r slot = f (d.decSlot r slot) := by
  simp [Dev.decSlot, Dev.setSlot]

/-! ### `setPg` -/

@[simp] theorem Dev.setPg_regs (d : Dev) (n slot : Nat) (f : PgSlot → PgSlot) : (d.setPg n slot f).regs = d.regs := rfl
@[simp] theorem Dev.setPg_shadow (d : Dev) (n slot : Nat) (f : PgSlot → PgSlot) : (d.setPg n slot f).shadow = d.shadow := rfl
@[simp] theorem Dev.setPg_pend (d : Dev) (n slot : Nat) (f : PgSlot → PgSlot) : (d.setPg n slot f).pend = d.pend := rfl
@[simp] theorem Dev.setPg_lockRes (d : Dev) (n slot : Nat) (f : PgSlot → PgSlot) : (d.setPg n slot f).lockRes = d.lockRes := rfl
@[simp] theorem Dev.setPg_lease (d : Dev) (n slot : Nat) (f : PgSlot → PgSlot) : (d.setPg n slot f).lease = d.lease := rfl
@[simp] theorem Dev.setPg_snaps (d : Dev) (n slot : Nat) (f : PgSlot → PgSlot) : (d.setPg n slot f).snaps = d.snaps := rfl
@[simp] theorem Dev.setPg_lowWords (d : Dev) (n slot : Nat) (f : PgSlot → PgSlot) : (d.setPg n slot f).lowWords = d.lowWords := rfl
@[simp] theorem Dev.setPg_setsWritten (d : Dev) (n slot : Nat) (f : PgSlot → PgSlot) : (d.setPg n slot f).setsWritten = d.setsWritten := rfl
@[simp] theorem Dev.setPg_hosts (d : Dev) (n slot : Nat) (f : PgSlot → PgSlot) : (d.setPg n slot f).hosts = d.hosts := rfl
@[simp] theorem Dev.setPg_lastSec (d : Dev) (n slot : Nat) (f : PgSlot → PgSlot) : (d.setPg n slot f).lastSec = d.lastSec := rfl
@[simp] theorem Dev.setPg_sys (d : Dev) (n slot : Nat) (f : PgSlot → PgSlot) : (d.setPg n slot f).sys = d.sys := rfl
@[simp] theorem Dev.setPg_rgn (d : Dev) (n slot : Nat) (f : PgSlot → PgSlot) : (d.setPg n slot f).rgn = d.rgn := rfl
@[simp] theorem Dev.setPg_isl (d : Dev) (n slot : Nat) (f : PgSlot → PgSlot) : (d.setPg n slot f).isl = d.isl := rfl
@[simp] theorem Dev.setPg_tbs (d : Dev) (n slot : Nat) (f : PgSlot → PgSlot) : (d.setPg n slot f).tbs = d.tbs := rfl
@[simp] theorem Dev.setPg_nvm (d : Dev) (n slot : Nat) (f : PgSlot → PgSlot) : (d.setPg n slot f).nvm = d.nvm := rfl
@[simp] theorem Dev.setPg_ref (d : Dev) (n slot : Nat) (f : PgSlot → PgSlot) : (d.setPg n slot f).ref = d.ref := rfl
@[simp] theorem Dev.setPg_ptp (d : Dev) (n slot : Nat) (f : PgSlot → PgSlot) : (d.setPg n slot f).ptp = d.ptp := rfl
@[simp] theorem Dev.setPg_phaseEnd (d : Dev) (n slot : Nat) (f : PgSlot → PgSlot) : (d.setPg n slot f).phaseEnd = d.phaseEnd := rfl
@[simp] theorem Dev.setPg_adm (d : Dev) (n slot : Nat) (f : PgSlot → PgSlot) : (d.setPg n slot f).adm = d.adm := rfl
@[simp] theorem Dev.setPg_tags (d : Dev) (n slot : Nat) (f : PgSlot → PgSlot) : (d.setPg n slot f).tags = d.tags := rfl
@[simp] theorem Dev.setPg_chans (d : Dev) (n slot : Nat) (f : PgSlot → PgSlot) : (d.setPg n slot f).chans = d.chans := rfl
@[simp] theorem Dev.setPg_rends (d : Dev) (n slot : Nat) (f : PgSlot → PgSlot) : (d.setPg n slot f).rends = d.rends := rfl
@[simp] theorem Dev.setPg_olds (d : Dev) (n slot : Nat) (f : PgSlot → PgSlot) : (d.setPg n slot f).olds = d.olds := rfl
@[simp] theorem Dev.setPg_stats (d : Dev) (n slot : Nat) (f : PgSlot → PgSlot) : (d.setPg n slot f).stats = d.stats := rfl
@[simp] theorem Dev.setPg_strms (d : Dev) (n slot : Nat) (f : PgSlot → PgSlot) : (d.setPg n slot f).strms = d.strms := rfl
@[simp] theorem Dev.setPg_slots (d : Dev) (n slot : Nat) (f : PgSlot → PgSlot) : (d.setPg n slot f).slots = d.slots := rfl
@[simp] theorem Dev.setPg_ces (d : Dev) (n slot : Nat) (f : PgSlot → PgSlot) : (d.setPg n slot f).ces = d.ces := rfl
@[simp] theorem Dev.setPg_des (d : Dev) (n slot : Nat) (f : PgSlot → PgSlot) : (d.setPg n slot f).des = d.des := rfl
@[simp] theorem Dev.setPg_ras (d : Dev) (n slot : Nat) (f : PgSlot → PgSlot) : (d.setPg n slot f).ras = d.ras := rfl
@[simp] theorem Dev.setPg_flows (d : Dev) (n slot : Nat) (f : PgSlot → PgSlot) : (d.setPg n slot f).flows = d.flows := rfl
@[simp] theorem Dev.setPg_nodes (d : Dev) (n slot : Nat) (f : PgSlot → PgSlot) : (d.setPg n slot f).nodes = d.nodes := rfl
@[simp] theorem Dev.setPg_busy (d : Dev) (n slot : Nat) (f : PgSlot → PgSlot) : (d.setPg n slot f).busy = d.busy := rfl
@[simp] theorem Dev.setPg_lanes (d : Dev) (n slot : Nat) (f : PgSlot → PgSlot) : (d.setPg n slot f).lanes = d.lanes := rfl
@[simp] theorem Dev.setPg_leg (d : Dev) (n slot : Nat) (f : PgSlot → PgSlot) : (d.setPg n slot f).leg = d.leg := rfl
@[simp] theorem Dev.setPg_pols (d : Dev) (n slot : Nat) (f : PgSlot → PgSlot) : (d.setPg n slot f).pols = d.pols := rfl
@[simp] theorem Dev.setPg_mps (d : Dev) (n slot : Nat) (f : PgSlot → PgSlot) : (d.setPg n slot f).mps = d.mps := rfl
@[simp] theorem Dev.setPg_arbs (d : Dev) (n slot : Nat) (f : PgSlot → PgSlot) : (d.setPg n slot f).arbs = d.arbs := rfl
@[simp] theorem Dev.setPg_mirs (d : Dev) (n slot : Nat) (f : PgSlot → PgSlot) : (d.setPg n slot f).mirs = d.mirs := rfl
@[simp] theorem Dev.setPg_free (d : Dev) (n slot : Nat) (f : PgSlot → PgSlot) : (d.setPg n slot f).free = d.free := rfl
@[simp] theorem Dev.setPg_out (d : Dev) (n slot : Nat) (f : PgSlot → PgSlot) : (d.setPg n slot f).out = d.out := rfl
@[simp] theorem Dev.setPg_rd (d : Dev) (n slot : Nat) (f : PgSlot → PgSlot) (row : Row) (base i : Nat) :
    (d.setPg n slot f).rd row base i = d.rd row base i := rfl
@[simp] theorem Dev.setPg_now (d : Dev) (n slot : Nat) (f : PgSlot → PgSlot) : (d.setPg n slot f).now = d.now := rfl
@[simp] theorem Dev.setPg_pg (d : Dev) (n slot : Nat) (f : PgSlot → PgSlot) : (d.setPg n slot f).pg n slot = f (d.pg n slot) := by
  simp [Dev.pg, Dev.setPg]

/-! ### `setPtp` -/

@[simp] theorem Dev.setPtp_regs (d : Dev) (n : Nat) (f : PtpSt → PtpSt) : (d.setPtp n f).regs = d.regs := rfl
@[simp] theorem Dev.setPtp_shadow (d : Dev) (n : Nat) (f : PtpSt → PtpSt) : (d.setPtp n f).shadow = d.shadow := rfl
@[simp] theorem Dev.setPtp_pend (d : Dev) (n : Nat) (f : PtpSt → PtpSt) : (d.setPtp n f).pend = d.pend := rfl
@[simp] theorem Dev.setPtp_lockRes (d : Dev) (n : Nat) (f : PtpSt → PtpSt) : (d.setPtp n f).lockRes = d.lockRes := rfl
@[simp] theorem Dev.setPtp_lease (d : Dev) (n : Nat) (f : PtpSt → PtpSt) : (d.setPtp n f).lease = d.lease := rfl
@[simp] theorem Dev.setPtp_snaps (d : Dev) (n : Nat) (f : PtpSt → PtpSt) : (d.setPtp n f).snaps = d.snaps := rfl
@[simp] theorem Dev.setPtp_lowWords (d : Dev) (n : Nat) (f : PtpSt → PtpSt) : (d.setPtp n f).lowWords = d.lowWords := rfl
@[simp] theorem Dev.setPtp_setsWritten (d : Dev) (n : Nat) (f : PtpSt → PtpSt) : (d.setPtp n f).setsWritten = d.setsWritten := rfl
@[simp] theorem Dev.setPtp_hosts (d : Dev) (n : Nat) (f : PtpSt → PtpSt) : (d.setPtp n f).hosts = d.hosts := rfl
@[simp] theorem Dev.setPtp_lastSec (d : Dev) (n : Nat) (f : PtpSt → PtpSt) : (d.setPtp n f).lastSec = d.lastSec := rfl
@[simp] theorem Dev.setPtp_sys (d : Dev) (n : Nat) (f : PtpSt → PtpSt) : (d.setPtp n f).sys = d.sys := rfl
@[simp] theorem Dev.setPtp_rgn (d : Dev) (n : Nat) (f : PtpSt → PtpSt) : (d.setPtp n f).rgn = d.rgn := rfl
@[simp] theorem Dev.setPtp_isl (d : Dev) (n : Nat) (f : PtpSt → PtpSt) : (d.setPtp n f).isl = d.isl := rfl
@[simp] theorem Dev.setPtp_tbs (d : Dev) (n : Nat) (f : PtpSt → PtpSt) : (d.setPtp n f).tbs = d.tbs := rfl
@[simp] theorem Dev.setPtp_nvm (d : Dev) (n : Nat) (f : PtpSt → PtpSt) : (d.setPtp n f).nvm = d.nvm := rfl
@[simp] theorem Dev.setPtp_ref (d : Dev) (n : Nat) (f : PtpSt → PtpSt) : (d.setPtp n f).ref = d.ref := rfl
@[simp] theorem Dev.setPtp_phaseEnd (d : Dev) (n : Nat) (f : PtpSt → PtpSt) : (d.setPtp n f).phaseEnd = d.phaseEnd := rfl
@[simp] theorem Dev.setPtp_adm (d : Dev) (n : Nat) (f : PtpSt → PtpSt) : (d.setPtp n f).adm = d.adm := rfl
@[simp] theorem Dev.setPtp_tags (d : Dev) (n : Nat) (f : PtpSt → PtpSt) : (d.setPtp n f).tags = d.tags := rfl
@[simp] theorem Dev.setPtp_chans (d : Dev) (n : Nat) (f : PtpSt → PtpSt) : (d.setPtp n f).chans = d.chans := rfl
@[simp] theorem Dev.setPtp_rends (d : Dev) (n : Nat) (f : PtpSt → PtpSt) : (d.setPtp n f).rends = d.rends := rfl
@[simp] theorem Dev.setPtp_olds (d : Dev) (n : Nat) (f : PtpSt → PtpSt) : (d.setPtp n f).olds = d.olds := rfl
@[simp] theorem Dev.setPtp_stats (d : Dev) (n : Nat) (f : PtpSt → PtpSt) : (d.setPtp n f).stats = d.stats := rfl
@[simp] theorem Dev.setPtp_strms (d : Dev) (n : Nat) (f : PtpSt → PtpSt) : (d.setPtp n f).strms = d.strms := rfl
@[simp] theorem Dev.setPtp_slots (d : Dev) (n : Nat) (f : PtpSt → PtpSt) : (d.setPtp n f).slots = d.slots := rfl
@[simp] theorem Dev.setPtp_ces (d : Dev) (n : Nat) (f : PtpSt → PtpSt) : (d.setPtp n f).ces = d.ces := rfl
@[simp] theorem Dev.setPtp_des (d : Dev) (n : Nat) (f : PtpSt → PtpSt) : (d.setPtp n f).des = d.des := rfl
@[simp] theorem Dev.setPtp_ras (d : Dev) (n : Nat) (f : PtpSt → PtpSt) : (d.setPtp n f).ras = d.ras := rfl
@[simp] theorem Dev.setPtp_flows (d : Dev) (n : Nat) (f : PtpSt → PtpSt) : (d.setPtp n f).flows = d.flows := rfl
@[simp] theorem Dev.setPtp_nodes (d : Dev) (n : Nat) (f : PtpSt → PtpSt) : (d.setPtp n f).nodes = d.nodes := rfl
@[simp] theorem Dev.setPtp_busy (d : Dev) (n : Nat) (f : PtpSt → PtpSt) : (d.setPtp n f).busy = d.busy := rfl
@[simp] theorem Dev.setPtp_lanes (d : Dev) (n : Nat) (f : PtpSt → PtpSt) : (d.setPtp n f).lanes = d.lanes := rfl
@[simp] theorem Dev.setPtp_leg (d : Dev) (n : Nat) (f : PtpSt → PtpSt) : (d.setPtp n f).leg = d.leg := rfl
@[simp] theorem Dev.setPtp_pols (d : Dev) (n : Nat) (f : PtpSt → PtpSt) : (d.setPtp n f).pols = d.pols := rfl
@[simp] theorem Dev.setPtp_mps (d : Dev) (n : Nat) (f : PtpSt → PtpSt) : (d.setPtp n f).mps = d.mps := rfl
@[simp] theorem Dev.setPtp_arbs (d : Dev) (n : Nat) (f : PtpSt → PtpSt) : (d.setPtp n f).arbs = d.arbs := rfl
@[simp] theorem Dev.setPtp_mirs (d : Dev) (n : Nat) (f : PtpSt → PtpSt) : (d.setPtp n f).mirs = d.mirs := rfl
@[simp] theorem Dev.setPtp_pgs (d : Dev) (n : Nat) (f : PtpSt → PtpSt) : (d.setPtp n f).pgs = d.pgs := rfl
@[simp] theorem Dev.setPtp_free (d : Dev) (n : Nat) (f : PtpSt → PtpSt) : (d.setPtp n f).free = d.free := rfl
@[simp] theorem Dev.setPtp_out (d : Dev) (n : Nat) (f : PtpSt → PtpSt) : (d.setPtp n f).out = d.out := rfl
@[simp] theorem Dev.setPtp_rd (d : Dev) (n : Nat) (f : PtpSt → PtpSt) (row : Row) (base i : Nat) :
    (d.setPtp n f).rd row base i = d.rd row base i := rfl
@[simp] theorem Dev.setPtp_now (d : Dev) (n : Nat) (f : PtpSt → PtpSt) : (d.setPtp n f).now = d.now := rfl
@[simp] theorem Dev.setPtp_ptpSt (d : Dev) (n : Nat) (f : PtpSt → PtpSt) : (d.setPtp n f).ptpSt n = f (d.ptpSt n) := by
  simp [Dev.ptpSt, Dev.setPtp]

/-! ### `setRefSt` -/

@[simp] theorem Dev.setRefSt_regs (d : Dev) (e : Nat) (f : RefSt → RefSt) : (d.setRefSt e f).regs = d.regs := rfl
@[simp] theorem Dev.setRefSt_shadow (d : Dev) (e : Nat) (f : RefSt → RefSt) : (d.setRefSt e f).shadow = d.shadow := rfl
@[simp] theorem Dev.setRefSt_pend (d : Dev) (e : Nat) (f : RefSt → RefSt) : (d.setRefSt e f).pend = d.pend := rfl
@[simp] theorem Dev.setRefSt_lockRes (d : Dev) (e : Nat) (f : RefSt → RefSt) : (d.setRefSt e f).lockRes = d.lockRes := rfl
@[simp] theorem Dev.setRefSt_lease (d : Dev) (e : Nat) (f : RefSt → RefSt) : (d.setRefSt e f).lease = d.lease := rfl
@[simp] theorem Dev.setRefSt_snaps (d : Dev) (e : Nat) (f : RefSt → RefSt) : (d.setRefSt e f).snaps = d.snaps := rfl
@[simp] theorem Dev.setRefSt_lowWords (d : Dev) (e : Nat) (f : RefSt → RefSt) : (d.setRefSt e f).lowWords = d.lowWords := rfl
@[simp] theorem Dev.setRefSt_setsWritten (d : Dev) (e : Nat) (f : RefSt → RefSt) : (d.setRefSt e f).setsWritten = d.setsWritten := rfl
@[simp] theorem Dev.setRefSt_hosts (d : Dev) (e : Nat) (f : RefSt → RefSt) : (d.setRefSt e f).hosts = d.hosts := rfl
@[simp] theorem Dev.setRefSt_lastSec (d : Dev) (e : Nat) (f : RefSt → RefSt) : (d.setRefSt e f).lastSec = d.lastSec := rfl
@[simp] theorem Dev.setRefSt_sys (d : Dev) (e : Nat) (f : RefSt → RefSt) : (d.setRefSt e f).sys = d.sys := rfl
@[simp] theorem Dev.setRefSt_rgn (d : Dev) (e : Nat) (f : RefSt → RefSt) : (d.setRefSt e f).rgn = d.rgn := rfl
@[simp] theorem Dev.setRefSt_isl (d : Dev) (e : Nat) (f : RefSt → RefSt) : (d.setRefSt e f).isl = d.isl := rfl
@[simp] theorem Dev.setRefSt_tbs (d : Dev) (e : Nat) (f : RefSt → RefSt) : (d.setRefSt e f).tbs = d.tbs := rfl
@[simp] theorem Dev.setRefSt_nvm (d : Dev) (e : Nat) (f : RefSt → RefSt) : (d.setRefSt e f).nvm = d.nvm := rfl
@[simp] theorem Dev.setRefSt_ptp (d : Dev) (e : Nat) (f : RefSt → RefSt) : (d.setRefSt e f).ptp = d.ptp := rfl
@[simp] theorem Dev.setRefSt_phaseEnd (d : Dev) (e : Nat) (f : RefSt → RefSt) : (d.setRefSt e f).phaseEnd = d.phaseEnd := rfl
@[simp] theorem Dev.setRefSt_adm (d : Dev) (e : Nat) (f : RefSt → RefSt) : (d.setRefSt e f).adm = d.adm := rfl
@[simp] theorem Dev.setRefSt_tags (d : Dev) (e : Nat) (f : RefSt → RefSt) : (d.setRefSt e f).tags = d.tags := rfl
@[simp] theorem Dev.setRefSt_chans (d : Dev) (e : Nat) (f : RefSt → RefSt) : (d.setRefSt e f).chans = d.chans := rfl
@[simp] theorem Dev.setRefSt_rends (d : Dev) (e : Nat) (f : RefSt → RefSt) : (d.setRefSt e f).rends = d.rends := rfl
@[simp] theorem Dev.setRefSt_olds (d : Dev) (e : Nat) (f : RefSt → RefSt) : (d.setRefSt e f).olds = d.olds := rfl
@[simp] theorem Dev.setRefSt_stats (d : Dev) (e : Nat) (f : RefSt → RefSt) : (d.setRefSt e f).stats = d.stats := rfl
@[simp] theorem Dev.setRefSt_strms (d : Dev) (e : Nat) (f : RefSt → RefSt) : (d.setRefSt e f).strms = d.strms := rfl
@[simp] theorem Dev.setRefSt_slots (d : Dev) (e : Nat) (f : RefSt → RefSt) : (d.setRefSt e f).slots = d.slots := rfl
@[simp] theorem Dev.setRefSt_ces (d : Dev) (e : Nat) (f : RefSt → RefSt) : (d.setRefSt e f).ces = d.ces := rfl
@[simp] theorem Dev.setRefSt_des (d : Dev) (e : Nat) (f : RefSt → RefSt) : (d.setRefSt e f).des = d.des := rfl
@[simp] theorem Dev.setRefSt_ras (d : Dev) (e : Nat) (f : RefSt → RefSt) : (d.setRefSt e f).ras = d.ras := rfl
@[simp] theorem Dev.setRefSt_flows (d : Dev) (e : Nat) (f : RefSt → RefSt) : (d.setRefSt e f).flows = d.flows := rfl
@[simp] theorem Dev.setRefSt_nodes (d : Dev) (e : Nat) (f : RefSt → RefSt) : (d.setRefSt e f).nodes = d.nodes := rfl
@[simp] theorem Dev.setRefSt_busy (d : Dev) (e : Nat) (f : RefSt → RefSt) : (d.setRefSt e f).busy = d.busy := rfl
@[simp] theorem Dev.setRefSt_lanes (d : Dev) (e : Nat) (f : RefSt → RefSt) : (d.setRefSt e f).lanes = d.lanes := rfl
@[simp] theorem Dev.setRefSt_leg (d : Dev) (e : Nat) (f : RefSt → RefSt) : (d.setRefSt e f).leg = d.leg := rfl
@[simp] theorem Dev.setRefSt_pols (d : Dev) (e : Nat) (f : RefSt → RefSt) : (d.setRefSt e f).pols = d.pols := rfl
@[simp] theorem Dev.setRefSt_mps (d : Dev) (e : Nat) (f : RefSt → RefSt) : (d.setRefSt e f).mps = d.mps := rfl
@[simp] theorem Dev.setRefSt_arbs (d : Dev) (e : Nat) (f : RefSt → RefSt) : (d.setRefSt e f).arbs = d.arbs := rfl
@[simp] theorem Dev.setRefSt_mirs (d : Dev) (e : Nat) (f : RefSt → RefSt) : (d.setRefSt e f).mirs = d.mirs := rfl
@[simp] theorem Dev.setRefSt_pgs (d : Dev) (e : Nat) (f : RefSt → RefSt) : (d.setRefSt e f).pgs = d.pgs := rfl
@[simp] theorem Dev.setRefSt_free (d : Dev) (e : Nat) (f : RefSt → RefSt) : (d.setRefSt e f).free = d.free := rfl
@[simp] theorem Dev.setRefSt_out (d : Dev) (e : Nat) (f : RefSt → RefSt) : (d.setRefSt e f).out = d.out := rfl
@[simp] theorem Dev.setRefSt_rd (d : Dev) (e : Nat) (f : RefSt → RefSt) (row : Row) (base i : Nat) :
    (d.setRefSt e f).rd row base i = d.rd row base i := rfl
@[simp] theorem Dev.setRefSt_now (d : Dev) (e : Nat) (f : RefSt → RefSt) : (d.setRefSt e f).now = d.now := rfl
@[simp] theorem Dev.setRefSt_refSt (d : Dev) (e : Nat) (f : RefSt → RefSt) : (d.setRefSt e f).refSt e = f (d.refSt e) := by
  simp [Dev.refSt, Dev.setRefSt]

/-! ### `advanceTo` -/

@[simp] theorem Dev.advanceTo_regs (d : Dev) (t : Nat) : (d.advanceTo t).regs = d.regs := by
  simp only [Dev.advanceTo]; split <;> rfl
@[simp] theorem Dev.advanceTo_shadow (d : Dev) (t : Nat) : (d.advanceTo t).shadow = d.shadow := by
  simp only [Dev.advanceTo]; split <;> rfl
@[simp] theorem Dev.advanceTo_pend (d : Dev) (t : Nat) : (d.advanceTo t).pend = d.pend := by
  simp only [Dev.advanceTo]; split <;> rfl
@[simp] theorem Dev.advanceTo_lockRes (d : Dev) (t : Nat) : (d.advanceTo t).lockRes = d.lockRes := by
  simp only [Dev.advanceTo]; split <;> rfl
@[simp] theorem Dev.advanceTo_lease (d : Dev) (t : Nat) : (d.advanceTo t).lease = d.lease := by
  simp only [Dev.advanceTo]; split <;> rfl
@[simp] theorem Dev.advanceTo_snaps (d : Dev) (t : Nat) : (d.advanceTo t).snaps = d.snaps := by
  simp only [Dev.advanceTo]; split <;> rfl
@[simp] theorem Dev.advanceTo_lowWords (d : Dev) (t : Nat) : (d.advanceTo t).lowWords = d.lowWords := by
  simp only [Dev.advanceTo]; split <;> rfl
@[simp] theorem Dev.advanceTo_setsWritten (d : Dev) (t : Nat) : (d.advanceTo t).setsWritten = d.setsWritten := by
  simp only [Dev.advanceTo]; split <;> rfl
@[simp] theorem Dev.advanceTo_hosts (d : Dev) (t : Nat) : (d.advanceTo t).hosts = d.hosts := by
  simp only [Dev.advanceTo]; split <;> rfl
@[simp] theorem Dev.advanceTo_lastSec (d : Dev) (t : Nat) : (d.advanceTo t).lastSec = d.lastSec := by
  simp only [Dev.advanceTo]; split <;> rfl
@[simp] theorem Dev.advanceTo_sys (d : Dev) (t : Nat) : (d.advanceTo t).sys = d.sys := by
  simp only [Dev.advanceTo]; split <;> rfl
@[simp] theorem Dev.advanceTo_rgn (d : Dev) (t : Nat) : (d.advanceTo t).rgn = d.rgn := by
  simp only [Dev.advanceTo]; split <;> rfl
@[simp] theorem Dev.advanceTo_isl (d : Dev) (t : Nat) : (d.advanceTo t).isl = d.isl := by
  simp only [Dev.advanceTo]; split <;> rfl
@[simp] theorem Dev.advanceTo_nvm (d : Dev) (t : Nat) : (d.advanceTo t).nvm = d.nvm := by
  simp only [Dev.advanceTo]; split <;> rfl
@[simp] theorem Dev.advanceTo_ref (d : Dev) (t : Nat) : (d.advanceTo t).ref = d.ref := by
  simp only [Dev.advanceTo]; split <;> rfl
@[simp] theorem Dev.advanceTo_ptp (d : Dev) (t : Nat) : (d.advanceTo t).ptp = d.ptp := by
  simp only [Dev.advanceTo]; split <;> rfl
@[simp] theorem Dev.advanceTo_phaseEnd (d : Dev) (t : Nat) : (d.advanceTo t).phaseEnd = d.phaseEnd := by
  simp only [Dev.advanceTo]; split <;> rfl
@[simp] theorem Dev.advanceTo_adm (d : Dev) (t : Nat) : (d.advanceTo t).adm = d.adm := by
  simp only [Dev.advanceTo]; split <;> rfl
@[simp] theorem Dev.advanceTo_tags (d : Dev) (t : Nat) : (d.advanceTo t).tags = d.tags := by
  simp only [Dev.advanceTo]; split <;> rfl
@[simp] theorem Dev.advanceTo_chans (d : Dev) (t : Nat) : (d.advanceTo t).chans = d.chans := by
  simp only [Dev.advanceTo]; split <;> rfl
@[simp] theorem Dev.advanceTo_rends (d : Dev) (t : Nat) : (d.advanceTo t).rends = d.rends := by
  simp only [Dev.advanceTo]; split <;> rfl
@[simp] theorem Dev.advanceTo_olds (d : Dev) (t : Nat) : (d.advanceTo t).olds = d.olds := by
  simp only [Dev.advanceTo]; split <;> rfl
@[simp] theorem Dev.advanceTo_stats (d : Dev) (t : Nat) : (d.advanceTo t).stats = d.stats := by
  simp only [Dev.advanceTo]; split <;> rfl
@[simp] theorem Dev.advanceTo_strms (d : Dev) (t : Nat) : (d.advanceTo t).strms = d.strms := by
  simp only [Dev.advanceTo]; split <;> rfl
@[simp] theorem Dev.advanceTo_slots (d : Dev) (t : Nat) : (d.advanceTo t).slots = d.slots := by
  simp only [Dev.advanceTo]; split <;> rfl
@[simp] theorem Dev.advanceTo_ces (d : Dev) (t : Nat) : (d.advanceTo t).ces = d.ces := by
  simp only [Dev.advanceTo]; split <;> rfl
@[simp] theorem Dev.advanceTo_des (d : Dev) (t : Nat) : (d.advanceTo t).des = d.des := by
  simp only [Dev.advanceTo]; split <;> rfl
@[simp] theorem Dev.advanceTo_ras (d : Dev) (t : Nat) : (d.advanceTo t).ras = d.ras := by
  simp only [Dev.advanceTo]; split <;> rfl
@[simp] theorem Dev.advanceTo_flows (d : Dev) (t : Nat) : (d.advanceTo t).flows = d.flows := by
  simp only [Dev.advanceTo]; split <;> rfl
@[simp] theorem Dev.advanceTo_nodes (d : Dev) (t : Nat) : (d.advanceTo t).nodes = d.nodes := by
  simp only [Dev.advanceTo]; split <;> rfl
@[simp] theorem Dev.advanceTo_busy (d : Dev) (t : Nat) : (d.advanceTo t).busy = d.busy := by
  simp only [Dev.advanceTo]; split <;> rfl
@[simp] theorem Dev.advanceTo_lanes (d : Dev) (t : Nat) : (d.advanceTo t).lanes = d.lanes := by
  simp only [Dev.advanceTo]; split <;> rfl
@[simp] theorem Dev.advanceTo_leg (d : Dev) (t : Nat) : (d.advanceTo t).leg = d.leg := by
  simp only [Dev.advanceTo]; split <;> rfl
@[simp] theorem Dev.advanceTo_pols (d : Dev) (t : Nat) : (d.advanceTo t).pols = d.pols := by
  simp only [Dev.advanceTo]; split <;> rfl
@[simp] theorem Dev.advanceTo_mps (d : Dev) (t : Nat) : (d.advanceTo t).mps = d.mps := by
  simp only [Dev.advanceTo]; split <;> rfl
@[simp] theorem Dev.advanceTo_arbs (d : Dev) (t : Nat) : (d.advanceTo t).arbs = d.arbs := by
  simp only [Dev.advanceTo]; split <;> rfl
@[simp] theorem Dev.advanceTo_mirs (d : Dev) (t : Nat) : (d.advanceTo t).mirs = d.mirs := by
  simp only [Dev.advanceTo]; split <;> rfl
@[simp] theorem Dev.advanceTo_pgs (d : Dev) (t : Nat) : (d.advanceTo t).pgs = d.pgs := by
  simp only [Dev.advanceTo]; split <;> rfl
@[simp] theorem Dev.advanceTo_free (d : Dev) (t : Nat) : (d.advanceTo t).free = d.free := by
  simp only [Dev.advanceTo]; split <;> rfl
@[simp] theorem Dev.advanceTo_out (d : Dev) (t : Nat) : (d.advanceTo t).out = d.out := by
  simp only [Dev.advanceTo]; split <;> rfl
@[simp] theorem Dev.advanceTo_rd (d : Dev) (t : Nat) (row : Row) (base i : Nat) : (d.advanceTo t).rd row base i = d.rd row base i := by
  simp only [Dev.advanceTo]; split <;> rfl

end Sys2Proof.Machine
end

