-- ==== Sys2Proof/Laws/Commands.lean ====
section
/-! SUPPORT. How to pass from a command to its meaning: what `Answers` says once exec is known, and what the lock rules do to a command
whose writer holds the page's lock. -/

namespace Sys2Proof.Machine

/-- A command whose outcome is known answers exactly what its next state has. -/
theorem answers_iff {i : Instr} {s t : State} {Q : State → Prop} (h : exec i s = .next t) : Answers i s Q ↔ Q t :=
  ⟨fun ⟨_, hu, hq⟩ => by rw [h] at hu; cases hu; exact hq, fun hq => ⟨t, h, hq⟩⟩

/-- An answer with a stronger property is one with a weaker. -/
theorem Answers.mono {i : Instr} {s : State} {P Q : State → Prop} (h : Answers i s P) (f : ∀ t, P t → Q t) : Answers i s Q :=
  let ⟨t, ht, hp⟩ := h
  ⟨t, ht, f t hp⟩

/-- A lease that runs breaks nothing. -/
theorem Dev.expire_of_lease {d : Dev} {page : Nat} (h : d.leaseOver page = false) : d.expire page = d := by
  unfold Dev.expire
  unfold Dev.leaseOver at h
  split
  · next e he => rw [he] at h; simp at h; simp [Nat.not_le.mpr h]
  · rfl

/-- Under the lock, a guarded write takes effect, its lease begun anew (R398, R399). -/
theorem Dev.locked_of_holds {d : Dev} {w page : Nat} (h : d.holds w page = true) (f : Dev → Dev) :
    d.locked w page f = f (d.restartLease page) := by
  simp only [Dev.holds, Bool.and_eq_true, Bool.not_eq_true'] at h
  obtain ⟨⟨⟨⟨hp, ha⟩, hs⟩, ho⟩, hl⟩ := h
  have hs' : ¬ d.rd Reg.STATUS_SUSPECT page = 1 := by simpa using hs
  simp [Dev.locked, hp, Dev.expire_of_lease hl, Dev.gate, ha, hs', ho]

end Sys2Proof.Machine
end

