-- ==== Sys2Proof/WellFormed.lean ====
section
/-! DEFINITION. Which commands are well formed: every operand in the range the spec gives it. A meaning answers on any operands; a
command whose operand is out of its range names nothing the spec has. -/

namespace Sys2Proof

/-- The owner IDs of R398. -/
def wfW (w : Nat) : Bool := [1, 2, 0x20, 0x30].contains w || (0x10 ≤ w && w < 0x18)

/-- A page with the common layout of R393. -/
def wfPage (page : Nat) : Bool := Machine.isPage page

/-- An 8-bit operand. -/
def b8 (v : Nat) : Bool := v < 256

/-- A 16-bit operand. -/
def w16 (v : Nat) : Bool := v < 65536

/-- A register word (R392). -/
def w32 (v : Nat) : Bool := v < 4294967296

/-- An address of a region's memory (R305). -/
def w64 (v : Nat) : Bool := v < 2 ^ 64

/-- The header fields of a packet (R86). -/
def StreamHdr.wf (h : StreamHdr) : Bool := h.group < 2 ^ 128 && w16 h.udp && h.pt < 128

/-- The header of a PTP message (R376). -/
def PtpHdr.wf (h : PtpHdr) : Bool := b8 h.sender.dom && w16 h.seq

/-- Whether every operand is in its range. -/
def Instr.wf : Instr → Bool
  | .por straps => decide (straps.length = 8)
  | .pinReset straps _ => decide (straps.length = 8)
  | .warmReset w => wfW w
  | .regionReset w r => wfW w && r < 8
  | .regionUp r _ => r < 8
  | .blockReset w page => wfW w && wfPage page
  | .railFault rail _ straps => rail.rail < 15 && decide (straps.length = 8)
  | .thermalTrip r _ => r < 8
  | .thermalRelease r _ _ => r < 8
  | .bootImageVerify i source slot _ => i < 8 && source < 3 && slot < 2
  | .election _ => true
  | .awnHeartbeatSend i _ => i < 8
  | .awnHeartbeatRx obs src _ _ _ => obs < 8 && src < 8 && obs != src
  | .reachTimeout obs src _ _ => obs < 8 && src < 8 && obs != src
  | .holderLost _ _ => true
  | .awnSegment a b => a < 8 && b < 8 && a != b
  | .stolonDown link => link < 10
  | .stolonUp link => link < 10
  | .frameTick c _ => c < 128
  | .sliceTick c _ => c < 128
  | .rachisTick r _ => r < 8
  | .sourceFrame c f => c < 128 && f.aligned < 16 && f.anc.length ≤ 4
  | .inputCaptured c rd j => c < 128 && rd < 8 && j < 68
  | .analysed c rd j _ => c < 128 && rd < 8 && j < 68
  | .st2110Packet c path x => c < 128 && path < 2 && w16 x.seq && x.hdr.wf
  | .admCreate w tag c gen => wfW w && b8 tag && c < 128 && b8 gen
  | .admModify w tag c gen => wfW w && b8 tag && c < 128 && b8 gen
  | .admStop w tag c gen => wfW w && b8 tag && c < 128 && b8 gen
  | .admCheck w tag c gen => wfW w && b8 tag && c < 128 && b8 gen
  | .admResultPost _ nonVcl => decide (nonVcl.length ≤ 8)
  | .modifyApply c _ => c < 128
  | .channelStart c _ => c < 128
  | .chQuarantineEnd c _ => c < 128
  | .cmpCommit w c id _ => wfW w && c < 128 && b8 id
  | .lyPost w c l slot => wfW w && c < 128 && l < 8 && slot < 4
  | .composeLutValidWrite w r v => wfW w && r < 8 && w32 v
  | .roiCommit w c id _ => wfW w && c < 128 && b8 id
  | .statCtrlWrite w c rd v => wfW w && c < 128 && rd < 8 && w32 v
  | .statRecordWrite c rd _ _ => c < 128 && rd < 8
  | .budgetGranted c rd j _ _ => c < 128 && rd < 8 && j < 68
  | .rowBudgetExpiry r ce => r < 8 && ce < 8
  | .ctuCode r ce _ => r < 8 && ce < 8
  | .rowRecon r ce _ => r < 8 && ce < 8
  | .haloArrived r c rd row _ => r < 8 && c < 128 && rd < 8 && b8 row
  | .cycleBudget r x => r < 8 && x.de < 2
  | .wdExpiry r x => r < 8 && x.de < 2
  | .decodePictureEnd r slot _ => r < 8 && slot < 1152
  | .feedPacket c p _ => c < 128 && p.path < 2 && w16 p.rtpSeq && p.hdr.wf
  | .feedDelayExpiry c _ => c < 128
  | .confRowCompare r slot _ _ _ => r < 8 && slot < 1152
  | .raPost r w by_ => r < 8 && wfW w && (match by_ with
    | .words ws => ws.length == 16 && ws.all w32
    | .media cls c rd _ j row _ aff _ _ => cls < 7 && c < 128 && rd < 8 && j < 68 && b8 row && b8 aff
    | .feed c _ aff _ _ => c < 128 && b8 aff
    | .window => true)
  | .raPostFixed r w idx => r < 8 && wfW w && idx < 4096
  | .stalledPostAccept r _ => r < 8
  | .raTokenSend r w => r < 8 && wfW w
  | .tokenArrive r tok _ => r < 8 && decide (tok < 2 ^ 128)
  | .tokenHoldExpiry r idx _ => r < 8 && idx < 4096
  | .delayListJoin r list => r < 8 && list < 4
  | .getWork r cls inst _ _ => r < 8 && cls < 7 && inst < 8
  | .getWorkTimeout r inst _ => r < 8 && inst < 4
  | .doneOk r idx gen => r < 8 && idx < 4096 && b8 gen
  | .doneFailed r idx gen => r < 8 && idx < 4096 && b8 gen
  | .doneRepost r idx gen => r < 8 && idx < 4096 && b8 gen
  | .doneYield r idx gen => r < 8 && idx < 4096 && b8 gen
  | .taskQuarantineEnd r idx _ => r < 8 && idx < 4096
  | .raModeNormal r => r < 8
  | .raModeTest r => r < 8
  | .raModeRecovery r => r < 8
  | .raReqTest w r => wfW w && r < 8
  | .flCreate w r f gen => wfW w && r < 8 && f < 2048 && b8 gen
  | .flModify w r f gen => wfW w && r < 8 && f < 2048 && b8 gen
  | .flDelete w r f gen => wfW w && r < 8 && f < 2048 && b8 gen
  | .flowQuarantineEnd r f _ => r < 8 && f < 2048
  | .commitImmediate w page chan id => wfW w && wfPage page && chan < 128 && b8 id
  | .commitFrame w page chan id => wfW w && wfPage page && chan < 128 && b8 id
  | .commitSlice w page chan id => wfW w && wfPage page && chan < 128 && b8 id
  | .commitWrap w page chan id => wfW w && wfPage page && chan < 128 && b8 id
  | .commitTb w page chan id => wfW w && wfPage page && chan < 128 && b8 id
  | .commitTbApply page _ => wfPage page
  | .pacerWrap r p _ => r < 8 && p < 16
  | .stolonWrap r p _ => r < 8 && p < 3
  | .packetDepart r f _ => r < 8 && f < 2048
  | .portIdle r p _ => r < 8 && p < 16
  | .egressLateDiscard r f _ => r < 8 && f < 2048
  | .obsSample r _ => r < 8
  | .obsConfigWrite w r off v => wfW w && r < 8 && off < 0x1000 && w32 v
  | .policePacket r e x bufPct => r < 8 && b8 e && x.port < 16 && x.hdr.wf && bufPct ≤ 100
  | .policerRateWrite w r e off v => wfW w && r < 8 && b8 e && off < 0x20 && w32 v
  | .ethFrameRx g _ => g < 128
  | .arpRequest g target => g < 128 && w32 target
  | .neighborSolicitation g target => g < 128 && decide (target < 2 ^ 128)
  | .pgCfgWrite w n v => wfW w && n < 4 && w32 v
  | .pgSwitch w n slot => wfW w && n < 4 && slot < 2
  | .pgHold w n slot => wfW w && n < 4 && slot < 2
  | .pgRelease w n slot => wfW w && n < 4 && slot < 2
  | .mirrorCommit c rd _ _ => c < 128 && rd < 8
  | .unitArrived r c rd _ _ => r < 8 && c < 128 && rd < 8
  | .fwBeatMiss r _ => r < 8
  | .islandFatalReport i _ => i < 8
  | .regionFailDeclare n slot _ => n < 4 && slot < 2
  | .egressKill r => r < 8
  | .witnessBeatLoss r _ => r < 8
  | .takeover n slot _ => n < 4 && slot < 2
  | .returnReset n slot _ => n < 4 && slot < 2
  | .revertSchedule n slot _ => n < 4 && slot < 2
  | .revertHandover n slot _ => n < 4 && slot < 2
  | .revertComplete n slot _ => n < 4 && slot < 2
  | .culmRequest r tgt q beats _ => r < 8 && tgt < 11 && q < 29 && beats ≥ 1
  | .culmGrant r tgt _ => r < 8 && tgt < 11
  | .culmWindowStart r tgt _ => r < 8 && tgt < 11
  | .culmRevoke r tgt _ => r < 8 && tgt < 11
  | .sidebandMask r blk _ => r < 8 && blk < 0x34
  | .stolonCreditReturn r p cls _ => r < 8 && p < 3 && cls < 4
  | .memRead r q addr _ _ _ => r < 8 && q.q < 29 && w64 addr
  | .memWrite r q addr _ _ => r < 8 && q.q < 29 && w64 addr
  | .refreshDue r p _ => r < 8 && p < 4
  | .refreshRepay r p => r < 8 && p < 4
  | .refreshRatePoll r p mult _ => r < 8 && p < 4 && (mult == 1 || mult == 2 || mult == 4)
  | .scrubRead r p _ _ => r < 8 && p < 4
  | .trainingComplete r p _ _ _ => r < 8 && p < 4
  | .retrainTrigger r p _ _ => r < 8 && p < 4
  | .retrainStep r p => r < 8 && p < 4
  | .retrainEnd r p _ _ _ _ => r < 8 && p < 4
  | .portRetrainAttempt r p _ _ _ _ => r < 8 && p < 4
  | .laneLos g _ => g < 128
  | .laneLosClear g _ => g < 128
  | .laneLol g _ _ => g < 128
  | .laneLolClear g _ _ => g < 128
  | .laneSyncGain g rate _ _ _ => g < 128 && rate < 16
  | .laneSyncLoss g _ => g < 128
  | .pcsLinkFail g _ => g < 128
  | .portUp g _ => g < 128
  | .llWidthRx dcode => b8 dcode
  | .llWidthTimeout _ => true
  | .llWidthRestore _ => true
  | .llXoff => true
  | .llXon => true
  | .llFrameRx _ _ _ => true
  | .llFrameSend m ts _ => m < 8 && decide (1 ≤ ts.length) && decide (ts.length ≤ 7) && ts.all (fun p => p.length == 188)
  | .llFrameExpire _ => true
  | .llTrainComplete _ => true
  | .adaptStore r vals _ => r < 8 && vals.all (fun x => x.1 < 16)
  | .refEdge i pin _ _ => i < 8 && pin < 4
  | .refLoss e _ => e < 12
  | .esmcRx e ssm _ _ => e < 12 && b8 ssm
  | .refWindowEnd _ _ => true
  | .dcoFofsWrite w v => wfW w && w32 v
  | .tbIncWrite w r v => wfW w && r < 8 && decide (v < 2 ^ 34)
  | .tbSet w r => wfW w && r < 8
  | .tbStep w r => wfW w && r < 8
  | .tbAdjApply _ => true
  | .tbNowRead w r => wfW w && r < 8
  | .multiwordRead w addr => wfW w && w32 addr && addr % 4 == 0
  | .ptpSyncRx n _ _ h _ _ => n < 8 && h.wf
  | .ptpFollowUpRx n _ h _ => n < 8 && h.wf
  | .ptpDelayReqRx n _ seq x => b8 x.dom && n < 8 && w16 seq
  | .ptpDelayRespRx n _ h _ => n < 8 && h.wf
  | .ptpAnnounceRx n a _ => b8 a.dom && n < 8
  | .announceReceiptTimeout n _ => n < 8
  | .ptpSyncTx n _ => n < 8
  | .ptpAnnounceTx n => n < 8
  | .ptpDelayReqTx n _ => n < 8
  | .phaseCorrectionEnd _ => true
  | .servoModeWrite w v => wfW w && w32 v
  | .lockAcquire w page => wfW w && wfPage page
  | .lockRelease w page => wfW w && wfPage page
  | .lockRecover w page => wfW w && wfPage page
  | .lockLeaseExpiry page _ => wfPage page
  | .evRawClear page x => wfW x.w && wfPage page && w32 x.v
  | .evInject page x => wfW x.w && wfPage page && w32 x.v
  | .evtArmWrite h hi v => h < 2 && hi < 2 && w32 v
  | .evrConfigWrite w h off v => wfW w && h < 2 && off < 0x40 && w32 v
  | .msixUnmask h vec => h < 2 && vec < 64
  | .hostLinkDown h => h < 2
  | .hostLinkUp h => h < 2
  | .blockEnableWrite w page v => wfW w && wfPage page && w32 v
  | .bar2AperWrite h v => h < 2 && w32 v
  | .bar2Access h off len wdata _ => h < 2 && decide (off + max len (wdata.getD []).length ≤ 2 ^ 36)
  | .registerWrite w addr v => wfW w && w32 addr && addr % 4 == 0 && w32 v
  | .spiWrite header data => w16 header && data.all w16
  | .spiRead header _ => w16 header
  | .cl4Start n => n < 4
  | .cl4Stop n => n < 4
  | .cl4Apply n => n < 4
  | .cl4SoftReset => true
  | .asiPacketSend r n _ => r < 8 && n < 4
  | .glAttest w tag => wfW w && b8 tag
  | .glChallenge w tag => wfW w && b8 tag
  | .glUnlock w tag => wfW w && b8 tag
  | .glSvnCommit w tag => wfW w && b8 tag
  | .glCustKey w tag => wfW w && b8 tag
  | .glPcieBoot w tag _ => wfW w && b8 tag
  | .nvmStoreRequest rec _ => rec < 6
  | .storeRecheck _ => true
  | .storeDone _ => true
  | .pfailAssert _ => true
  | .pfailDeassert _ => true
  | .holdupSample raw _ => raw < 4096
  | .standaloneStart _ _ => true
  | .logRead w tag => wfW w && b8 tag
  | .logFlush w tag => wfW w && b8 tag
  | .logEntryWait _ => true
  | .logSummary r _ => r < 8
  | .mpInjArm w r p v => wfW w && r < 8 && p < 4 && w32 v
  | .rgnSramInjArm w r v => wfW w && r < 8 && w32 v
  | .sramReadError r sram _ _ _ => r < 8 && sram < 4
  | .pwrActive w r => wfW w && r < 8
  | .pwrIdle w r => wfW w && r < 8
  | .pwrNap w r => wfW w && r < 8
  | .pwrPark w r => wfW w && r < 8
  | .powerTransitionDone r _ => r < 8
  | .esmcTimeout e _ => e < 12
  | .rowIdleTimer r p bank _ => r < 8 && p < 4 && bank < 16
  | .writeQueueIssue r p => r < 8 && p < 4
  | .hostPortReset h => h < 2
  | .islandUe i _ => i < 8
  | .pcrOnlyPacket c rd _ => c < 128 && rd < 8

end Sys2Proof
end

