-- ==== Sys2Proof/Tests/Slice0.lean ====
section
/-! SUPPORT. Tests of the model: ill-formed commands refused by `Instr.wf`, worked examples of the spec on small states, and, for
every obligation with hypotheses, the theorem `applies_<its name>`: concrete states and operands that meet all of them together. -/

set_option Elab.async false

namespace Sys2Proof.Tests

open Sys2Proof Sys2Proof.Machine

/-- A device that has come up: every island verified, every region running and ACTIVE, its blocks enabled, the Sheaf Manager
elected on island 0, firmware of region 0 NORMAL, and admission open. -/
def base : Dev :=
  { Dev.reset with
    rgn := (List.range 8).map (fun r => (r, ⟨.run, .active, none, none, [], false, false, none, false, true⟩)),
    isl := (List.range 8).map (fun i => (i, ⟨true, true, false, false⟩)),
    sys := { Dev.reset.sys with elected := true, booted := true, admOpen := true, hostSeen := true, mediaOk := true } }

/-- A state with that device. -/
def mk (d : Dev) : State := { State.reset with dev := d }

/-- A device whose page lock a writer holds. -/
def own (d : Dev) (page w : Nat) : Dev := d.wr Reg.LOCK_OWNER page w

/-- That device with protection group 0 in N-to-1: active region 0, its standby the region named, and the standby serving. -/
def protd (server : Nat) : Dev :=
  (((base.wr Reg.PG_CFG_MODE pSHM 1).wr Reg.PG_CFG_ACT_A pSHM 0).wr Reg.PG_CFG_STBY pSHM 4).wr Reg.PG_STATUS_SERVER_A pSHM server

/-- That device with a channel running on a region, protected or not. -/
def carry (d : Dev) (c r prot : Nat) : Dev :=
  (({ d with chans := tput d.chans c { Chan.init with regions := [r] } }.wr Reg.CH_STATE_STATE (wCHSTAT c) 2).wr
    Reg.CH_STATE_PROTECTED (wCHSTAT c) prot)

/-- That device with PTP function 2 enabled in a role and a state, and what it has gathered. -/
def ptpd (role state : Nat) (x : PtpSt) : Dev :=
  { ((base.wr Reg.PTP_CTRL_EN (pPTPI 2) 1).wr Reg.PTP_CTRL_ROLE (pPTPI 2) role).wr Reg.PTP_STAT_STATE (pPTPI 2) state with
    ptp := [(2, x)] }

/-- An Announce message of a grandmaster. -/
def ann : Announce := ⟨6, 0x21, 128, 128, 0x4E5D, 7, 3, 37, true, 127, 9⟩

/-- That device with reference entry 5 enabled, of a type and in a state. -/
def refd (ty state : Nat) : Dev :=
  ((base.wr Reg.REF_CTRL_EN (pREF 5) 1).wr Reg.REF_CTRL_TYPE (pREF 5) ty).wr Reg.REF_STAT_STATE (pREF 5) state

/-- That device with a lane in a mode. -/
def laned (g mode : Nat) : Dev := (base.wr Reg.LN_CFG_MODE (lanePage g) mode).wr Reg.LN_STAT_PSTATE (lanePage g) 0

/-- That device with its legacy link's lanes in mode 3, of a width, its five lanes in sync. -/
def lld (width : Nat) : Dev :=
  ((List.range 5).foldl (fun d i => ((d.wr Reg.LN_CFG_MODE (lanePage (11 + i)) 3).wr Reg.LN_STAT_SYNC (lanePage (11 + i)) 1).wr Reg.LN_STAT_PSTATE
      (lanePage (11 + i)) 0) base).wr
    Reg.LN_STAT_LL_WIDTH ll11 width

/-- A TS packet. -/
def ts1 : List Byte := List.replicate 188 0x47#8

/-- The legacy link with mapping 7 to channel 9, rendition 0, on a transport stream. -/
def llmap : Dev :=
  let d := carry (lld 0) 9 0 0
  let d := (d.wr Reg.LL_MAP_EN ll11 1 7).wr Reg.LL_MAP_CHANNEL ll11 9 7
  { d with chans := tput d.chans 9 { Chan.init with regions := [0], cfg := [(Reg.OUT_CTRL_ENCAP.key (stRN 0) 0, 1)] } }

/-- A TS packet of PID 0 that starts a section, its first bytes, and a tick slice that it makes up. -/
def patPkt : TsPkt := ⟨0, true, 3, none, false, 0, .pat 1 1 32⟩

def tsPat : List Byte := [0x47#8, 0x40#8, 0#8, 0x13#8] ++ List.replicate 184 0#8

def tsDu : Du := ⟨0, 0, 0, 0, [], 5, false, some [⟨188, .ts [patPkt]⟩], 0, 0, 0, 0, 0, 0, false⟩

/-- The legacy link for CL-4's stream 3, a packet waiting. -/
def lltsd : Dev :=
  { (lld 0).wr Reg.LL_CTRL_EN cl4B 1 with
    sys := { base.sys with mode := 2 }, rends := [(24, { Rend.init with dus := [tsDu] })] }

/-- The equalisation entry of lane 127 for the test of ADAPT_STORE. -/
def eqd : Dev := { (laned 127 1).wr Reg.LN_CFG_RATE (lanePage 127) 2 with lanes := [(127, { LaneSt.init with entry := 0x0110 })] }

/-- That device with memory port 2 of region 3 in a state, of 16 GiB. -/
def memd (state : Nat) : Dev :=
  (base.wr Reg.MP_STATE_STATE (mpPage 3 2) state).wr Reg.MP_CAP_DATA_MIB (mpPage 3 2) 16384

/-- The same with what the port holds beyond its registers. -/
def memx (state : Nat) (m : MpSt) : Dev := { memd state with mps := [(14, m)] }

/-- A fault-log entry. -/
def logE (seq sev : Nat) : LogEntry := ⟨seq, 1, sev, 3, 0, 5, 1, 9, 0x50, 0, 0, [1, 2], 100, 77⟩

/-- That device with what the NOR's side holds. -/
def nord (f : Nvm → Nvm) : Dev := base.setNvm f

/-- The entries and parked requests of region 3's dispatcher, in NORMAL. -/
def rachd (x : Rachis) : Dev := { base.wr Reg.RA_MODE_MODE (blk 3 ixRACHIS) 1 with ras := [(3, x)] }

/-- A COMPOSE task of no channel with no slot, and its sixteen words. -/
def dsc : Desc := ⟨2, 1, 0, 0, 0, true, 0, 0, 1, 2 ^ 40, 0, 0, []⟩

def dscWords : List Nat := [0x80000102, 0x10000, 0, 256, 0, 0, 0, 0]

/-- The same with one slot that a token of kind 0x21 matches. -/
def dsk : Desc := ⟨2, 1, 1, 0, 0, true, 0, 0, 1, 2 ^ 40, 0, 0, [0x21]⟩

/-- The staging words of RA_POST or RA_TOKEN of region 3. -/
def staged (d : Dev) (row : Row) (ws : List Nat) : Dev :=
  (List.range ws.length).foldl (fun d i => d.wr row (blk 3 ixRACHIS) (ws.getD i 0) i) d

/-- Channel 9 on region 3 with rendition 0, and port 4 of that region up. -/
def egr : Dev :=
  { ((carry base 9 3 0).wr Reg.LN_CFG_MODE (lanePage 52) 1).wr Reg.LN_STAT_PORT_UP (lanePage 52) 1 with rends := [(72, Rend.init)] }

/-- A packet of generation 1. -/
def pkt1 (first : Bool) : QPkt := ⟨0, 5, 7, 8, 1000, true, first, 5, 1, some (96, 3), .nal 2⟩

/-- The same with flow 2047 of channel 9 on port 4, real-time or not, holding packets. -/
def egf (rt : Nat) (q : List QPkt) : Dev :=
  let b := wFLOW 3 2047
  let d := (((egr.wr Reg.FL_CTRL_CHANNEL b 9).wr Reg.FL_CTRL_PORT b 4).wr Reg.FL_CTRL_RT b rt).wr Reg.FL_STATE_STATE b 1
  let d := (d.wr Reg.FL_STATE_GEN b 1).wr Reg.SH_PBS b 4000
  { d with flows := [(slotKey 3 2047, { Flow.init with port := 4, queue := q, sh := ⟨0, 300000000, 0⟩ })] }

/-- A frame received. -/
def fr1 : EthFrame := ⟨1500, true, false⟩

/-- A 1080-line descriptor of IF 2 on port 4 of region 3. -/
def codG : Tbl Nat := tput (tput (soloDesc 52 false (soloSrc 0x13)) (Reg.SRC_CTRL_IF.key 0 0) 2) (Reg.SRC_2110_PORT.key 0 0) 52

/-- Channel 9 running under that descriptor on region 3, of which nine frames have begun, with rendition 0. -/
def codd (x : Rend) : Dev :=
  { egr with chans := [(9, { Chan.init with regions := [3], cfg := codG, k := 9 })], rends := [(72, x)] }

/-- That device with a coding engine's row: CTU `x` of row 3 of the slice granted, of a budget. -/
def cejob (x budget : Nat) : CeJob := ⟨1, 0, 9, 0, 0, 0, 0, 3, budget, 1, false, false, x, 0, 1000000, 0, 0, 20, (0, 1080)⟩

def codx (x budget : Nat) : Dev :=
  { codd { Rend.init with i := 1, an := 8, opens := [⟨0, 0, 0, 100000, 20, 0, [], [⟨3, budget, true, none, budget⟩], 1, none, none, []⟩] } with
    ces := [(ceKey 3 2, cejob x budget)] }

/-- Stream slot 1033 of region 3, the feed of channel 9 under that descriptor. -/
def feedd (x : DecSlot) : Dev :=
  { codd Rend.init with
    chans := [(9, { Chan.init with regions := [3], cfg := tput codG (Reg.FEED_CTRL_EN.key 0 0) 1, k := 9 })],
    strms := [(slotKey 3 1033, ⟨1, 10, 2⟩)], slots := [(slotKey 3 1033, x)] }

/-- A packet of a feed. -/
def fpkt (seq au : Nat) (last : Bool) : FeedPkt := ⟨false, 0, ⟨0, 0, 96⟩, seq, .single, 1200, au, last⟩

/-- That device in CL-4-only mode, started. -/
def cl4d : Dev :=
  let d : Dev := { base with sys := { base.sys with mode := 1 } }
  [0, 1, 2, 3].foldl (fun d n => d.wr Reg.LN_CFG_MODE (lanePage (4 + n)) 4) (d.wr Reg.STATUS_READY cl4B 1)

/-- The same with channel block 2 configured for 1080p. -/
def cl4c : Dev :=
  let b := cl4Ch 2
  (((((((cl4d.wr Reg.CH_IN_FMT b 3).wr Reg.CH_RATE_LO b 8000).wr Reg.CH_VBV_MS b 500).wr Reg.CH_GOP_IDR b 30).wr Reg.CH_VPID b 0x100).wr
    Reg.CH_PMTPID b 0x101).wr Reg.CH_PROG b 1).wr Reg.CH_TS_RATE b 100

/-- The same with the memory ports of region 0 in service. -/
def cl4m : Dev := [0, 1, 2, 3].foldl (fun d p => (d.wr Reg.MP_STATE_STATE (mpPage 0 p) 2).wr Reg.MP_CAP_DATA_MIB (mpPage 0 p) 16384) cl4c

/-- An accepted request on channel 9 of that device, in which no personality runs. -/
def admq (op : Nat) : AdmReq := ⟨op, 1, 9, if op = 1 then 0 else 1, 1, 0, 0, 0, 8, false, cl4m.cl4Desc 2⟩

def admd (op : Nat) : Dev :=
  let d : Dev := { cl4m.wr Reg.ADM_STATUS_BUSY pSHM 1 with sys := { cl4m.sys with mode := 0 }, adm := some (admq op, 5) }
  if op = 1 then d else
    { (d.wr Reg.CH_STATE_STATE (wCHSTAT 9) 2).wr Reg.CH_STATE_GEN (wCHSTAT 9) 1 with
      chans := [(9, { Chan.init with regions := [0], cfg := cl4m.cl4Desc 2 })], rends := [(72, Rend.init)] }

/-- Group 0 whose revert waits for channel 9 alone, which has handed over at frame 0. -/
def revd : Dev :=
  { (carry (protd 4) 9 4 1).wr Reg.PG_STATUS_STATE_A pSHM 6 with
    pgs := [(0, { PgSlot.init with revert := some 5, handed := [9] })],
    chans := [(9, { Chan.init with regions := [4], handTo := some (0, 0) })] }

/-- What holds of each lane of the legacy link's four. -/
theorem lanes_11_to_14 {P : Nat → Prop} (h : ∀ g, g < 15 → 11 ≤ g → P g) : ∀ g, 11 ≤ g → g ≤ 14 → P g :=
  fun g h1 h2 => h g (by omega) h1

/-- Header fields of the stream that channel 127's descriptor names, and that device with policer 254 of region 3 holding tokens. -/
def hdr9 : StreamHdr := ⟨sourceGroup codG, cf codG Reg.SRC_UDP_PORT, 96⟩

def pold (x : Nat × Nat) : Dev :=
  { base with chans := [(127, { Chan.init with regions := [3], cfg := codG })], pols := [(3 * 256 + 254, x)] }

/-- That device with a picture complete in rendition 0 of channel 9, its ring of 4,096 bytes written and read so far. -/
def statd (a : PicAcc) (wr rd : Nat) : Dev :=
  (((((codd { Rend.init with accs := [(0, a)] }).wr Reg.STAT_SIZE (wLIVE 9 0) 4096).wr Reg.STAT_WR (wLIVE 9 0) wr).wr Reg.STAT_RD (wLIVE 9 0) rd).wr
    Reg.STAT_CTRL_CTU_EN (wLIVE 9 0) 0).wr Reg.STAT_CTRL_MV_EN (wLIVE 9 0) 0 |>.wr Reg.MP_STATE_STATE (mpPage 3 0) 2 |>.wr
    Reg.MP_CAP_DATA_MIB (mpPage 3 0) 16384

/-- What that device's row stands in. -/
def rowZ (x : Nat) : RowCtx :=
  ((codx x 100000).rowCtx (cejob x 100000)).getD ⟨⟨0, 0, 0, 0, 0, 0, [], [], 0, none, none, []⟩, slot4 [] 0 Rend.init none 0 , ⟨.idr, false, 0, false, 0, none⟩, [], []⟩

/-- A coded picture of 32 × 16 samples, one such picture in progress with the blocks decoded so far, and that device with it in slot 72
of region 3, for which engine 1 holds a job. -/
def seqT : SeqIn := ⟨1, some 0, 40, false, 0, 0, 32, 16, (0, 0, 0, 0), false, none, 1, 2, 0⟩

def picT (blks : List Nat) : PicNow :=
  ⟨[5], .idr, 0, seqT, .decode, blks.length / 2, false, false, blks.map (fun n => ⟨n, none, none⟩), [], false, 0, none, true, ⟨[], [], []⟩⟩

def dejT (slot : Nat) (ended : Option Nat) : DeJob := ⟨1, 0, slot, 0, 0, 40, ended⟩

def decd (cur : Option PicNow) (ended : Option Nat) : Dev :=
  { codd Rend.init with
    strms := [(slotKey 3 72, ⟨1, 10, 0⟩)], slots := [(slotKey 3 72, { DecSlot.init with cur := cur })],
    des := [(deKey 3 1, dejT 72 ended)] }

/-- That device with ASI lane 6 for channel 2, which runs, free from an instant on, and units that wait. -/
def asid (free : Nat) (dus : List Du) : Dev :=
  let d : Dev := cl4c.wr Reg.ASI_CTRL_EN cl4B 4
  { d.wr Reg.CH_STATE_STATE (wCHSTAT 2) 2 with
    sys := { d.sys with tsOut := [(2, (0, 0, free))] }, rends := [(16, { Rend.init with dus := dus })],
    chans := [(2, { Chan.init with regions := [0], cfg := cl4c.cl4Desc 2 })] }

/-! ## Ill-formed commands: one term for each check of `Instr.wf` -/

def smokeImageSet : ImageSet := ⟨true, true, true, 0, 0, 0⟩

def smokeSrcFrame : SrcFrame := ⟨false, 0, true, [], 0, 0, ⟨[], [], []⟩⟩

def smokeStreamPkt : StreamPkt := ⟨0, ⟨0, 0, 0⟩⟩

def smokeRxPkt : RxPkt := ⟨0, ⟨0, 0, 0⟩, 0⟩

def smokeRailMv : RailMv := ⟨0, 0⟩

def smokeSideEdge : SideEdge := ⟨false, 0⟩

def smokeMemReq : MemReq := ⟨0, 0⟩

def smokeMemData : MemData := ⟨[], []⟩

def smokePtpFrom : PtpFrom := ⟨0, 0⟩

def smokePtpHdr : PtpHdr := ⟨⟨0, 0⟩, 0⟩

def smokeWordBy : WordBy := ⟨1, 0⟩

def smokeDecRun : DecRun := ⟨0, 0, 0, []⟩

def smokePicRead : PicRead := ⟨0, []⟩

def smokeStreamHdr : StreamHdr := ⟨0, 0, 0⟩

def smokeNvIn : NvIn := ⟨0, 0, 0, 0, 0, 0, 0, 0, 0, 0, 0⟩

def smokeApsIn : ApsIn := ⟨false, false, []⟩

def smokeUnitIn : UnitIn := ⟨smokeNvIn, smokeApsIn⟩

def smokeCtuIn : CtuIn := ⟨0, 0, 0, false, [], 0, 0, (0, 0)⟩

def smokeReconIn : ReconIn := ⟨0, []⟩

def smokeFeedPkt : FeedPkt := ⟨false, 0, ⟨0, 0, 0⟩, 0, .single, 0, 0, false⟩

def smokeJobData : JobData := .none

def smokeEthFrame : EthFrame := ⟨64, true, false⟩

def smokeTrainOutcome : TrainOutcome := .pass

def smokeRetrainCause : RetrainCause := .drift

def smokeAnnounce : Announce := ⟨6, 0x21, 128, 128, 0, 0, 0, 37, true, 0, 0⟩

theorem test_ill_formed_refused_0 : ([
    .por [], .pinReset [] 0, .warmReset 3, .regionReset 3 0, .regionReset 1 8, .regionUp 8 0, .blockReset 3 0, .blockReset 1 1,
    .railFault ⟨15, 0⟩ 0 (List.replicate 8 ⟨0, 0, 0⟩), .railFault smokeRailMv 0 [], .thermalTrip 8 0, .thermalRelease 8 0 0,
    .bootImageVerify 8 0 0 smokeImageSet, .bootImageVerify 0 3 0 smokeImageSet, .bootImageVerify 0 0 2 smokeImageSet,
    .awnHeartbeatSend 8 0, .awnHeartbeatRx 8 1 .awn (0, 0) 0, .awnHeartbeatRx 0 8 .awn (0, 0) 0,
    .awnHeartbeatRx 0 0 .awn (0, 0) 0, .reachTimeout 8 1 .awn 0, .reachTimeout 0 8 .awn 0, .reachTimeout 0 0 .awn 0,
    .awnSegment 8 1, .awnSegment 0 8, .awnSegment 0 0, .stolonDown 10, .stolonUp 10, .frameTick 128 0, .sliceTick 128 0,
    .rachisTick 8 0, .sourceFrame 128 smokeSrcFrame, .sourceFrame 0 { smokeSrcFrame with aligned := 16 },
    .sourceFrame 0 { smokeSrcFrame with anc := List.replicate 5 (none, []) }, .inputCaptured 128 0 0, .inputCaptured 0 8 0,
    .inputCaptured 0 0 68, .analysed 128 0 0 [], .analysed 0 8 0 [], .analysed 0 0 68 [], .st2110Packet 128 0 smokeStreamPkt] : List Instr).all (fun i => !i.wf) = true := by decide +kernel

theorem test_ill_formed_refused_1 : ([
    .st2110Packet 0 2 smokeStreamPkt, .st2110Packet 0 0 ⟨65536, ⟨0, 0, 0⟩⟩, .st2110Packet 0 0 ⟨0, ⟨0, 65536, 0⟩⟩,
    .admCreate 3 0 0 0, .admCreate 1 256 0 0, .admCreate 1 0 128 0, .admCreate 1 0 0 256, .admModify 3 0 0 0,
    .admModify 1 256 0 0, .admModify 1 0 128 0, .admModify 1 0 0 256, .admStop 3 0 0 0, .admStop 1 256 0 0, .admStop 1 0 128 0,
    .admStop 1 0 0 256, .admCheck 3 0 0 0, .admCheck 1 256 0 0, .admCheck 1 0 128 0, .admCheck 1 0 0 256,
    .admResultPost 0 (List.replicate 9 smokeNvIn), .modifyApply 128 0, .channelStart 128 0, .chQuarantineEnd 128 0,
    .cmpCommit 3 0 0 0, .cmpCommit 1 128 0 0, .cmpCommit 1 0 256 0, .lyPost 3 0 0 0, .lyPost 1 128 0 0, .lyPost 1 0 8 0,
    .lyPost 1 0 0 4, .composeLutValidWrite 3 0 0, .composeLutValidWrite 1 8 0, .composeLutValidWrite 1 0 0x100000000,
    .roiCommit 3 0 0 0, .roiCommit 1 128 0 0, .roiCommit 1 0 256 0, .statCtrlWrite 3 0 0 0, .statCtrlWrite 1 128 0 0,
    .statCtrlWrite 1 0 8 0, .statCtrlWrite 1 0 0 0x100000000] : List Instr).all (fun i => !i.wf) = true := by decide +kernel

theorem test_ill_formed_refused_2 : ([
    .statRecordWrite 128 0 0 0, .statRecordWrite 0 8 0 0, .budgetGranted 128 0 0 0 smokeUnitIn,
    .budgetGranted 0 8 0 0 smokeUnitIn, .budgetGranted 0 0 68 0 smokeUnitIn, .rowBudgetExpiry 8 0, .rowBudgetExpiry 0 8,
    .ctuCode 8 0 smokeCtuIn, .ctuCode 0 8 smokeCtuIn, .rowRecon 8 0 smokeReconIn, .rowRecon 0 8 smokeReconIn,
    .haloArrived 8 0 0 0 0, .haloArrived 0 128 0 0 0, .haloArrived 0 0 8 0 0, .haloArrived 0 0 0 256 0,
    .cycleBudget 8 smokeDecRun, .cycleBudget 0 { smokeDecRun with de := 2 }, .wdExpiry 8 smokeDecRun,
    .wdExpiry 0 { smokeDecRun with de := 2 }, .decodePictureEnd 8 0 smokePicRead, .decodePictureEnd 0 1152 smokePicRead,
    .feedPacket 128 smokeFeedPkt 0, .feedPacket 0 { smokeFeedPkt with path := 2 } 0,
    .feedPacket 0 { smokeFeedPkt with rtpSeq := 65536 } 0, .feedPacket 0 { smokeFeedPkt with hdr := ⟨2 ^ 128, 0, 0⟩ } 0,
    .feedDelayExpiry 128 0, .confRowCompare 8 0 0 [] [], .confRowCompare 0 1152 0 [] [], .raPost 8 1 .window,
    .raPost 0 3 .window, .raPostFixed 8 1 0, .raPostFixed 0 3 0, .raPostFixed 0 1 4096, .stalledPostAccept 8 0,
    .raTokenSend 8 1, .raTokenSend 0 3, .tokenArrive 8 0 0, .tokenArrive 0 (2 ^ 128) 0, .tokenHoldExpiry 8 0 0,
    .tokenHoldExpiry 0 4096 0] : List Instr).all (fun i => !i.wf) = true := by decide +kernel

theorem test_ill_formed_refused_3 : ([
    .delayListJoin 8 0, .delayListJoin 0 4, .getWork 8 0 0 0 smokeJobData, .getWork 0 7 0 0 smokeJobData,
    .getWork 0 0 8 0 smokeJobData, .getWorkTimeout 8 0 0, .getWorkTimeout 0 4 0, .doneOk 8 0 0, .doneOk 0 4096 0,
    .doneOk 0 0 256, .doneFailed 8 0 0, .doneFailed 0 4096 0, .doneFailed 0 0 256, .doneRepost 8 0 0, .doneRepost 0 4096 0,
    .doneRepost 0 0 256, .doneYield 8 0 0, .doneYield 0 4096 0, .doneYield 0 0 256, .taskQuarantineEnd 8 0 0,
    .taskQuarantineEnd 0 4096 0, .raModeNormal 8, .raModeTest 8, .raModeRecovery 8, .raReqTest 3 0, .raReqTest 1 8,
    .flCreate 3 0 0 0, .flCreate 1 8 0 0, .flCreate 1 0 2048 0, .flCreate 1 0 0 256, .flModify 3 0 0 0, .flModify 1 8 0 0,
    .flModify 1 0 2048 0, .flModify 1 0 0 256, .flDelete 3 0 0 0, .flDelete 1 8 0 0, .flDelete 1 0 2048 0, .flDelete 1 0 0 256,
    .flowQuarantineEnd 8 0 0, .flowQuarantineEnd 0 2048 0] : List Instr).all (fun i => !i.wf) = true := by decide +kernel

theorem test_ill_formed_refused_4 : ([
    .commitImmediate 3 0 0 0, .commitImmediate 1 1 0 0, .commitImmediate 1 0 128 0, .commitImmediate 1 0 0 256,
    .commitFrame 3 0 0 0, .commitFrame 1 1 0 0, .commitFrame 1 0 128 0, .commitFrame 1 0 0 256, .commitSlice 3 0 0 0,
    .commitSlice 1 1 0 0, .commitSlice 1 0 128 0, .commitSlice 1 0 0 256, .commitWrap 3 0 0 0, .commitWrap 1 1 0 0,
    .commitWrap 1 0 128 0, .commitWrap 1 0 0 256, .commitTb 3 0 0 0, .commitTb 1 1 0 0, .commitTb 1 0 128 0,
    .commitTb 1 0 0 256, .commitTbApply 1 0, .pacerWrap 8 0 0, .pacerWrap 0 16 0, .stolonWrap 8 0 0, .stolonWrap 0 3 0,
    .packetDepart 8 0 0, .packetDepart 0 2048 0, .portIdle 8 0 0, .portIdle 0 16 0, .egressLateDiscard 8 0 0,
    .egressLateDiscard 0 2048 0, .obsSample 8 0, .obsConfigWrite 3 0 0 0, .obsConfigWrite 1 8 0 0, .obsConfigWrite 1 0 0x1000 0,
    .obsConfigWrite 1 0 0 0x100000000, .policePacket 8 0 smokeRxPkt 0, .policePacket 0 256 smokeRxPkt 0,
    .policePacket 0 0 { smokeRxPkt with port := 16 } 0, .policePacket 0 0 ⟨0, ⟨0, 65536, 0⟩, 0⟩ 0] : List Instr).all (fun i => !i.wf) = true := by decide +kernel

theorem test_ill_formed_refused_5 : ([
    .policePacket 0 0 smokeRxPkt 101, .policerRateWrite 3 0 0 0 0, .policerRateWrite 1 8 0 0 0, .policerRateWrite 1 0 256 0 0,
    .policerRateWrite 1 0 0 0x20 0, .policerRateWrite 1 0 0 0 0x100000000, .ethFrameRx 128 smokeEthFrame, .arpRequest 128 0,
    .arpRequest 0 0x100000000, .neighborSolicitation 128 0, .neighborSolicitation 0 (2 ^ 128), .pgCfgWrite 3 0 0,
    .pgCfgWrite 1 4 0, .pgCfgWrite 1 0 0x100000000, .pgSwitch 3 0 0, .pgSwitch 1 4 0, .pgSwitch 1 0 2, .pgHold 3 0 0,
    .pgHold 1 4 0, .pgHold 1 0 2, .pgRelease 3 0 0, .pgRelease 1 4 0, .pgRelease 1 0 2, .mirrorCommit 128 0 0 false,
    .mirrorCommit 0 8 0 false, .unitArrived 8 0 0 0 0, .unitArrived 0 128 0 0 0, .unitArrived 0 0 8 0 0, .fwBeatMiss 8 0,
    .islandFatalReport 8 0, .regionFailDeclare 4 0 0, .regionFailDeclare 0 2 0, .egressKill 8, .witnessBeatLoss 8 0,
    .takeover 4 0 0, .takeover 0 2 0, .returnReset 4 0 0, .returnReset 0 2 0, .revertSchedule 4 0 0, .revertSchedule 0 2 0] : List Instr).all (fun i => !i.wf) = true := by decide +kernel

theorem test_ill_formed_refused_6 : ([
    .revertHandover 4 0 0, .revertHandover 0 2 0, .revertComplete 4 0 0, .revertComplete 0 2 0, .culmRequest 8 0 0 1 0,
    .culmRequest 0 11 0 1 0, .culmRequest 0 0 29 1 0, .culmRequest 0 0 0 0 0, .culmGrant 8 0 0, .culmGrant 0 11 0,
    .culmWindowStart 8 0 0, .culmWindowStart 0 11 0, .culmRevoke 8 0 0, .culmRevoke 0 11 0, .sidebandMask 8 0 smokeSideEdge,
    .sidebandMask 0 0x34 smokeSideEdge, .stolonCreditReturn 8 0 0 0, .stolonCreditReturn 0 3 0 0, .stolonCreditReturn 0 0 4 0,
    .memRead 8 smokeMemReq 0 0 0 [], .memRead 0 ⟨29, 0⟩ 0 0 0 [], .memRead 0 smokeMemReq (2 ^ 64) 0 0 [],
    .memWrite 8 smokeMemReq 0 0 smokeMemData, .memWrite 0 ⟨29, 0⟩ 0 0 smokeMemData,
    .memWrite 0 smokeMemReq (2 ^ 64) 0 smokeMemData, .refreshDue 8 0 false, .refreshDue 0 4 false, .refreshRepay 8 0,
    .refreshRepay 0 4, .refreshRatePoll 8 0 1 false, .refreshRatePoll 0 4 1 false, .refreshRatePoll 0 0 3 false,
    .scrubRead 8 0 0 [], .scrubRead 0 4 0 [], .trainingComplete 8 0 smokeTrainOutcome 0 0,
    .trainingComplete 0 4 smokeTrainOutcome 0 0, .retrainTrigger 8 0 smokeRetrainCause 0,
    .retrainTrigger 0 4 smokeRetrainCause 0, .retrainStep 8 0, .retrainStep 0 4] : List Instr).all (fun i => !i.wf) = true := by decide +kernel

theorem test_ill_formed_refused_7 : ([
    .retrainEnd 8 0 false 0 0 0, .retrainEnd 0 4 false 0 0 0, .portRetrainAttempt 8 0 smokeTrainOutcome 0 0 0,
    .portRetrainAttempt 0 4 smokeTrainOutcome 0 0 0, .laneLos 128 0, .laneLosClear 128 0, .laneLol 128 0 0,
    .laneLolClear 128 0 0, .laneSyncGain 128 0 0 0 0, .laneSyncGain 0 16 0 0 0, .laneSyncLoss 128 0, .pcsLinkFail 128 0,
    .portUp 128 0, .llWidthRx 256, .llFrameSend 8 [List.replicate 188 0] 0, .llFrameSend 1 [] 0,
    .llFrameSend 1 (List.replicate 8 (List.replicate 188 0)) 0, .llFrameSend 1 [[]] 0, .adaptStore 8 [] 0,
    .adaptStore 0 [(16, 0)] 0, .refEdge 8 0 0 0, .refEdge 0 4 0 0, .refLoss 12 0, .esmcRx 12 0 none 0, .esmcRx 0 256 none 0,
    .dcoFofsWrite 3 0, .dcoFofsWrite 1 0x100000000, .tbIncWrite 3 0 0, .tbIncWrite 1 8 0, .tbIncWrite 1 0 (2 ^ 34), .tbSet 3 0,
    .tbSet 1 8, .tbStep 3 0, .tbStep 1 8, .tbNowRead 3 0, .tbNowRead 1 8, .multiwordRead 3 0, .multiwordRead 1 0x100000000,
    .multiwordRead 1 2, .ptpSyncRx 8 0 0 smokePtpHdr 0 false] : List Instr).all (fun i => !i.wf) = true := by decide +kernel

theorem test_ill_formed_refused_8 : ([
    .ptpSyncRx 0 0 0 ⟨⟨0, 0⟩, 65536⟩ 0 false, .ptpFollowUpRx 8 0 smokePtpHdr 0, .ptpFollowUpRx 0 0 ⟨⟨0, 0⟩, 65536⟩ 0,
    .ptpDelayReqRx 0 0 0 ⟨256, 0⟩, .ptpDelayReqRx 8 0 0 smokePtpFrom, .ptpDelayReqRx 0 0 65536 smokePtpFrom,
    .ptpDelayRespRx 8 0 smokePtpHdr 0, .ptpDelayRespRx 0 0 ⟨⟨0, 0⟩, 65536⟩ 0,
    .ptpAnnounceRx 0 { smokeAnnounce with dom := 256 } 0, .ptpAnnounceRx 8 smokeAnnounce 0, .announceReceiptTimeout 8 0,
    .ptpSyncTx 8 0, .ptpAnnounceTx 8, .ptpDelayReqTx 8 0, .servoModeWrite 3 0, .servoModeWrite 1 0x100000000, .lockAcquire 3 0,
    .lockAcquire 1 1, .lockRelease 3 0, .lockRelease 1 1, .lockRecover 3 0, .lockRecover 1 1, .lockLeaseExpiry 1 0,
    .evRawClear 0 ⟨3, 0⟩, .evRawClear 1 smokeWordBy, .evRawClear 0 ⟨1, 0x100000000⟩, .evInject 0 ⟨3, 0⟩,
    .evInject 1 smokeWordBy, .evInject 0 ⟨1, 0x100000000⟩, .evtArmWrite 2 0 0, .evtArmWrite 0 2 0, .evtArmWrite 0 0 0x100000000,
    .evrConfigWrite 3 0 0 0, .evrConfigWrite 1 2 0 0, .evrConfigWrite 1 0 0x40 0, .evrConfigWrite 1 0 0 0x100000000,
    .msixUnmask 2 0, .msixUnmask 0 64, .hostLinkDown 2, .hostLinkUp 2] : List Instr).all (fun i => !i.wf) = true := by decide +kernel

theorem test_ill_formed_refused_9 : ([
    .blockEnableWrite 3 0 0, .blockEnableWrite 1 1 0, .blockEnableWrite 1 0 0x100000000, .bar2AperWrite 2 0,
    .bar2AperWrite 0 0x100000000, .bar2Access 2 0 0 none [], .bar2Access 0 (2 ^ 36 + 1) 0 none [], .registerWrite 3 0 0,
    .registerWrite 1 0x100000000 0, .registerWrite 1 2 0, .registerWrite 1 0 0x100000000, .spiWrite 65536 [],
    .spiWrite 0 [65536], .spiRead 65536 0, .cl4Start 4, .cl4Stop 4, .cl4Apply 4, .asiPacketSend 8 0 0, .asiPacketSend 0 4 0,
    .glAttest 3 0, .glAttest 1 256, .glChallenge 3 0, .glChallenge 1 256, .glUnlock 3 0, .glUnlock 1 256, .glSvnCommit 3 0,
    .glSvnCommit 1 256, .glCustKey 3 0, .glCustKey 1 256, .glPcieBoot 3 0 smokeImageSet, .glPcieBoot 1 256 smokeImageSet,
    .nvmStoreRequest 6 [], .holdupSample 4096 0, .logRead 3 0, .logRead 1 256, .logFlush 3 0, .logFlush 1 256, .logSummary 8 0,
    .mpInjArm 3 0 0 0, .mpInjArm 1 8 0 0] : List Instr).all (fun i => !i.wf) = true := by decide +kernel

theorem test_ill_formed_refused_10 : ([
    .mpInjArm 1 0 4 0, .mpInjArm 1 0 0 0x100000000, .rgnSramInjArm 3 0 0, .rgnSramInjArm 1 8 0, .rgnSramInjArm 1 0 0x100000000,
    .sramReadError 8 0 0 false 0, .sramReadError 0 4 0 false 0, .pwrActive 3 0, .pwrActive 1 8, .pwrIdle 3 0, .pwrIdle 1 8,
    .pwrNap 3 0, .pwrNap 1 8, .pwrPark 3 0, .pwrPark 1 8, .powerTransitionDone 8 0, .esmcTimeout 12 0, .rowIdleTimer 8 0 0 0,
    .rowIdleTimer 0 4 0 0, .rowIdleTimer 0 0 16 0, .writeQueueIssue 8 0, .writeQueueIssue 0 4, .hostPortReset 2, .islandUe 8 0,
    .pcrOnlyPacket 128 0 0, .pcrOnlyPacket 0 8 0, .raPost 0 1 (.words []),
    .raPost 0 1 (.words (0x100000000 :: List.replicate 15 0)), .raPost 0 1 (.media 7 0 0 0 0 0 [] 0 0 0),
    .raPost 0 1 (.media 0 128 0 0 0 0 [] 0 0 0), .raPost 0 1 (.media 0 0 8 0 0 0 [] 0 0 0),
    .raPost 0 1 (.media 0 0 0 0 68 0 [] 0 0 0), .raPost 0 1 (.media 0 0 0 0 0 256 [] 0 0 0),
    .raPost 0 1 (.media 0 0 0 0 0 0 [] 256 0 0), .raPost 0 1 (.feed 128 0 0 0 0), .raPost 0 1 (.feed 0 0 256 0 0)] : List Instr).all (fun i => !i.wf) = true := by decide +kernel

/-- Commands at the ends of their operands' ranges are well formed. -/
theorem test_well_formed_accepted : ([
    .por (List.replicate 8 ⟨0, 0, 0⟩), .warmReset 1, .regionReset 0x20 7, .awnHeartbeatRx 0 7 .stolon (0, 0) 0,
    .analysed 127 7 67 [], .admCreate 2 255 127 255, .raPost 7 0x17 .window,
    .raPost 7 0x17 (.words (List.replicate 16 0xFFFFFFFF)), .raPost 7 0x17 (.media 6 127 7 0 67 255 [] 255 0 0),
    .llFrameExpire 0, .memRead 7 ⟨28, 0⟩ 0xFFFFFFFFFFFFFFFF 1 1 [], .bar2Access 1 0 (2 ^ 36) none [],
    .llFrameSend 7 (List.replicate 7 (List.replicate 188 0)) 0] : List Instr).all Instr.wf = true := by decide +kernel

/-! ## System K of the spec (00_scope), and its worked examples -/

/-- Channel 1 of system K: 4Kp59.94 in HEVC 4:2:2 10-bit at CONTRIBUTION effort with 16 slices, and its HD rendition in AVC High 10. -/
def kCfg : Tbl Nat :=
  let put (m : Tbl Nat) (row : Row) (v : Nat) : Tbl Nat := stSet m row 0 0 v
  let r (rd : Nat) (m : Tbl Nat) (row : Row) (v : Nat) : Tbl Nat := stSet m row (stRN rd) 0 v
  let m := put (put (put [] Reg.SRC_FMT_WIDTH 3840) Reg.SRC_FMT_HEIGHT 2160) Reg.SRC_RATE_RATE 6
  let m := put (put m Reg.ENC_CH_SLICES 16) Reg.ENC_CH_NUM_REND 2
  let m := r 0 (r 0 (r 0 (r 0 m Reg.RN_CTRL_CODEC 1) Reg.RN_CTRL_CHROMA 1) Reg.RN_CTRL_DEPTH 1) Reg.RN_CTRL_EFFORT 2
  let m := r 0 (r 0 m Reg.RN_CTRL_PROFILE 2) Reg.RC_RATE_MAX_KBPS 45000
  let m := r 1 (r 1 (r 1 (r 1 m Reg.RN_CTRL_CODEC 0) Reg.RN_CTRL_CHROMA 0) Reg.RN_CTRL_DEPTH 1) Reg.RN_CTRL_EFFORT 1
  r 1 (r 1 (r 1 (r 1 m Reg.RN_SIZE_WIDTH 1920) Reg.RN_SIZE_HEIGHT 1080) Reg.RC_RATE_MAX_KBPS 10000) Reg.RN_CTRL_PROFILE 1

/-- 00_scope: the renditions cost 870.1 and 99.4 CLU, the channel 969.5, and decoding 621.5 and 99.4 DLU. -/
theorem test_load_units : (cluOf kCfg 0, cluOf kCfg 1, chClu kCfg, dluOf kCfg 0, dluOf kCfg 1) = (8701, 994, 9695, 6215, 994) := by
  decide +kernel

/-- R52's example: 7,955.2, 9,944.0, 3,977.6, 1,491.6 and 745.8 MB/s. -/
theorem test_memory_estimate : (memChan kCfg 2, memCode kCfg 0, memDec kCfg 0, memCode kCfg 1, memDec kCfg 1)
    = (79552, 99440, 39776, 14916, 7458) := by decide +kernel

/-- The example of layer commits: two layers cost 745.8 Mpixel/s, three 870.1. -/
theorem test_composition_cost : (compCost kCfg 2, compCost kCfg 3) = (7458, 8701) := by decide +kernel

/-- R63, R65: four slice periods of 1.0427 ms, by hand 4,170,833.3 ns. -/
theorem test_latency : latNs kCfg 0 = 4170833 := by decide +kernel

/-- R40's example: slice 7 has rows 14 to 16, slice 15 rows 31 to 33. -/
theorem test_slice_rows : (sliceRows kCfg 0 7, sliceRows kCfg 0 15) = ((14, 17), (31, 34)) := by decide +kernel

/-- R372's example: frame 1 starts at 16,683,333 ns and 21,846 units. -/
theorem test_frame_instant : frameTu kCfg 1 = 16683333 * 65536 + 21846 := by decide +kernel

/-- R110's table of line-buffer checks. -/
theorem test_line_buffers : (lineNeed 3840 2160 1080 2, lineNeed 7680 4320 2160 2, lineNeed 7680 4320 1080 2, lineNeed 7680 4320 1080 3)
    = (46080, 92160, 107520, 161280) ∧ lineLimit < 161280 := by decide +kernel

/-- The example of levels: 5.1 for the HEVC renditions, 4.2 for the AVC ones, Main tier. -/
theorem test_levels : (levelOf kCfg 0, levelOf kCfg 1) = (some (153, 0), some (42, 0)) := by decide +kernel

/-- R149's example: map entry −4, rectangle 2 of priority 2 with −6 before rectangle 5 of priority 5 with +3: the offset is −10. -/
theorem test_roi_offset :
    let w := wROI 9
    let d := [(Reg.ROI_CTRL_MAP_EN, 0, 1), (Reg.RECT_CTRL_EN, 2, 1), (Reg.RECT_CTRL_PRIO, 2, 2), (Reg.RECT_CTRL_QP_OFS, 2, 26),
      (Reg.RECT_SIZE_W, 2, 64), (Reg.RECT_SIZE_H, 2, 64), (Reg.RECT_CTRL_EN, 5, 1), (Reg.RECT_CTRL_PRIO, 5, 5), (Reg.RECT_CTRL_QP_OFS, 5, 3),
      (Reg.RECT_SIZE_W, 5, 64), (Reg.RECT_SIZE_H, 5, 64)].foldl (fun (d : Dev) x => d.wr x.1 w x.2.2 x.2.1) base
    d.roiOfs 9 0 8 8 (-4) = -10 := by decide +kernel

/-- R371's example: a step of −1.5 ns is seconds −1, nanoseconds 999,999,998 and fraction 0x8000. -/
theorem test_step_operand :
    let b := blk 0 ixTIMEBASE
    ((((base.wr Reg.TB_LOAD b (0x8000 + 999999998 % 65536 * 65536) 0).wr Reg.TB_LOAD b (999999998 / 65536 + 0xFFFF0000) 1).wr
      Reg.TB_LOAD b 0xFFFFFFFF 2).tbLoad false) = (-98304, true) := by decide +kernel

/-- R379's example in units of 2^-16 ns: differences of 1,255.0 and 1,214.0 ns and PTL_ASYM of 3.0 ns give an offset of 17.5 ns and a
mean path delay of 1,234.5 ns. -/
theorem test_ptp_exchange :
    let d := ptpd 0 ptpReceiver { PtpSt.init with best := some ann, t1 := some 0, t2 := some (1255 * 65536), t3 := some (0, 5) }
    let d := d.wr Reg.PTL_ASYM (d.ptpLane 2) (3 * 65536)
    (match exec (.ptpDelayRespRx 2 (1214 * 65536) ⟨⟨127, 9⟩, 5⟩ 0) (mk d) with
    | .next t => (t.dev.rdPair Reg.PTP_OFS_LO Reg.PTP_OFS_HI (pPTPI 2), t.dev.rdPair Reg.PTP_MPD_LO Reg.PTP_MPD_HI (pPTPI 2))
    | _ => (0, 0)) = (1146880, 80904192) := by decide +kernel

/-- The example of the event chapter: LANE_8 of region 2 is source 160. -/
theorem test_event_source : sourceOf (blk 2 0x28) = 160 ∧ pageOfSource 160 = some (lanePage 40) := by decide +kernel

/-- R292's example: CAPTURE is granted with the fullest counter, which falls from 30 to 26, and its 48th grant reaches the quota. -/
theorem test_fullest_counter_wins :
    let a := { Arb.init with c := 13, used := [(0, 47)], credit := [(0, 30), (4, 20), (5, 18), (12, 5)], reqs := [(0, 4, 5), (4, 4, 5), (5, 4, 5), (12, 2, 4)] }
    (match exec (.culmGrant 2 1 9) (mk { base with arbs := [(2 * 16 + 1, a)] }) with
    | .next t => ((t.dev.arb 2 1).owner, (t.dev.arb 2 1).c, (t.dev.arb 2 1).creditOf 0, t.dev.maskedAt 2 1 0)
    | _ => (none, 0, 0, false)) = (some (0, 4, 9), 14, 26, true) := by decide +kernel

/-- The same: at c = N − 1 the grant goes to DE_0, which has waited longest, and its counter falls from 5 to 3. -/
theorem test_longest_wait_wins :
    let a := { Arb.init with c := 15, used := [(0, 48)], credit := [(0, 26), (4, 16), (5, 18), (12, 5)], reqs := [(4, 4, 11), (5, 4, 5), (12, 2, 4)] }
    (match exec (.culmGrant 2 1 16) (mk { base with arbs := [(2 * 16 + 1, a)] }) with
    | .next t => ((t.dev.arb 2 1).owner, (t.dev.arb 2 1).c, (t.dev.arb 2 1).creditOf 12)
    | _ => (none, 9, 0)) = (some (12, 2, 16), 0, 3) := by decide +kernel

/-- The published check values of CRC-32C and of the CRC-16 of R424's polynomial over the digits 1 to 9. -/
theorem test_check_values : crc32c [49, 50, 51, 52, 53, 54, 55, 56, 57] = 0xE3069283 ∧ crc16 [49, 50, 51, 52, 53, 54, 55, 56, 57] = 0x29B1 := by
  decide +kernel

/-- No row of the table gives bits, so no word spells a command. -/
theorem test_no_command_has_bits (n w : Nat) : decodeTableWord n w = none := rfl

/-- The state after reset steps by one clock of 2 ns. -/
theorem test_reset_idles : (match step State.reset with | .next t => (t.dev.tb 5).cnt | _ => 0) = 2 ^ 33 := by decide +kernel

/-- The first command of the queue runs: region 3 passes 160 °C and is held in reset, and the next command waits (R449). -/
theorem test_first_command_runs :
    (match step { State.reset with pending := [.thermalTrip 3 640, .thermalTrip 4 640] } with
    | .next t => (t.pending.length, t.dev.rdI Reg.RGN_TEMP_TJ (blk 3 ixRGN), (t.dev.region 3).held, (t.dev.region 4).held)
    | _ => (0, 0, false, false)) = (1, 640, true, false) := by decide +kernel

/-! ## Every obligation with hypotheses applies somewhere -/

theorem applies_LocksPassAndBreak :
    (∃ (w : Nat) (page : Nat) (s : State),
      isPage page = true
      ∧ s.dev.pageAnswers w page = true
      ∧ s.dev.lockReserved w page = false
      ∧ w < 256
      ∧ s.dev.rd Reg.LOCK_OWNER page = 0) ∧
    (∃ (w : Nat) (v : Nat) (page : Nat) (s : State),
      isPage page = true
      ∧ s.dev.pageAnswers w page = true
      ∧ s.dev.lockReserved w page = false
      ∧ s.dev.rd Reg.LOCK_OWNER page = v
      ∧ v ≠ 0
      ∧ v ≠ w
      ∧ s.dev.leaseOver page = false) ∧
    (∃ (w : Nat) (page : Nat) (s : State),
      isPage page = true
      ∧ s.dev.pageAnswers w page = true
      ∧ s.dev.owns w page = true
      ∧ s.dev.leaseOver page = false) ∧
    (∃ (page : Nat) (t0 : Nat) (s : State),
      isPage page = true
      ∧ (s.dev.advanceTo t0).leaseOver page = true
      ∧ (s.dev.advanceTo t0).rd Reg.LOCK_OWNER page ≠ 0
      ∧ (s.dev.advanceTo t0).rd Reg.LOCK_OWNER page < 256) ∧
    (∃ (w : Nat) (j : Nat) (s : State),
      j < 10
      ∧ s.dev.pageAnswers w (chipPage j) = true
      ∧ s.dev.owns w (chipPage j) = true
      ∧ s.dev.leaseOver (chipPage j) = false) :=
  ⟨⟨1, pNVM, mk base, by decide +kernel⟩,
   ⟨1, 2, pNVM, mk (own base pNVM 2), by decide +kernel⟩,
   ⟨1, pNVM, mk (own base pNVM 1), by decide +kernel⟩,
   ⟨pNVM, 7, mk {own base pNVM 1 with lease := [(pNVM, 5)]}, by decide +kernel⟩,
   ⟨1, 5, mk {((own base pNVM 1).wr Reg.STATUS_SUSPECT pNVM 1).wr Reg.LOCK_BROKEN pNVM 1 with shadow := [(pNVM*32+3,5)]}, by decide +kernel⟩⟩

theorem applies_LockGuardsCommands :
    (∃ (w : Nat) (page : Nat) (d : Dev),
      d.leaseOver page = false
      ∧ d.gate w page ≠ .open_
      ∧ isPage page = true
      ∧ d.gate w page = .notOwner) ∧
    (∃ (w : Nat) (page : Nat) (d : Dev),
      d.leaseOver page = false
      ∧ d.gate w page ≠ .open_
      ∧ isPage page = true
      ∧ d.gate w page = .suspect) :=
  ⟨⟨2, pNVM, own base pNVM 1, by decide +kernel⟩,
   ⟨1, pNVM, (own base pNVM 1).wr Reg.STATUS_SUSPECT pNVM 1, by decide +kernel⟩⟩

theorem applies_EventBitsSetAndCleared :
    (∃ (w : Nat) (page : Nat) (s : State),
      isPage page = true
      ∧ s.dev.pageAnswers w page = true
      ∧ s.dev.leaseOver page = false) ∧
    (∃ (page : Nat) (bit : Nat),
      isPage page = true
      ∧ bit < 32) :=
  ⟨⟨0, pNVM, mk (base.wr Reg.EV_RAW pNVM 0x40000007), by decide +kernel⟩,
   ⟨pNVM, 31, by decide +kernel⟩⟩

theorem applies_RingsAndPortBlocks :
    (∃ (d : Dev) (h : Nat) (src : Nat),
      h < 2
      ∧ d.rd Reg.EVR_CTRL_EN pEVTREE h = 1
      ∧ d.mapped src h = true
      ∧ d.portUp h = true
      ∧ d.ringRoom h = true) ∧
    (∃ (d : Dev) (h : Nat) (src : Nat),
      h < 2
      ∧ d.rd Reg.EVR_CTRL_EN pEVTREE h = 1
      ∧ d.mapped src h = true
      ∧ d.ringRoom h = false) ∧
    (∃ (h : Nat) (hi : Nat) (s : State),
      s.dev.portUp h = true
      ∧ (∀ x, x < 64 → s.dev.vecPending h x = false)
      ∧ hi < 2
      ∧ h < 2) ∧
    (∃ (h : Nat) (v : Nat) (s : State),
      h < 2
      ∧ s.dev.pageAnswers (h + 1) pEVTREE = true
      ∧ s.dev.rd Reg.EVR_CTRL_EN pEVTREE h ≠ 1
      ∧ 4096 ≤ v
      ∧ v ≤ 16777216
      ∧ v % 4096 = 0) ∧
    (∃ (h : Nat) (s : State),
      h < 2
      ∧ s.dev.pageAnswers (h + 1) pEVTREE = true
      ∧ s.dev.rd Reg.EVR_CTRL_EN pEVTREE h = 1) ∧
    (∃ (w : Nat) (h : Nat) (s : State),
      w ≠ h + 1
      ∧ s.dev.pageAnswers w pEVTREE = true) :=
  ⟨⟨((base.wr Reg.EVR_CTRL_EN pEVTREE 1 1).wr Reg.EVT_VEC_EN_B pEVTREE 1 3).wr Reg.EVR_SIZE pEVTREE 4096 1, 1, 3, by decide +kernel⟩,
   ⟨(((base.wr Reg.EVR_CTRL_EN pEVTREE 1 0).wr Reg.EVT_VEC_EN_A pEVTREE 1 3).wr Reg.EVR_SIZE pEVTREE 4096 0).wr Reg.EVR_RD pEVTREE 32 0, 0, 3, by decide +kernel⟩,
   ⟨1, 1, mk base, by decide +kernel⟩,
   ⟨1, 4096, mk base, by decide +kernel⟩,
   ⟨1, mk (base.wr Reg.EVR_CTRL_EN pEVTREE 1 1), by decide +kernel⟩,
   ⟨1, 1, mk base, by decide +kernel⟩⟩

theorem applies_HostPortsAnswer :
    (∃ (h : Nat) (vec : Nat) (s : State),
      s.dev.portUp h = true
      ∧ vec < 64) ∧
    (∃ (h : Nat) (v : Nat) (s : State),
      h < 2
      ∧ s.dev.portUp h = true
      ∧ bitsOf v 8 7 ≤ 64) ∧
    (∃ (h : Nat) (v : Nat) (s : State),
      h < 2
      ∧ s.dev.portUp h = true
      ∧ 64 < bitsOf v 8 7) :=
  ⟨⟨1, 63, mk (base.setHost 1 (fun p => {p with pba := 2^63})), by decide +kernel⟩,
   ⟨1, 0x4003, mk base, by decide +kernel⟩,
   ⟨1, 0x4100, mk base, by decide +kernel⟩⟩

theorem applies_PackageResetsStartAfresh :
    (∃ (straps : List Straps) (us : Nat),
      straps.length = 8
      ∧ 10 ≤ us) ∧
    (∃ (rail : Nat) (mv : Nat) (ns : Nat) (straps : List Straps),
      straps.length = 8
      ∧ rail < 15
      ∧ 2000 < ns
      ∧ (mv < (railLimits rail).1 ∨ (railLimits rail).2 < mv)) ∧
    (∃ (us : Nat),
      us < 10) ∧
    (∃ (rail : Nat) (mv : Nat) (ns : Nat),
      (ns ≤ 2000 ∨ ((railLimits rail).1 ≤ mv ∧ mv ≤ (railLimits rail).2))) ∧
    (∃ (w : Nat) (s : State),
      s.dev.holds w pSHM = true) :=
  ⟨⟨List.replicate 8 ⟨1,0,9⟩, 10, by decide +kernel⟩,
   ⟨1, 0, 2001, List.replicate 8 ⟨1,0,9⟩, by decide +kernel⟩,
   ⟨9, by decide +kernel⟩,
   ⟨0, 0, 2000, by decide +kernel⟩,
   ⟨1, mk (own base pSHM 1), by decide +kernel⟩⟩

theorem applies_RegionsAreReset :
    (∃ (w : Nat) (r : Nat) (s : State),
      r < 8
      ∧ s.dev.holds w (blk r ixRGN) = true
      ∧ (s.dev.region r).held = false
      ∧ (¬ (s.dev.sys.mode = 1 ∧ (s.dev.region r).pwr = .park))) ∧
    (∃ (n : Nat) (slot : Nat) (t0 : Nat) (x : Nat) (a : Nat) (r : Nat) (s : State),
      r < 8
      ∧ ((s.dev.advanceTo t0).pgActs n)[slot]? = some a
      ∧ ((s.dev.advanceTo t0).pg n slot).doneAt = some x
      ∧ r = (if (s.dev.advanceTo t0).pgServer n slot = a then (s.dev.advanceTo t0).pgStby n else a)
      ∧ ((s.dev.advanceTo t0).region r).failedAt ≠ none
      ∧ ((s.dev.advanceTo t0).region r).core = .run
      ∧ ((s.dev.advanceTo t0).region r).held = false
      ∧ (¬ ((s.dev.advanceTo t0).sys.mode = 1 ∧ ((s.dev.advanceTo t0).region r).pwr = .park))
      ∧ x + 100000000 ≤ (s.dev.advanceTo t0).now
      ∧ (s.dev.advanceTo t0).reachable (s.dev.advanceTo t0).holder r = true) ∧
    (∃ (r : Nat) (tj : Int),
      r < 8
      ∧ 640 ≤ tj) ∧
    (∃ (tj : Int),
      tj < 640) ∧
    (∃ (r : Nat) (ms : Nat) (t0 : Nat) (s : State),
      ((s.dev.advanceTo t0).region r).held = true
      ∧ 10000 ≤ ms) ∧
    (∃ (ms : Nat),
      ms < 10000) :=
  ⟨⟨1, 2, {mk (own base (blk 2 ixRGN) 1) with ram := [(ramKey 1 5, 7), (ramKey 2 (2^35), 9), (ramKey 3 0, 1)]}, by decide +kernel⟩,
   ⟨0, 0, 200000000, 5, 0, 0, mk {(protd 4).setRegion 0 (fun x => {x with failedAt := some 3}) with pgs := [(0, {PgSlot.init with doneAt := some 5})]}, by decide +kernel⟩,
   ⟨7, 640, by decide +kernel⟩,
   ⟨639, by decide +kernel⟩,
   ⟨3, 10000, 9, mk (base.setRegion 3 (fun x => {x with held := true})), by decide +kernel⟩,
   ⟨9999, by decide +kernel⟩⟩

theorem applies_RegionsComeUp :
    (∃ (r : Nat) (t0 : Nat) (s : State),
      let d := s.dev.advanceTo t0
      r < 8
      ∧ (d.region r).core = .reset
      ∧ (d.region r).held = false
      ∧ (d.island r).verified = true
      ∧ d.sys.booted = true
      ∧ d.sys.mode ≠ 3
      ∧ d.sys.mediaOk = true) ∧
    (∃ (r : Nat) (s : State),
      r < 8
      ∧ s.dev.active r = true
      ∧ s.dev.raMode r ≠ 1
      ∧ (s.dev.raMode r = 0 → ∀ p, p < 4 → s.dev.rd Reg.MP_STATE_STATE (mpPage r p) ≠ 1)) ∧
    (∃ (i : Nat) (source : Nat) (slot : Nat) (img : ImageSet) (s : State),
      i < 8
      ∧ source < 3
      ∧ (s.dev.island i).aon = true
      ∧ (s.dev.island i).verified = false
      ∧ s.dev.sys.booted = false
      ∧ s.dev.bootNext = some source
      ∧ s.dev.sys.bootFails.contains (source * 2 + slot % 2) = false
      ∧ (s.dev.imageCode s.otp img).1 = 0) ∧
    (∃ (i : Nat) (source : Nat) (slot : Nat) (img : ImageSet) (s : State),
      i < 8
      ∧ source < 3
      ∧ (s.dev.island i).aon = true
      ∧ (s.dev.island i).verified = false
      ∧ s.dev.sys.booted = false
      ∧ s.dev.bootNext = some source
      ∧ s.dev.sys.bootFails.contains (source * 2 + slot % 2) = false
      ∧ (s.dev.imageCode s.otp img).1 ≠ 0) ∧
    (∃ (i : Nat) (source : Nat) (slot : Nat) (img : ImageSet) (s : State),
      i < 8
      ∧ source < 3
      ∧ (s.dev.island i).aon = true
      ∧ (s.dev.island i).verified = false
      ∧ s.dev.sys.booted = true
      ∧ s.dev.sys.bootSource = source
      ∧ s.dev.sys.bootSlot = slot % 2
      ∧ (s.dev.imageCode s.otp img).1 = 0) :=
  ⟨⟨3, 9, mk (base.setRegion 3 (fun x => {x with core := .reset})), by dsimp only; decide +kernel⟩,
   ⟨3, mk ((base.wr Reg.RA_MODE_MODE (blk 3 ixRACHIS) 0).each (List.range 4) (fun d p => d.wr Reg.MP_STATE_STATE (mpPage 3 p) 2)), by decide +kernel⟩,
   ⟨3, 0, 1, ⟨true,true,true,9,9,9⟩, mk ((({base.setIsland 3 (fun x => {x with verified := false}) with sys := {base.sys with booted := false}}).setRegion 3 (fun x => {x with core := .reset}))), by decide +kernel⟩,
   ⟨3, 0, 1, ⟨false,true,true,9,9,9⟩, mk ({base.setIsland 3 (fun x => {x with verified := false}) with sys := {base.sys with booted := false}}), by decide +kernel⟩,
   ⟨3, 1, 1, ⟨true,true,true,9,9,9⟩, mk ((({base.setIsland 3 (fun x => {x with verified := false}) with sys := {base.sys with bootSource := 1, bootSlot := 1}}).setRegion 3 (fun x => {x with core := .reset}))), by decide +kernel⟩⟩

theorem applies_BlocksResetAndEnabled :
    (∃ (w : Nat) (r : Nat) (ix : Nat) (s : State),
      r < 8
      ∧ ix ≠ ixRGN
      ∧ s.dev.holds w (blk r ix) = true) ∧
    (∃ (w : Nat) (r : Nat) (p : Nat) (s : State),
      r < 8
      ∧ p < 4
      ∧ s.dev.holds w (mpPage r p) = true) ∧
    (∃ (w : Nat) (r : Nat) (ix : Nat) (v : Nat) (s : State),
      r < 8
      ∧ ixRGN < ix
      ∧ ix ≠ ixAWN
      ∧ ix ≠ ixTIMEBASE
      ∧ ix < ixCTL
      ∧ s.dev.holds w (blk r ix) = true
      ∧ s.dev.rd Reg.CTRL_ENABLE (blk r ix) ≠ v % 2
      ∧ (v % 2 = 0 → s.dev.blockCarries r ix = false)) ∧
    (∃ (w : Nat) (r : Nat) (ix : Nat) (v : Nat) (s : State),
      r < 8
      ∧ ixRGN < ix
      ∧ ix ≠ ixAWN
      ∧ ix ≠ ixTIMEBASE
      ∧ ix < ixCTL
      ∧ s.dev.holds w (blk r ix) = true
      ∧ s.dev.rd Reg.CTRL_ENABLE (blk r ix) = 1
      ∧ v % 2 = 0
      ∧ s.dev.blockCarries r ix = true) ∧
    (∃ (w : Nat) (r : Nat) (ix : Nat) (v : Nat) (s : State),
      r < 8
      ∧ ixRGN < ix
      ∧ ix ≠ ixAWN
      ∧ ix ≠ ixTIMEBASE
      ∧ ix < ixCTL
      ∧ s.dev.holds w (blk r ix) = true
      ∧ s.dev.rd Reg.CTRL_ENABLE (blk r ix) = v % 2) ∧
    (∃ (w : Nat) (r : Nat) (ix : Nat) (s : State),
      r < 8
      ∧ (ix = ixRGN ∨ ix = ixAWN ∨ ix = ixTIMEBASE ∨ ixCTL ≤ ix)
      ∧ s.dev.holds w (blk r ix) = true) :=
  ⟨⟨1, 3, ixCOMPOSE, mk (own base (blk 3 ixCOMPOSE) 1), by decide +kernel⟩,
   ⟨1, 3, 2, {mk (own base (mpPage 3 2) 1) with ram := [(ramKey 3 0x1000000005, 7), (ramKey 3 0, 9)]}, by decide +kernel⟩,
   ⟨1, 3, ixCE, 1, mk ((own base (blk 3 ixCE) 1).wr Reg.CTRL_ENABLE (blk 3 ixCE) 0), by decide +kernel⟩,
   ⟨1, 3, ixCULM, 0, mk (own (carry base 5 3 0) (blk 3 ixCULM) 1), by decide +kernel⟩,
   ⟨1, 3, ixCE, 1, mk (own base (blk 3 ixCE) 1), by decide +kernel⟩,
   ⟨1, 3, ixAWN, mk (own base (blk 3 ixAWN) 1), by decide +kernel⟩⟩

theorem applies_PowerStatesChange :
    (∃ (w : Nat) (r : Nat) (p : Pwr) (i : Instr) (s : State),
      (i, p) ∈ [(Instr.pwrActive w r, Pwr.active), (.pwrIdle w r, .idle), (.pwrNap w r, .nap), (.pwrPark w r, .park)]
      ∧ r < 8
      ∧ s.dev.holds w (blk r ixRGN) = true
      ∧ s.dev.rd Reg.RGN_PWR_BUSY (blk r ixRGN) = 0
      ∧ (s.dev.region r).held = false
      ∧ (s.dev.region r).failedAt = none
      ∧ ((s.dev.region r).core = .run ∨ ((s.dev.region r).core = .off ∧ (s.dev.region r).pwr = .park))
      ∧ s.dev.pwrRefusal r p = 0
      ∧ (s.dev.region r).pwr ≠ p) ∧
    (∃ (w : Nat) (r : Nat) (p : Pwr) (i : Instr) (s : State),
      (i, p) ∈ [(Instr.pwrActive w r, Pwr.active), (.pwrIdle w r, .idle), (.pwrNap w r, .nap), (.pwrPark w r, .park)]
      ∧ r < 8
      ∧ s.dev.holds w (blk r ixRGN) = true
      ∧ s.dev.rd Reg.RGN_PWR_BUSY (blk r ixRGN) = 0
      ∧ (s.dev.region r).held = false
      ∧ (s.dev.region r).failedAt = none
      ∧ ((s.dev.region r).core = .run ∨ ((s.dev.region r).core = .off ∧ (s.dev.region r).pwr = .park))
      ∧ s.dev.pwrRefusal r p = 0
      ∧ (s.dev.region r).pwr = p) ∧
    (∃ (w : Nat) (r : Nat) (p : Pwr) (i : Instr) (s : State),
      (i, p) ∈ [(Instr.pwrActive w r, Pwr.active), (.pwrIdle w r, .idle), (.pwrNap w r, .nap), (.pwrPark w r, .park)]
      ∧ r < 8
      ∧ s.dev.holds w (blk r ixRGN) = true
      ∧ s.dev.rd Reg.RGN_PWR_BUSY (blk r ixRGN) = 1) ∧
    (∃ (w : Nat) (r : Nat) (p : Pwr) (i : Instr) (s : State),
      (i, p) ∈ [(Instr.pwrActive w r, Pwr.active), (.pwrIdle w r, .idle), (.pwrNap w r, .nap), (.pwrPark w r, .park)]
      ∧ r < 8
      ∧ s.dev.holds w (blk r ixRGN) = true
      ∧ s.dev.rd Reg.RGN_PWR_BUSY (blk r ixRGN) = 0
      ∧ (s.dev.region r).held = false
      ∧ (s.dev.region r).failedAt = none
      ∧ (s.dev.region r).core = .run
      ∧ s.dev.pwrRefusal r p ≠ 0) ∧
    (∃ (r : Nat) (t0 : Nat) (p : Pwr) (s : State),
      r < 8
      ∧ ((s.dev.advanceTo t0).region r).target = some p) ∧
    (∃ (r : Nat) (t0 : Nat) (s : State),
      ((s.dev.advanceTo t0).region r).target = none) :=
  ⟨⟨1, 3, .park, .pwrPark 1 3, mk (own base (blk 3 ixRGN) 1), by decide +kernel⟩,
   ⟨1, 3, .active, .pwrActive 1 3, mk (own base (blk 3 ixRGN) 1), by decide +kernel⟩,
   ⟨1, 3, .nap, .pwrNap 1 3, mk ((own base (blk 3 ixRGN) 1).wr Reg.RGN_PWR_BUSY (blk 3 ixRGN) 1), by decide +kernel⟩,
   ⟨1, 3, .nap, .pwrNap 1 3, mk (own (carry base 5 3 0) (blk 3 ixRGN) 1), by decide +kernel⟩,
   ⟨3, 7, .nap, mk (base.setRegion 3 (fun x => {x with target := some .nap})), by decide +kernel⟩,
   ⟨3, 7, mk base, by decide +kernel⟩⟩

theorem applies_LinksFailAndReturn :
    (∃ (l : Nat) (s : State),
      l < 10
      ∧ s.dev.sys.linksDown.contains l = false) ∧
    (∃ (l : Nat) (s : State),
      s.dev.sys.linksDown.contains l = true
      ∧ l < 10) ∧
    (∃ (a : Nat) (b : Nat) (n : Nat) (s : State),
      segmentOf a b = some n
      ∧ s.dev.sys.awnBroken.contains n = false) ∧
    (∃ (r : Nat) (s : State),
      r < 8
      ∧ (s.dev.island r).aon = true
      ∧ (s.dev.region r).killed = false) :=
  ⟨⟨9, mk base, by decide +kernel⟩,
   ⟨0, mk {base with sys := {base.sys with linksDown := [3,0]}}, by decide +kernel⟩,
   ⟨7, 3, 3, mk base, by decide +kernel⟩,
   ⟨5, mk base, by decide +kernel⟩⟩

theorem applies_ElectionTakesLowestHealthy :
    (∃ (t0 : Nat) (h : Nat) (rest : List Nat) (s : State),
      let d := s.dev.advanceTo t0
      s.dev.sys.chipFatal = false
      ∧ (s.dev.sys.elected = false ∨ s.dev.sys.electAt ≠ none)
      ∧ d.healthSet d.elector = h :: rest) ∧
    (∃ (t0 : Nat) (s : State),
      s.dev.sys.chipFatal = false
      ∧ (s.dev.sys.elected = false ∨ s.dev.sys.electAt ≠ none)
      ∧ (s.dev.advanceTo t0).healthSet (s.dev.advanceTo t0).elector = []) ∧
    (∃ (s : State),
      (s.dev.sys.chipFatal = true ∨ (s.dev.sys.elected = true ∧ s.dev.sys.electAt = none))) ∧
    (∃ (fatal : Bool) (s : State),
      s.dev.rd Reg.ELECT_SHADOW_VALID pSHM = 1
      ∧ s.dev.ownHealth (s.dev.rd Reg.ELECT_SHADOW pSHM) = true
      ∧ s.dev.rd Reg.ELECT_SHADOW pSHM < 8
      ∧ ((fatal = true ∧ (s.dev.island s.dev.holder).fatal = true) ∨ s.dev.missed (s.dev.rd Reg.ELECT_SHADOW pSHM) s.dev.holder = true)) ∧
    (∃ (i : Nat),
      i < 8) :=
  ⟨⟨7, 0, [1,2,3,4,5,6,7], mk {base with sys := {base.sys with elected := false}}, by dsimp only; decide +kernel⟩,
   ⟨7, mk {base with isl := [], sys := {base.sys with elected := false}}, by decide +kernel⟩,
   ⟨mk base, by decide +kernel⟩,
   ⟨true, mk ((((base.wr Reg.ELECT_SHADOW pSHM 1).wr Reg.ELECT_SHADOW_VALID pSHM 1).setIsland 0 (fun x => {x with fatal := true}))), by decide +kernel⟩,
   ⟨5, by decide +kernel⟩⟩

theorem applies_HeartbeatsTellTheWay :
    (∃ (i : Nat) (s : State),
      i < 8
      ∧ (s.dev.island i).aon = true) ∧
    (∃ (i : Nat) (s : State),
      (8 ≤ i ∨ (s.dev.island i).aon = false)) ∧
    (∃ (obs : Nat) (src : Nat) (path : Path) (s : State),
      obs < 8
      ∧ src < 8
      ∧ obs ≠ src
      ∧ (s.dev.island src).aon = true
      ∧ (s.dev.island obs).aon = true
      ∧ (path = .awn → s.dev.awnJoined src obs = true)
      ∧ (path = .stolon → s.dev.active src = true ∧ s.dev.active obs = true ∧ (s.dev.route src obs).isSome = true)) ∧
    (∃ (obs : Nat) (src : Nat) (tb : Nat) (s : State),
      obs < 8
      ∧ src < 8
      ∧ obs ≠ src
      ∧ (s.dev.island src).aon = true
      ∧ (s.dev.island obs).aon = true
      ∧ s.dev.awnJoined src obs = true
      ∧ src = s.dev.holder
      ∧ tget? s.dev.sys.beats src = some tb) ∧
    (∃ (obs : Nat) (src : Nat) (path : Path) (t0 : Nat) (s : State),
      obs < 8
      ∧ src < 8
      ∧ obs ≠ src
      ∧ s.dev.sys.reachLost.contains (reachKey obs src (pathNum path)) = false
      ∧ tget s.dev.sys.heard (reachKey obs src (pathNum path)) 0 + 300000 ≤ (s.dev.advanceTo t0).now) ∧
    (∃ (obs : Nat) (src : Nat) (path : Path) (t0 : Nat) (s : State),
      (s.dev.advanceTo t0).now < tget s.dev.sys.heard (reachKey obs src (pathNum path)) 0 + 300000) :=
  ⟨⟨5, mk base, by decide +kernel⟩,
   ⟨8, mk base, by decide +kernel⟩,
   ⟨5, 0, .stolon, mk base, by decide +kernel⟩,
   ⟨5, 0, 100, mk {base with sys := {base.sys with beats := [(0,100)]}}, by decide +kernel⟩,
   ⟨0, 5, .awn, 300000, mk base, by decide +kernel⟩,
   ⟨0, 5, .stolon, 299999, mk base, by decide +kernel⟩⟩

theorem applies_ProtectionGroupsObey :
    (∃ (w : Nat) (n : Nat) (v : Nat) (s : State),
      n < 4
      ∧ s.dev.holds w pSHM = true
      ∧ (s.dev.sys.mode = 0 ∨ (bitsOf v 4 3 ≠ 0 ∧ bitsOf v 8 3 ≠ 0 ∧ bitsOf v 12 3 ≠ 0))
      ∧ s.dev.pgValid n (v % 4) (bitsOf v 4 3) (bitsOf v 8 3) (bitsOf v 12 3) (bitsOf v 16 8) = true
      ∧ (∀ r, s.dev.chansOn r = [])) ∧
    (∃ (w : Nat) (n : Nat) (v : Nat) (s : State),
      n < 4
      ∧ s.dev.holds w pSHM = true
      ∧ s.dev.pgValid n (v % 4) (bitsOf v 4 3) (bitsOf v 8 3) (bitsOf v 12 3) (bitsOf v 16 8) = false) ∧
    (∃ (w : Nat) (n : Nat) (v : Nat) (s : State),
      n < 4
      ∧ s.dev.holds w pSHM = true
      ∧ s.dev.sys.mode ≠ 0
      ∧ (v % 4 = 1 ∨ v % 4 = 2)
      ∧ (bitsOf v 4 3 = 0 ∨ bitsOf v 12 3 = 0 ∨ (v % 4 = 2 ∧ bitsOf v 8 3 = 0))
      ∧ s.dev.pgValid n (v % 4) (bitsOf v 4 3) (bitsOf v 8 3) (bitsOf v 12 3) (bitsOf v 16 8) = true) ∧
    (∃ (w : Nat) (n : Nat) (slot : Nat) (s : State),
      n < 4
      ∧ slot < 2
      ∧ s.dev.holds w pSHM = true
      ∧ s.dev.pgState n slot = 2) ∧
    (∃ (w : Nat) (n : Nat) (slot : Nat) (s : State),
      n < 4
      ∧ slot < 2
      ∧ s.dev.holds w pSHM = true
      ∧ s.dev.pgState n slot ≠ 2) ∧
    (∃ (w : Nat) (n : Nat) (slot : Nat) (s : State),
      n < 4
      ∧ slot < 2
      ∧ s.dev.holds w pSHM = true
      ∧ 4 ≤ s.dev.pgState n slot
      ∧ s.dev.pgState n slot ≤ 6) ∧
    (∃ (w : Nat) (n : Nat) (slot : Nat) (i : Instr) (s : State),
      n < 4
      ∧ slot < 2
      ∧ s.dev.holds w pSHM = true
      ∧ ((i = .pgHold w n slot ∧ (s.dev.pgState n slot < 4 ∨ 6 < s.dev.pgState n slot)) ∨ (i = .pgRelease w n slot ∧ s.dev.pgHeld n slot = false))) ∧
    (∃ (w : Nat) (n : Nat) (slot : Nat) (s : State),
      n < 4
      ∧ slot < 2
      ∧ s.dev.holds w pSHM = true
      ∧ s.dev.pgHeld n slot = true) :=
  ⟨⟨1, 3, 0x1E4211, mk (own base pSHM 1), ⟨by decide +kernel, by decide +kernel, by decide +kernel, by decide +kernel, fun _ => rfl⟩⟩,
   ⟨1, 3, 0x1E4213, mk (own base pSHM 1), by decide +kernel⟩,
   ⟨1, 3, 0x1E4001, mk (own {base with sys := {base.sys with mode := 1}} pSHM 1), by decide +kernel⟩,
   ⟨1, 0, 0, mk (own ((protd 0).wr Reg.PG_STATUS_STATE_A pSHM 2) pSHM 1), by decide +kernel⟩,
   ⟨1, 0, 0, mk (own ((protd 0).wr Reg.PG_STATUS_STATE_A pSHM 3) pSHM 1), by decide +kernel⟩,
   ⟨1, 0, 0, mk (own ((protd 4).wr Reg.PG_STATUS_STATE_A pSHM 6) pSHM 1), by decide +kernel⟩,
   ⟨1, 0, 0, .pgHold 1 0 0, mk (own ((protd 0).wr Reg.PG_STATUS_STATE_A pSHM 3) pSHM 1), by decide +kernel⟩,
   ⟨1, 0, 0, mk (own ((((protd 4).wr Reg.PG_STATUS_STATE_A pSHM 5)).wr Reg.PG_STATUS_HOLD_A pSHM 1) pSHM 1), by decide +kernel⟩⟩

theorem applies_FailuresMoveTheGrant :
    (∃ (r : Nat) (t0 : Nat) (i : Instr) (s : State),
      r < 8
      ∧ ((i = .fwBeatMiss r t0 ∧ s.dev.active r = true) ∨ (i = .islandFatalReport r t0 ∧ (s.dev.island r).aon = true))) ∧
    (∃ (n : Nat) (slot : Nat) (a : Nat) (s : State),
      (s.dev.pgActs n)[slot]? = some a
      ∧ s.dev.missed (s.dev.witness n) (s.dev.pgServer n slot) = true) ∧
    (∃ (n : Nat) (slot : Nat) (s : State),
      s.dev.missed (s.dev.witness n) (s.dev.pgServer n slot) = false) ∧
    (∃ (r : Nat) (n : Nat) (slot : Nat) (s : State),
      s.dev.slotOf r = some (n, slot)
      ∧ s.dev.missed r (s.dev.witness n) = true
      ∧ s.dev.missed r (s.dev.pgStby n) = true) ∧
    (∃ (n : Nat) (slot : Nat) (t0 : Nat) (a : Nat) (cause : Nat) (at_ : Nat) (s : State),
      let d := s.dev.advanceTo t0
      let e := d.pgEvalAll
      let from_ := d.pgServer n slot
      let tk := d.slotTaker n slot a
      let v := e.notReady n slot from_ tk
      n < 4
      ∧ slot < 2
      ∧ cause < 16
      ∧ a < 8
      ∧ (d.pgActs n)[slot]? = some a
      ∧ (d.pg n slot).declared = some (cause, at_)
      ∧ d.declaredBefore n slot a at_ = false
      ∧ d.pgState n slot ≠ 3
      ∧ (d.pgState n slot = 1 ∨ d.pgState n slot = 2 → e.pgState n slot ≠ 3)
      ∧ (d.pgState n slot ≤ 2 → bitOf v 0 = false ∧ bitOf v 4 = false ∧ bitOf v 5 = false)
      ∧ e.active tk = true
      ∧ tk < 8) :=
  ⟨⟨5, 7, .fwBeatMiss 5 7, mk (carry base 9 5 0), by decide +kernel⟩,
   ⟨0, 0, 2, mk {((base.wr Reg.PG_CFG_MODE pSHM 1).wr Reg.PG_CFG_ACT_A pSHM 2).wr Reg.PG_CFG_STBY pSHM 6 |>.wr Reg.PG_STATUS_SERVER_A pSHM 2 with sys := {base.sys with reachLost := [4,5]}}, by decide +kernel⟩,
   ⟨0, 0, mk (protd 0), by decide +kernel⟩,
   ⟨2, 0, 0, mk {(((base.wr Reg.PG_CFG_MODE pSHM 1).wr Reg.PG_CFG_ACT_A pSHM 2).wr Reg.PG_CFG_STBY pSHM 6).wr Reg.PG_STATUS_SERVER_A pSHM 2 with sys := {base.sys with reachLost := [32,33,44,45]}}, by decide +kernel⟩,
   ⟨0, 0, 7, 0, 1, 5, mk {(protd 0).wr Reg.PG_STATUS_STATE_A pSHM 2 with pgs := [(0, {PgSlot.init with declared := some (1,5)})]}, by dsimp only; decide +kernel⟩⟩

theorem applies_RevertPassesTheToken :
    (∃ (n : Nat) (slot : Nat) (t0 : Nat) (x : Nat) (s : State),
      let d := (s.dev.advanceTo t0).pgEvalAll
      n < 4
      ∧ slot < 2
      ∧ (d.pg n slot).readySince = some x
      ∧ d.pgState n slot = 5
      ∧ d.pgHeld n slot = false
      ∧ x + d.rd Reg.PG_CFG_HOLDOFF_S pSHM n * 1000000000 ≤ d.now) ∧
    (∃ (n : Nat) (slot : Nat) (t0 : Nat) (a : Nat) (at_ : Nat) (c : Nat) (s : State),
      let d := s.dev.advanceTo t0
      (d.pgActs n)[slot]? = some a
      ∧ (d.pg n slot).revert = some at_
      ∧ d.pgState n slot = 6
      ∧ (d.pgHeld n slot = false ∨ (d.pg n slot).handed ≠ [])
      ∧ c ∈ d.protOn (d.revertEnds n slot a).1
      ∧ (d.pg n slot).handed.contains c = false
      ∧ d.frameGrant c (d.revertFrame c at_) ≤ (d.nowTu : Int)) ∧
    (∃ (n : Nat) (slot : Nat) (t0 : Nat) (a : Nat) (at_ : Nat) (s : State),
      let d := s.dev.advanceTo t0
      let ends := d.revertEnds n slot a
      n < 4
      ∧ slot < 2
      ∧ a < 8
      ∧ (d.pgActs n)[slot]? = some a
      ∧ (d.pg n slot).revert = some at_
      ∧ d.pgState n slot = 6
      ∧ d.pgStby n < 8
      ∧ d.protOn ends.1 ≠ []
      ∧ (∀ c, c ∈ d.protOn ends.1 → ∃ k q, (d.chan c).handTo = some (k, q) ∧ d.frameDepart c k ≤ d.now)) :=
  ⟨⟨0, 0, 31000000000, 5, mk {(protd 4).wr Reg.PG_STATUS_STATE_A pSHM 5 with pgs := [(0, {PgSlot.init with readySince := some 5})]}, by dsimp only; decide +kernel⟩,
   ⟨0, 0, 1000000000, 0, 5, 9, mk {(carry (protd 4) 9 4 1).wr Reg.PG_STATUS_STATE_A pSHM 6 with pgs := [(0, {PgSlot.init with revert := some 5})]}, by dsimp only; decide +kernel⟩,
   ⟨0, 0, 1000000000, 0, 5, mk revd, by dsimp only; exact ⟨by decide +kernel, by decide +kernel, by decide +kernel, by decide +kernel, by decide +kernel, by decide +kernel, by decide +kernel, by decide +kernel, fun c h => ⟨0, 0, by
      have e : ((mk revd).dev.advanceTo 1000000000).protOn (((mk revd).dev.advanceTo 1000000000).revertEnds 0 0 0).1 = [9] := by decide +kernel
      rw [e] at h; cases List.mem_singleton.1 h; decide +kernel⟩⟩⟩⟩

theorem applies_StandbyTakesRecords :
    (∃ (c : Nat) (rd : Nat) (seq : Nat) (x : MirRec) (s : State),
      s.dev.live c = true
      ∧ (let m := tget s.dev.mirs (c * 8 + rd) Mirror.init; (if seq % 2 = 0 then m.rec0 else m.rec1) = some x)
      ∧ x.seq = seq
      ∧ x.ok = false) ∧
    (∃ (c : Nat) (rd : Nat) (seq : Nat) (s : State),
      (let m := tget s.dev.mirs (c * 8 + rd) Mirror.init; (if seq % 2 = 0 then m.rec0 else m.rec1) = none)) ∧
    (∃ (r : Nat) (c : Nat) (rd : Nat) (row : Nat) (u : Du) (s : State),
      s.dev.live c = true
      ∧ s.dev.active r = true
      ∧ (s.dev.tracked r).contains c = true
      ∧ (tget s.dev.mirs (c * 8 + rd) Mirror.init).dus.reverse.find? (fun u => u.j == row) = some u) :=
  ⟨⟨9, 1, 3, ⟨3,0,0,[],false⟩, mk {carry base 9 2 1 with mirs := [(73, {Mirror.init with rec1 := some ⟨3,0,0,[],false⟩})]}, by decide +kernel⟩,
   ⟨9, 1, 3, mk (carry base 9 2 1), by decide +kernel⟩,
   ⟨4, 9, 1, 2, ⟨2,0,2,0,[],0,false,none,0,0,0,0,0,0,false⟩, mk {carry (protd 0) 9 0 1 with mirs := [(73, {Mirror.init with dus := [⟨2,0,2,0,[],0,false,none,0,0,0,0,0,0,false⟩]})]}, by decide +kernel⟩⟩

theorem applies_TimebaseSteered :
    (∃ (w : Nat) (v : Nat) (s : State),
      s.dev.holder < 8
      ∧ s.dev.holds w (blk s.dev.holder ixTIMEBASE) = true
      ∧ s.dev.servoAllows w = true
      ∧ v < 2 ^ 34
      ∧ (let span := 2 ^ 33 * (if s.dev.liveChans = [] then 500 else s.dev.rd Reg.TB_CTRL_SLEW_PPM (blk s.dev.holder ixTIMEBASE)) / 1000000; 2 ^ 33 ≤ v + span ∧ v ≤ 2 ^ 33 + span)) ∧
    (∃ (isSet : Bool) (w : Nat) (x : Int) (s : State),
      s.dev.holder < 8
      ∧ s.dev.holds w (blk s.dev.holder ixTIMEBASE) = true
      ∧ s.dev.servoAllows w = true
      ∧ s.dev.tbLoad isSet = (x, true)) ∧
    (∃ (t0 : Nat) (a : TbAdj) (s : State),
      s.dev.sys.adj = some a
      ∧ s.dev.holder < 8
      ∧ a.atNs ≤ (s.dev.advanceTo t0).now) ∧
    (∃ (t0 : Nat) (s : State),
      (∀ a, s.dev.sys.adj = some a → (s.dev.advanceTo t0).now < a.atNs)) ∧
    (∃ (isSet : Bool) (w : Nat) (s : State),
      s.dev.holder < 8
      ∧ s.dev.holds w (blk s.dev.holder ixTIMEBASE) = true
      ∧ s.dev.servoAllows w = true
      ∧ (s.dev.tbLoad isSet).2 = false) :=
  ⟨⟨0x10, 2^33+100, mk (own base (blk 0 ixTIMEBASE) 0x10), by decide +kernel⟩,
   ⟨true, 0x10, (3*1000000000+5)*65536+7, mk ((((own base (blk 0 ixTIMEBASE) 0x10).wr Reg.TB_LOAD (blk 0 ixTIMEBASE) (5*65536+7) 0).wr Reg.TB_LOAD (blk 0 ixTIMEBASE) (3*65536) 1)), by decide +kernel⟩,
   ⟨1000001, ⟨true,3*65536*1000000000+9,1000000⟩, mk {base with sys := {base.sys with adj := some ⟨true,3*65536*1000000000+9,1000000⟩}}, by decide +kernel⟩,
   ⟨5, mk {base with sys := {base.sys with adj := some ⟨false,-65536,1000000⟩}}, fun a h => by cases (show some _ = some a from h); decide +kernel⟩,
   ⟨true, 0x10, mk (((own base (blk 0 ixTIMEBASE) 0x10).wr Reg.TB_LOAD (blk 0 ixTIMEBASE) 0xFFFF 1)), by decide +kernel⟩⟩

theorem applies_ReadsAnswerOneClock :
    (∃ (w : Nat) (r : Nat) (s : State),
      r < 8
      ∧ s.dev.readable w (blk r ixTIMEBASE + 0x100) = true) ∧
    (∃ (w : Nat) (addr : Nat) (i : Nat) (s : State),
      addr % 4 = 0
      ∧ s.dev.readable w addr = true
      ∧ isHighWord addr = false
      ∧ i < multiWords addr) :=
  ⟨⟨1, 5, mk base, by decide +kernel⟩,
   ⟨1, blk 5 0x1B+0x100, 3, mk base, by decide +kernel⟩⟩

theorem applies_PtpReceiverMeasures :
    (∃ (n : Nat) (dom : Nat) (src : Nat) (s : State),
      let e := s.dev.ptpDue n
      e.ptpHears n dom src = true) ∧
    (∃ (n : Nat) (dom : Nat) (src : Nat) (seq : Nat) (t2 : Int) (s : State),
      let e := s.dev.ptpDue n
      e.ptpHears n dom src = true
      ∧ (e.ptpSt n).wait2 = some (t2, seq)) ∧
    (∃ (n : Nat) (s : State),
      let e := s.dev.ptpDue n
      e.ptpRole n = some 0
      ∧ e.ptpState n = ptpReceiver) ∧
    (∃ (n : Nat) (dom : Nat) (src : Nat) (seq : Nat) (t1 : Int) (t2 : Int) (t3 : Int) (s : State),
      let e := s.dev.ptpDue n
      e.ptpHears n dom src = true
      ∧ (e.ptpSt n).t1 = some t1
      ∧ (e.ptpSt n).t2 = some t2
      ∧ (e.ptpSt n).t3 = some (t3, seq)) ∧
    (∃ (n : Nat) (dom : Nat) (src : Nat) (s : State),
      let e := s.dev.ptpDue n
      e.ptpHears n dom src = false) :=
  ⟨⟨2, 127, 9, mk (ptpd 0 9 {PtpSt.init with best := some ann}), by dsimp only; decide +kernel⟩,
   ⟨2, 127, 9, 3, 5000, mk (ptpd 0 9 {PtpSt.init with best := some ann, wait2 := some (5000,3)}), by dsimp only; decide +kernel⟩,
   ⟨2, mk (ptpd 0 9 {PtpSt.init with t1 := some 4000, t2 := some 5000}), by dsimp only; decide +kernel⟩,
   ⟨2, 127, 9, 5, 4000, 5000, 6000, mk (ptpd 0 9 {PtpSt.init with best := some ann, t1 := some 4000, t2 := some 5000, t3 := some (6000,5)}), by dsimp only; decide +kernel⟩,
   ⟨2, 3, 9, mk (ptpd 0 9 {PtpSt.init with best := some ann}), by dsimp only; decide +kernel⟩⟩

theorem applies_PtpTransmitterSends :
    (∃ (n : Nat) (dom : Nat) (raw : Nat) (t4 : Int) (s : State),
      let e := s.dev.ptpDue n
      e.ptpRole n = some 1
      ∧ e.ptpState n = ptpMaster
      ∧ dom = e.ptpRd n Reg.PTP_CFG_DOMAIN
      ∧ e.rxStamp n raw = some t4) ∧
    (∃ (n : Nat) (raw : Nat) (t1 : Int) (s : State),
      let e := s.dev.ptpDue n
      e.ptpRole n = some 1
      ∧ e.ptpState n = ptpMaster
      ∧ e.txStamp n raw = some t1) ∧
    (∃ (n : Nat) (s : State),
      let e := s.dev.ptpDue n
      e.ptpRole n = some 1
      ∧ e.ptpState n = ptpMaster) ∧
    (∃ (n : Nat) (a : Announce) (s : State),
      let e := s.dev.ptpDue n
      e.ptpRole n = some 0
      ∧ (e.ptpSt n).best = none
      ∧ a.steps < 255
      ∧ a.dom = e.ptpRd n Reg.PTP_CFG_DOMAIN
      ∧ a.gmid < 2 ^ 64) ∧
    (∃ (n : Nat) (t0 : Nat) (s : State),
      let e := s.dev.ptpDue n
      (e.ptpSt n).annAt + e.annLimit n ≤ (e.advanceTo t0).now) ∧
    (∃ (t0 : Nat) (e : Nat) (s : State),
      s.dev.holder < 8
      ∧ s.dev.phaseEnd = some e
      ∧ e ≤ (s.dev.advanceTo t0).now) ∧
    (∃ (w : Nat) (s : State),
      s.dev.holds w pPTP = true) :=
  ⟨⟨2, 127, 7000, 7000, mk (ptpd 1 6 PtpSt.init), by dsimp only; decide +kernel⟩,
   ⟨2, 7000, 7000, mk (ptpd 1 6 {PtpSt.init with seqSync := 65535}), by dsimp only; decide +kernel⟩,
   ⟨2, mk (ptpd 1 6 PtpSt.init), by dsimp only; decide +kernel⟩,
   ⟨2, ann, mk (ptpd 0 4 PtpSt.init), by dsimp only; decide +kernel⟩,
   ⟨2, 7000000000, mk (ptpd 0 9 {PtpSt.init with best := some ann}), by dsimp only; decide +kernel⟩,
   ⟨7, 5, mk {base with phaseEnd := some 5}, by decide +kernel⟩,
   ⟨1, mk (own base pPTP 1), by decide +kernel⟩⟩

theorem applies_ReferencesAndDpll :
    (∃ (e : Nat) (t0 : Nat) (s : State),
      e < 12
      ∧ (s.dev.refState e = 1 ∨ s.dev.refState e = 2 ∨ s.dev.refState e = 3)
      ∧ (s.dev.advanceTo t0).refLost e = true
      ∧ s.dev.rd Reg.DPLL_CTRL_FORCE_REF pDPLL < 12) ∧
    (∃ (e : Nat) (s : State),
      e < 12
      ∧ s.dev.rd Reg.REF_CTRL_EN (pREF e) = 1
      ∧ s.dev.rd Reg.REF_CTRL_TYPE (pREF e) = 3
      ∧ s.dev.rd Reg.DPLL_CTRL_FORCE_REF pDPLL < 12) ∧
    (∃ (e : Nat) (t0 : Nat) (s : State),
      e < 12
      ∧ s.dev.rd Reg.REF_CTRL_EN (pREF e) = 1
      ∧ s.dev.rd Reg.REF_CTRL_TYPE (pREF e) = 3
      ∧ (s.dev.refSt e).esmcAt + 5000000000 ≤ (s.dev.advanceTo t0).now
      ∧ s.dev.rd Reg.DPLL_CTRL_FORCE_REF pDPLL < 12) ∧
    (∃ (i : Nat) (pin : Nat),
      i < 8
      ∧ pin < 4) ∧
    (∃ (t0 : Nat) (e : Nat) (s : State),
      t0 % 1000000000 = 0
      ∧ e < 12
      ∧ s.dev.rd Reg.DPLL_CTRL_FORCE_REF pDPLL < 12) ∧
    (∃ (t0 : Nat) (m : RefMeas) (s : State),
      t0 % 1000000000 = 0
      ∧ m.entry < 12
      ∧ s.dev.refState m.entry ≠ 0
      ∧ s.dev.refState m.entry ≠ 4
      ∧ (s.dev.refSt m.entry).from_ + 1000000000 ≤ t0) ∧
    (∃ (w : Nat) (s : State),
      s.dev.holds w pDPLL = true) :=
  ⟨⟨5, 7, mk (refd 1 2), by decide +kernel⟩,
   ⟨5, mk (refd 3 2), by decide +kernel⟩,
   ⟨5, 7000000000, mk (refd 3 2), by decide +kernel⟩,
   ⟨7, 3, by decide +kernel⟩,
   ⟨10000000000, 5, mk (refd 3 2), by decide +kernel⟩,
   ⟨1000000000, ⟨5,-3,4,6,5⟩, mk (refd 3 2), by decide +kernel⟩,
   ⟨0x10, mk (own (base.wr Reg.DPLL_STATUS_STATE pDPLL 3) pDPLL 0x10), by decide +kernel⟩⟩

theorem applies_LanesReportTheirDetectors :
    (∃ (g : Nat) (s : State),
      s.dev.detects g = true
      ∧ s.dev.rd Reg.LN_STAT_LOS (lanePage g) = 0
      ∧ s.dev.lnMode g ≠ 4) ∧
    (∃ (g : Nat) (s : State),
      s.dev.detects g = true
      ∧ s.dev.lnMode g ≠ 4) ∧
    (∃ (g : Nat) (ppm : Int) (s : State),
      s.dev.detects g = true
      ∧ ppm.natAbs ≤ 500
      ∧ s.dev.rd Reg.LN_STAT_LOS (lanePage g) = 0) ∧
    (∃ (g : Nat) (s : State),
      s.dev.detects g = true
      ∧ s.dev.lnMode g = 1) ∧
    (∃ (g : Nat) (rate : Nat) (frac : Nat) (s : State),
      s.dev.detects g = true
      ∧ s.dev.lnMode g = 2
      ∧ s.dev.rd Reg.LN_STAT_LOS (lanePage g) = 0
      ∧ s.dev.rd Reg.LN_STAT_LOL (lanePage g) = 0
      ∧ 1 ≤ rate
      ∧ rate ≤ 5
      ∧ (s.dev.lnRate g = 0 ∨ (s.dev.lnRate g = rate ∧ s.dev.rd Reg.LN_CFG_SDI_FRAC (lanePage g) = frac % 2))) ∧
    (∃ (g : Nat) (s : State),
      s.dev.detects g = true
      ∧ s.dev.rd Reg.LN_STAT_SYNC (lanePage g) = 1) ∧
    (∃ (r : Nat) (p : Nat × Nat) (x : Nat × Nat × Nat × Nat) (s : State),
      r < 8
      ∧ s.dev.active r = true
      ∧ s.dev.adaptLane r p = some x) ∧
    (∃ (g : Nat) (t0 : Nat) (c : Nat) (s : State),
      g < 128
      ∧ (s.dev.lane g).clear = some c
      ∧ s.dev.isEth (g / 16) (g % 16) = true
      ∧ s.dev.rd Reg.LN_STAT_PORT_UP (lanePage g) = 0
      ∧ c + s.dev.rd Reg.LN_PORT_UP_HOLD (lanePage g) * 10000000 ≤ (s.dev.advanceTo t0).now) :=
  ⟨⟨127, mk (laned 127 1), by decide +kernel⟩,
   ⟨127, mk (laned 127 1), by decide +kernel⟩,
   ⟨127, -99, mk ((laned 127 1).wr Reg.LN_STAT_LOL (lanePage 127) 1), by decide +kernel⟩,
   ⟨127, mk (laned 127 1), by decide +kernel⟩,
   ⟨127, 5, 1, mk (laned 127 2), by decide +kernel⟩,
   ⟨127, mk ((laned 127 1).wr Reg.LN_STAT_SYNC (lanePage 127) 1), by decide +kernel⟩,
   ⟨7, (15, 0x4040404030000), (127, 2, 0x0110, withCodes 0x0110 (adapted 0x0110 0x4040404030000)), mk eqd, by decide +kernel⟩,
   ⟨127, 12000000000, 3, mk {laned 127 1 with lanes := [(127, {LaneSt.init with clear := some 3})]}, by decide +kernel⟩⟩

theorem applies_LegacyLinkWidths :
    (∃ (p : Nat) (s : State),
      s.dev.llMode = true
      ∧ s.dev.cl4On = false
      ∧ s.dev.llWidth ≠ 3
      ∧ (p = 1 ∨ p = 2)) ∧
    (∃ (us : Nat) (s : State),
      s.dev.leg.sent ≠ none
      ∧ s.dev.leg.rcvd = none
      ∧ 8 ≤ us) ∧
    (∃ (ms : Nat) (s : State),
      s.dev.llSends = true
      ∧ s.dev.cl4On = false
      ∧ (s.dev.llWidth = 1 ∨ s.dev.llWidth = 2)
      ∧ 1000 ≤ ms
      ∧ (∀ g, 11 ≤ g → g ≤ 14 → s.dev.laneFailed g = false)) ∧
    (∃ (groups : Nat) (s : State),
      s.dev.llSends = true
      ∧ 1024 ≤ groups
      ∧ s.dev.llWidth = 3
      ∧ (∀ g, 11 ≤ g → g ≤ 14 → s.dev.laneFailed g = false)
      ∧ s.dev.rd Reg.LN_STAT_LOS (lanePage 15) = 0
      ∧ s.dev.rd Reg.LN_STAT_LOL (lanePage 15) = 0) :=
  ⟨⟨2, mk {lld 0 with leg := {LegSt.init with sent := some 2}}, by decide +kernel⟩,
   ⟨8, mk {lld 0 with leg := {LegSt.init with sent := some 1}}, by decide +kernel⟩,
   ⟨1000, mk (lld 2), ⟨by decide +kernel, by decide +kernel, by decide +kernel, by decide +kernel, lanes_11_to_14 (by decide +kernel)⟩⟩,
   ⟨1024, mk (lld 3), ⟨by decide +kernel, by decide +kernel, by decide +kernel, lanes_11_to_14 (by decide +kernel), by decide +kernel, by decide +kernel⟩⟩⟩

theorem applies_LegacyLinkFrames :
    (∃ (bytes : List Byte) (s : State),
      s.dev.llMode = true
      ∧ s.dev.cl4On = false
      ∧ s.dev.llWidth ≠ 3
      ∧ 8 ≤ bytes.length
      ∧ (let b := bytes.map (fun x => x.toNat); b.drop (b.length - 4) = leBytes 4 (crc32c (b.take (b.length - 4))))) ∧
    (∃ (m : Nat) (ts : List (List Byte)) (s : State),
      let c := s.dev.rd Reg.LL_MAP_CHANNEL ll11 m
      s.dev.llSends = true
      ∧ s.dev.cl4On = false
      ∧ (∀ p, p ∈ ts → p.length = 188)
      ∧ m < 8
      ∧ s.dev.rd Reg.LL_MAP_EN ll11 m = 1
      ∧ s.dev.live c = true
      ∧ s.dev.chGen c = s.dev.rd Reg.LL_MAP_GEN ll11 m
      ∧ s.dev.lead c = 0
      ∧ (let e := cfR (s.dev.chan c).cfg (s.dev.rd Reg.LL_MAP_RENDITION ll11 m) Reg.OUT_CTRL_ENCAP; e = 1 ∨ e = 2)
      ∧ 1 ≤ ts.length
      ∧ ts.length ≤ 7
      ∧ s.dev.leg.queue = []) ∧
    (∃ (m : Nat) (t0 : Nat) (p : List Byte) (x : Nat × Nat × TsPkt) (s : State),
      s.dev.llSends = true
      ∧ s.dev.cl4On = true
      ∧ p.length = 188
      ∧ s.dev.llWidth ≠ 3
      ∧ m < 4
      ∧ s.dev.tsNext (4 + m) m = some x
      ∧ x.1 ≤ (s.dev.advanceTo t0).now
      ∧ x.2.2.headOf (p.map (fun y => y.toNat)) = true) :=
  ⟨⟨[1#8,2#8,3#8,4#8] ++ (leBytes 4 (crc32c [1,2,3,4])).map (BitVec.ofNat 8), mk (lld 0), by decide +kernel⟩,
   ⟨7, [ts1,ts1], mk llmap, by dsimp only; decide +kernel⟩,
   ⟨3, 7, tsPat, (5, 0, patPkt), mk lltsd, by decide +kernel⟩⟩

theorem applies_StoresRunInOrder :
    (∃ (rec_ : Nat) (body : List Byte) (s : State),
      2 ≤ rec_
      ∧ rec_ ≤ 4
      ∧ s.dev.nvm.running = none
      ∧ s.dev.nvm.queue = []
      ∧ s.dev.nvm.pfail = false
      ∧ s.dev.enough (storeSize rec_ body.length).1 (storeSize rec_ body.length).2 = true) ∧
    (∃ (t0 : Nat) (j : StoreJob) (rest : List StoreJob) (s : State),
      s.dev.nvm.running = none
      ∧ s.dev.nvm.queue = j :: rest
      ∧ 2 ≤ j.record
      ∧ j.record ≤ 4
      ∧ j.deferred = true
      ∧ s.dev.nvm.pfail = false
      ∧ s.dev.enough j.sectors j.bytes = true
      ∧ s.dev.nvm.checkAt + 100000000 ≤ (s.dev.advanceTo t0).now) ∧
    (∃ (j : StoreJob) (s : State),
      s.dev.nvm.running = some j
      ∧ j.record ≠ 5
      ∧ s.dev.nvm.queue = []
      ∧ s.dev.nvm.buf.length < 63) ∧
    (∃ (j : StoreJob) (s : State),
      s.dev.nvm.running = some j
      ∧ j.record = 5
      ∧ s.dev.nvm.queue = []
      ∧ s.dev.nvm.buf.length < 63) ∧
    (∃ (s : State),
      s.dev.nvm.pfail = true) ∧
    (∃ (raw : Nat),
      raw < 4096) :=
  ⟨⟨2, [1#8,2#8], mk base, by decide +kernel⟩,
   ⟨200000000, ⟨4,[7],1,16,true,[]⟩, [⟨2,[7],1,16,false,[]⟩], mk (nord (fun n => {n with queue := [⟨4,[7],1,16,true,[]⟩, ⟨2,[7],1,16,false,[]⟩], checkAt := 5})), by decide +kernel⟩,
   ⟨⟨4,[7],1,16,true,[]⟩, mk (nord (fun n => {n with running := some ⟨4,[7],1,16,true,[]⟩, buf := [logE 1 2], bufAt := [4]})), by decide +kernel⟩,
   ⟨⟨5,[],1,16,true,[logE 1 2]⟩, mk (nord (fun n => {n with running := some ⟨5,[],1,16,true,[logE 1 2]⟩})), by decide +kernel⟩,
   ⟨mk (nord (fun n => {n with pfail := true, queue := [⟨4,[7],1,16,true,[]⟩]})), by decide +kernel⟩,
   ⟨4095, by decide +kernel⟩⟩

theorem applies_FaultLogCommands :
    (∃ (w : Nat) (tag : Nat) (e : LogEntry) (s : State),
      s.dev.holds w pNVM = true
      ∧ tag < 256
      ∧ s.dev.logFind (s.dev.rd Reg.NVM_LOG_RSEQ pNVM) = some e) ∧
    (∃ (w : Nat) (tag : Nat) (s : State),
      s.dev.holds w pNVM = true
      ∧ tag < 256
      ∧ s.dev.logFind (s.dev.rd Reg.NVM_LOG_RSEQ pNVM) = none) ∧
    (∃ (w : Nat) (tag : Nat) (s : State),
      s.dev.holds w pNVM = true
      ∧ tag < 256
      ∧ s.dev.nvm.running = none
      ∧ s.dev.nvm.queue = []
      ∧ s.dev.nvm.buf ≠ []
      ∧ s.dev.nvm.pfail = false
      ∧ s.dev.enough 1 (56 + 64 * min 63 (s.dev.nvm.buf.length + s.dev.nvm.pfailLog.length)) = true) ∧
    (∃ (t0 : Nat) (x : LogEntry × Nat) (s : State),
      x ∈ s.dev.nvm.buf.zip s.dev.nvm.bufAt
      ∧ 2 ≤ x.1.sev
      ∧ x.2 + 1000000000 ≤ (s.dev.advanceTo t0).now
      ∧ s.dev.nvm.running = none
      ∧ s.dev.nvm.queue = []
      ∧ s.dev.nvm.pfail = false
      ∧ s.dev.enough 1 (56 + 64 * min 63 (s.dev.nvm.buf.length + s.dev.nvm.pfailLog.length)) = true) ∧
    (∃ (r : Nat) (hour : Nat) (s : State),
      r < 8
      ∧ tget s.dev.nvm.sevCnt r (0, 0) ≠ tget s.dev.nvm.sumSeen r (0, 0)
      ∧ (tget? s.dev.nvm.sumHour r).all (fun h => h < hour) = true
      ∧ s.dev.nvm.buf.length < 256) :=
  ⟨⟨1, 255, logE 0 2, mk (own (nord (fun n => {n with buf := [logE 0 2], bufAt := [4]})) pNVM 1), by decide +kernel⟩,
   ⟨1, 255, mk (own (nord (fun n => {n with buf := [logE 3 2], bufAt := [4]})) pNVM 1), by decide +kernel⟩,
   ⟨1, 255, mk (own (nord (fun n => {n with buf := [logE 3 2], bufAt := [4]})) pNVM 1), by decide +kernel⟩,
   ⟨1000000004, (logE 3 2, 4), mk (nord (fun n => {n with buf := [logE 2 0, logE 3 2], bufAt := [3,4]})), by decide +kernel⟩,
   ⟨7, 5, mk (nord (fun n => {n with sevCnt := [(7,(3,2))], buf := [logE 3 2], bufAt := [4]})), by decide +kernel⟩⟩

theorem applies_GlumeAnswers :
    (∃ (w : Nat) (s : State),
      s.dev.holds w pGLUME = true
      ∧ s.otp.custKey = none) ∧
    (∃ (w : Nat) (s : State),
      s.dev.holds w pGLUME = true
      ∧ s.otp.custKey ≠ none) ∧
    (∃ (tag : Nat) (s : State),
      s.dev.bootWaits = true
      ∧ s.dev.pageAnswers 1 pGLUME = true
      ∧ tag < 256
      ∧ s.dev.rdPair Reg.GL_BOOT_ADDR_LO Reg.GL_BOOT_ADDR_HI pGLUME % 0x1000 = 0) ∧
    (∃ (t0 : Nat) (s : State),
      (s.dev.advanceTo t0).soloDue = true) :=
  ⟨⟨1, mk (own base pGLUME 1), by decide +kernel⟩,
   ⟨1, {mk (own base pGLUME 1) with otp := {State.reset.otp with custKey := some [1,2]}}, by decide +kernel⟩,
   ⟨255, mk {base with sys := {base.sys with booted := false, admOpen := false, mediaOk := false, elected := false, bootFails := [0,1,2,3,4,5,6,7,8,9,10,11,12,13,14,15]}}, by decide +kernel⟩,
   ⟨2000000000, mk {base with sys := {base.sys with hostSeen := false, firstElect := some 0}}, by decide +kernel⟩⟩

theorem applies_MemoryHoldsWhatIsWritten :
    (∃ (r : Nat) (q : Nat) (desc : Nat) (addr : Nat) (data : List Byte) (s : State),
      s.dev.active r = true
      ∧ s.dev.bufStops r q desc addr data.length false = false
      ∧ s.dev.queueRoom r (cwList addr data.length) = true) ∧
    (∃ (r : Nat) (q : Nat) (desc : Nat) (addr : Nat) (data : List Byte) (s : State),
      (s.dev.bufStops r q desc addr data.length false = true ∨ s.dev.queueRoom r (cwList addr data.length) = false)) ∧
    (∃ (h : Nat) (off : Nat) (data : List Byte) (s : State),
      let r := s.dev.rd Reg.BAR2_APER_REGION (aperPage h)
      let a := s.dev.rd Reg.BAR2_APER_BASE_GIB (aperPage h) * 2 ^ 30 + off
      h < 2
      ∧ s.dev.portUp h = true
      ∧ off + data.length ≤ 2 ^ 36
      ∧ s.dev.answers r = true
      ∧ (¬ (s.dev.sys.mode = 2 ∧ r = 0))
      ∧ s.dev.queueRoom r (cwList a data.length) = true) ∧
    (∃ (r : Nat) (p : Nat) (q : Nat) (desc : Nat) (addr : Nat) (len : Nat) (s : State),
      s.dev.active r = true
      ∧ s.dev.bufStops r q desc addr len true = false
      ∧ s.dev.portFor r addr = some p
      ∧ (s.dev.mp r p).reads = []
      ∧ (s.dev.mp r p).drain = none
      ∧ (∀ x, x ∈ cwList addr len → ∃ p, s.dev.portFor r x.1 = some p ∧ tget? (s.dev.mp r p).bad x.1 = none ∧ x.1 ∉ (s.dev.mp r p).dirty)) ∧
    (∃ (r : Nat) (p : Nat) (q : Nat) (desc : Nat) (addr : Nat) (len : Nat) (lo : Nat) (s : State),
      s.dev.active r = true
      ∧ s.dev.bufStops r q desc addr len true = false
      ∧ 4 ≤ q
      ∧ s.dev.portFor r addr = some p
      ∧ (s.dev.mp r p).reads = []
      ∧ (s.dev.mp r p).drain = some lo
      ∧ (s.dev.mp r p).panic.contains q = false
      ∧ (∃ x, x ∈ cwList addr len ∧ ∀ y, y ∈ (s.dev.mp r p).queue → y.1 ≠ x.1)) ∧
    (∃ (h : Nat) (off : Nat) (len : Nat) (s : State),
      let r := s.dev.rd Reg.BAR2_APER_REGION (aperPage h)
      let a := s.dev.rd Reg.BAR2_APER_BASE_GIB (aperPage h) * 2 ^ 30 + off
      h < 2
      ∧ s.dev.portUp h = true
      ∧ off + len ≤ 2 ^ 36
      ∧ s.dev.answers r = true
      ∧ (∀ x, x ∈ cwList a len → ∃ p, s.dev.portFor r x.1 = some p ∧ tget? (s.dev.mp r p).bad x.1 = none ∧ x.1 ∉ (s.dev.mp r p).dirty)) :=
  ⟨⟨3, 5, 0, 0x100000001E, [1#8,2#8,3#8,0#8], {mk (memd 2) with ram := [(ramKey 3 0x1000000021, 9)]}, by decide +kernel⟩,
   ⟨3, 12, 0, 0x1E, [1#8,2#8,3#8,0#8], mk (memd 2), by decide +kernel⟩,
   ⟨1, 0x1E, [1#8,2#8,3#8], {mk (((memd 2).wr Reg.BAR2_APER_REGION (aperPage 1) 3).wr Reg.BAR2_APER_BASE_GIB (aperPage 1) 64) with ram := [(ramKey 3 0x100000001F, 9)]}, by dsimp only; decide +kernel⟩,
   ⟨3, 2, 5, 0, 0x100000001E, 5, {mk (memd 2) with ram := [(ramKey 3 0x1000000021, 9)]}, ⟨by decide +kernel, by decide +kernel, by decide +kernel, by decide +kernel, by decide +kernel, fun x h => ⟨2, (by decide +kernel : ∀ x, x ∈ cwList 0x100000001E 5 → (memd 2).portFor 3 x.1 = some 2 ∧ tget? ((memd 2).mp 3 2).bad x.1 = none
      ∧ x.1 ∉ ((memd 2).mp 3 2).dirty) x h⟩⟩⟩,
   ⟨3, 2, 5, 0, 0x100000001E, 5, 16, mk (memx 2 {MpSt.init with drain := some 16}), by decide +kernel⟩,
   ⟨1, 0x1E, 5, {mk (((memd 2).wr Reg.BAR2_APER_REGION (aperPage 1) 3).wr Reg.BAR2_APER_BASE_GIB (aperPage 1) 64) with ram := [(ramKey 3 0x100000001F, 9)]}, by dsimp only; decide +kernel⟩⟩

theorem applies_QueuesAndRefresh :
    (∃ (r : Nat) (p : Nat) (x : Nat × Nat) (s : State),
      s.dev.portIn r p = true
      ∧ s.dev.nextWrite r p = some x) ∧
    (∃ (r : Nat) (p : Nat) (clks : Nat) (s : State),
      s.dev.portIn r p = true
      ∧ s.dev.rd Reg.MP_PAGE_IDLE_CLKS (mpPage r p) ≤ clks) ∧
    (∃ (r : Nat) (p : Nat) (blocked : Bool) (s : State),
      s.dev.portIn r p = true
      ∧ ((s.dev.mp r p).panic = [] ∨ (blocked = false ∧ (s.dev.mp r p).owed < 64))) ∧
    (∃ (r : Nat) (p : Nat) (s : State),
      s.dev.portIn r p = true
      ∧ (s.dev.mp r p).panic ≠ []
      ∧ (s.dev.mp r p).owed < 64) ∧
    (∃ (r : Nat) (p : Nat) (s : State),
      s.dev.portIn r p = true
      ∧ (s.dev.mp r p).panic ≠ []
      ∧ 64 ≤ (s.dev.mp r p).owed) ∧
    (∃ (r : Nat) (p : Nat) (s : State),
      s.dev.portIn r p = true
      ∧ (s.dev.mp r p).panic = []
      ∧ (s.dev.mp r p).owed ≠ 0) ∧
    (∃ (r : Nat) (p : Nat) (s : State),
      s.dev.portIn r p = true) :=
  ⟨⟨3, 2, (0x1000000000,5), mk (memx 2 {MpSt.init with queue := [(0x1000000000,5),(0x1000000020,5)]}), by decide +kernel⟩,
   ⟨3, 2, 1023, mk (memx 2 {MpSt.init with rows := [(7,9)]}), by decide +kernel⟩,
   ⟨3, 2, true, mk (memx 2 MpSt.init), by decide +kernel⟩,
   ⟨3, 2, mk (memx 2 {MpSt.init with panic := [1], owed := 63}), by decide +kernel⟩,
   ⟨3, 2, mk (memx 2 {MpSt.init with panic := [1], owed := 64, rows := [(3,4)]}), by decide +kernel⟩,
   ⟨3, 2, mk (memx 2 {MpSt.init with owed := 9, rows := [(3,4)]}), by decide +kernel⟩,
   ⟨3, 2, mk (memd 2), by decide +kernel⟩⟩

theorem applies_MemoryErrorsContained :
    (∃ (r : Nat) (p : Nat) (stripe : Nat) (s : State),
      s.dev.portIn r p = true
      ∧ s.dev.active r = true
      ∧ s.dev.rd Reg.MP_SCRUB_PERIOD_H (mpPage r p) ≠ 0
      ∧ (s.dev.mp r p).queue.length < s.dev.rd Reg.MP_WQ_LO (mpPage r p)
      ∧ stripe < s.dev.rd Reg.MP_CAP_DATA_MIB (mpPage r p) * 4096
      ∧ (s.dev.arb r p).reqs = []
      ∧ (s.dev.mp r p).reads = []
      ∧ (∀ i, i < 8 → tget? (s.dev.mp r p).bad (p * 0x800000000 + stripe * 256 + i * 32) = none)
      ∧ (∀ x, x ∈ (s.dev.mp r p).queue → x.1 ≠ p * 0x800000000 + stripe * 256)) ∧
    (∃ (w : Nat) (r : Nat) (p : Nat) (v : Nat) (s : State),
      r < 8
      ∧ p < 4
      ∧ s.dev.holds w (mpPage r p) = true
      ∧ s.dev.raMode r = 2
      ∧ bitOf v 31 = true) ∧
    (∃ (w : Nat) (r : Nat) (v : Nat) (s : State),
      r < 8
      ∧ s.dev.holds w (blk r ixRGN) = true
      ∧ s.dev.raMode r = 2
      ∧ bitOf v 31 = true) ∧
    (∃ (r : Nat) (sram : Nat) (s : State),
      r < 8
      ∧ s.dev.active r = true
      ∧ sram < 4) ∧
    (∃ (r : Nat) (f : Nat) (q : QPkt) (rest : List QPkt) (s : State),
      r < 8
      ∧ f < 2048
      ∧ s.dev.active r = true
      ∧ (s.dev.flow r f).queue = q :: rest) ∧
    (∃ (r : Nat) (idx : Nat) (s : State),
      r < 8
      ∧ idx < 4096
      ∧ s.dev.active r = true) :=
  ⟨⟨3, 2, 5, mk (memd 2), by decide +kernel⟩,
   ⟨1, 3, 2, 0x80000305, mk (own ((memd 2).wr Reg.RA_MODE_MODE (blk 3 ixRACHIS) 2) (mpPage 3 2) 1), by decide +kernel⟩,
   ⟨1, 3, 0x80000102, mk (own ((memd 2).wr Reg.RA_MODE_MODE (blk 3 ixRACHIS) 2) (blk 3 ixRGN) 1), by decide +kernel⟩,
   ⟨3, 2, mk base, by decide +kernel⟩,
   ⟨3, 2047, ⟨0,0,5,0,100,false,false,0,0,none,.nal 0⟩, [], mk {base with flows := [(slotKey 3 2047, {Flow.init with queue := [⟨0,0,5,0,100,false,false,0,0,none,.nal 0⟩]})]}, by decide +kernel⟩,
   ⟨3, 4095, mk base, by decide +kernel⟩⟩

theorem applies_PortsTrainAndRetrain :
    (∃ (r : Nat) (p : Nat) (s : State) (o : TrainOutcome),
      r < 8
      ∧ p < 4
      ∧ (s.dev.region r).core = .run
      ∧ s.dev.rd Reg.MP_STATE_STATE (mpPage r p) = 1
      ∧ s.dev.populated r p = true
      ∧ (o = .pass ∨ o = .marginal)) ∧
    (∃ (r : Nat) (p : Nat) (s : State),
      r < 8
      ∧ p < 4
      ∧ (s.dev.region r).core = .run
      ∧ s.dev.rd Reg.MP_STATE_STATE (mpPage r p) = 1
      ∧ s.dev.populated r p = true
      ∧ s.dev.rd Reg.MP_CAP_DATA_MIB (mpPage r p) ≠ 0) ∧
    (∃ (r : Nat) (p : Nat) (s : State) (o : TrainOutcome) (code : Nat),
      r < 8
      ∧ p < 4
      ∧ (s.dev.region r).core = .run
      ∧ s.dev.rd Reg.MP_STATE_STATE (mpPage r p) = 1
      ∧ s.dev.populated r p = true
      ∧ ((o = .noSetting ∧ code = 0x40) ∨ (o = .noResponse ∧ code = 0x41) ∨ (o = .configMismatch ∧ code = 0x42))) ∧
    (∃ (r : Nat) (p : Nat) (s : State),
      r < 8
      ∧ p < 4
      ∧ (s.dev.region r).core = .run
      ∧ s.dev.rd Reg.MP_STATE_STATE (mpPage r p) = 1
      ∧ s.dev.populated r p = false) ∧
    (∃ (r : Nat) (p : Nat) (s : State),
      s.dev.rd Reg.MP_STATE_STATE (mpPage r p) = 2) ∧
    (∃ (r : Nat) (p : Nat) (s : State),
      s.dev.rd Reg.MP_STATE_STATE (mpPage r p) = 3) ∧
    (∃ (r : Nat) (p : Nat) (s : State),
      s.dev.rd Reg.MP_STATE_STATE (mpPage r p) = 3
      ∧ (s.dev.mp r p).panic = []
      ∧ (∀ x, (s.dev.mp r p).stepAt = some x ∨ (s.dev.mp r p).forcedAt = some x → x / s.dev.tRefi r p ≠ s.dev.now / s.dev.tRefi r p)) ∧
    (∃ (r : Nat) (p : Nat) (s : State),
      r < 8
      ∧ p < 4
      ∧ s.dev.rd Reg.MP_STATE_STATE (mpPage r p) = 3
      ∧ (s.dev.mp r p).panic = []) ∧
    (∃ (r : Nat) (p : Nat) (t0 : Nat) (at_ : Nat) (s : State),
      s.dev.active r = true
      ∧ s.dev.rd Reg.MP_STATE_STATE (mpPage r p) = 4
      ∧ s.dev.raMode r = 1
      ∧ s.dev.populated r p = true
      ∧ (s.dev.mp r p).next = some at_
      ∧ at_ ≤ (s.dev.advanceTo t0).now) :=
  ⟨⟨3, 2, mk (memd 1), .pass, by decide +kernel⟩,
   ⟨3, 2, {mk (memd 1) with ram := [(ramKey 3 0x1000000021, 9)]}, by decide +kernel⟩,
   ⟨3, 2, {mk (memd 1) with ram := [(ramKey 3 0x21, 9)]}, .noResponse, 0x41, by decide +kernel⟩,
   ⟨3, 2, mk {memd 1 with nvm := {(memd 1).nvm with board := some (List.replicate 1024 0)}}, by decide +kernel⟩,
   ⟨3, 2, mk (memd 2), by decide +kernel⟩,
   ⟨3, 2, mk (memd 3), by decide +kernel⟩,
   ⟨3, 2, mk ((memx 3 {MpSt.init with stepAt := some 3}).advanceTo 8000), ⟨by decide +kernel, by decide +kernel, fun x h => by
      have h1 : ((memx 3 {MpSt.init with stepAt := some 3}).advanceTo 8000 |>.mp 3 2).stepAt = some 3 := by decide +kernel
      have h2 : ((memx 3 {MpSt.init with stepAt := some 3}).advanceTo 8000 |>.mp 3 2).forcedAt = none := by decide +kernel
      rcases h with h | h
      · cases h1.symm.trans h; decide +kernel
      · cases h2.symm.trans h⟩⟩,
   ⟨3, 2, mk (memd 3), by decide +kernel⟩,
   ⟨3, 2, 7, 5, mk ((memx 4 {MpSt.init with next := some 5}).wr Reg.RA_MODE_MODE (blk 3 ixRACHIS) 1), by decide +kernel⟩⟩

theorem applies_ArbitersGrant :
    (∃ (r : Nat) (tgt : Nat) (q : Nat) (beats : Nat) (s : State),
      s.dev.active r = true
      ∧ tgt < 11
      ∧ q < reqCount tgt
      ∧ 1 ≤ beats
      ∧ beats ≤ 4
      ∧ (∀ y, y ∈ (s.dev.arb r tgt).reqs → y.1 ≠ q)
      ∧ (tgt < 8 → s.dev.rd Reg.CU_REQ_SIDEBAND (cuPage r) q ≠ 1 ∧ s.dev.rd Reg.CU_REQ_FENCED (cuPage r) q ≠ 1)) ∧
    (∃ (r : Nat) (tgt : Nat) (cyc : Nat) (y : Nat × Nat × Nat) (lw : Bool) (s : State),
      s.dev.active r = true
      ∧ tgt < 11
      ∧ (s.dev.arb r tgt).busy cyc = false
      ∧ s.dev.chooseReq r tgt cyc ((s.dev.arb r tgt).reqs.filter (fun y => decide (y.2.2 < cyc) && !(s.dev.maskedAt r tgt y.1))) = some (y, lw)) ∧
    (∃ (r : Nat) (tgt : Nat) (cyc : Nat) (s : State),
      s.dev.active r = true
      ∧ tgt < 11
      ∧ (s.dev.arb r tgt).busy cyc = false
      ∧ (s.dev.arb r tgt).reqs = []) ∧
    (∃ (r : Nat) (tgt : Nat) (cyc : Nat) (q : Nat) (b : Nat) (at_ : Nat) (s : State),
      s.dev.active r = true
      ∧ tgt < 8
      ∧ (s.dev.arb r tgt).owner = some (q, b, at_)
      ∧ q < 29
      ∧ at_ + 64 ≤ cyc) ∧
    (∃ (r : Nat) (p : Nat) (cls : Nat) (s : State),
      s.dev.active r = true
      ∧ p < 3
      ∧ cls < 4
      ∧ noLink r p = false) ∧
    (∃ (r : Nat) (tgt : Nat) (cyc : Nat) (s : State),
      s.dev.active r = true
      ∧ tgt < 11
      ∧ cyc % 256 = 0) ∧
    (∃ (cyc : Nat),
      cyc % 256 ≠ 0) :=
  ⟨⟨3, 7, 28, 4, mk base, by decide +kernel⟩,
   ⟨3, 7, 9, (5,2,4), false, mk {base with arbs := [(55, {Arb.init with reqs := [(5,2,4),(6,1,4)]})]}, by decide +kernel⟩,
   ⟨3, 8, 9, mk base, by decide +kernel⟩,
   ⟨3, 7, 73, 5, 2, 9, mk {base with arbs := [(55, {Arb.init with owner := some (5,2,9), credit := [(5,-2)]})]}, by decide +kernel⟩,
   ⟨2, 1, 3, mk {base with arbs := [(41, {Arb.init with flits := [(3,200)]})]}, by decide +kernel⟩,
   ⟨3, 7, 512, mk {base with arbs := [(55, {Arb.init with reqs := [(5,2,4)], used := [(2,9)], credit := [(5,-100),(6,60)]})]}, by decide +kernel⟩,
   ⟨511, by decide +kernel⟩⟩

theorem applies_CommitsReachTheirPoints :
    (∃ (w : Nat) (r : Nat) (p : Nat) (id : Nat) (v : Nat) (pre : Tbl Nat) (post : Tbl Nat) (s : State),
      r < 8
      ∧ p < 4
      ∧ s.dev.holds w (mpPage r p) = true
      ∧ id < 256
      ∧ (∀ x, tget? s.dev.pend (mpPage r p) = some x → x.kind ≠ 4 ∨ s.dev.now < x.tb)
      ∧ s.dev.comCheck (mpPage r p) 0 (s.dev.comVals (mpPage r p)) = 0
      ∧ s.dev.comVals (mpPage r p) = pre ++ (Reg.MP_WQ_LO.key (mpPage r p) 0, v) :: post
      ∧ (∀ e, e ∈ post → e.1 ≠ Reg.MP_WQ_LO.key (mpPage r p) 0)) ∧
    (∃ (w : Nat) (page : Nat) (chan : Nat) (id : Nat) (i : Instr) (s : State),
      (i = .commitFrame w page chan id ∨ i = .commitSlice w page chan id)
      ∧ s.dev.holds w page = true
      ∧ (∀ x, tget? s.dev.pend page = some x → x.kind ≠ 4 ∨ s.dev.now < x.tb)) ∧
    (∃ (w : Nat) (r : Nat) (id : Nat) (s : State),
      r < 8
      ∧ s.dev.holds w (blk r ixEGRESS) = true
      ∧ id < 256
      ∧ (∀ x, tget? s.dev.pend (blk r ixEGRESS) = some x → x.kind ≠ 4 ∨ s.dev.now < x.tb)
      ∧ s.dev.comCheck (blk r ixEGRESS) 3 (s.dev.comVals (blk r ixEGRESS)) = 0) ∧
    (∃ (w : Nat) (page : Nat) (id : Nat) (s : State),
      s.dev.holds w page = true
      ∧ id < 256
      ∧ (∀ x, tget? s.dev.pend page = some x → x.kind ≠ 4 ∨ s.dev.now < x.tb)
      ∧ s.dev.comCheck page 4 (s.dev.comVals page) = 0) ∧
    (∃ (r : Nat) (p : Nat) (t0 : Nat) (x : Pend) (s : State),
      r < 8
      ∧ p < 4
      ∧ tget? s.dev.pend (mpPage r p) = some x
      ∧ x.kind = 4
      ∧ x.tb ≤ (s.dev.advanceTo t0).now
      ∧ x.id < 256) ∧
    (∃ (page : Nat) (t0 : Nat) (x : Pend) (s : State),
      tget? s.dev.pend page = some x
      ∧ (x.kind ≠ 4 ∨ (s.dev.advanceTo t0).now < x.tb)) ∧
    (∃ (r : Nat) (p : Nat) (t0 : Nat) (x : Pend) (s : State),
      s.dev.active r = true
      ∧ tget? s.dev.pend (blk r ixEGRESS) = some x
      ∧ x.waiting.contains p = true
      ∧ (s.dev.advanceTo t0).wraps (blk r ixEGRESS) (s.dev.rd Reg.PT_PACE_CYCLE_US (wPT r p) * 1000) = true) ∧
    (∃ (r : Nat) (p : Nat) (t0 : Nat) (x : Pend) (s : State),
      s.dev.active r = true
      ∧ tget? s.dev.pend (blk r ixSTOLON) = some x
      ∧ x.waiting.contains p = true
      ∧ (s.dev.advanceTo t0).wraps (blk r ixSTOLON) 4096 = true) :=
  ⟨⟨1, 3, 2, 255, 20, [], [], mk (((own (memd 2) (mpPage 3 2) 1)).wrS Reg.MP_WQ_LO (mpPage 3 2) 20), ⟨by decide +kernel, by decide +kernel, by decide +kernel, by decide +kernel, (fun _ h => nomatch (show none = some _ from h)), by decide +kernel, by decide +kernel, by decide +kernel⟩⟩,
   ⟨1, pDPLL, 0, 255, .commitSlice 1 pDPLL 0 255, mk (own base pDPLL 1), ⟨by decide +kernel, by decide +kernel, (fun _ h => nomatch (show none = some _ from h))⟩⟩,
   ⟨1, 3, 255, mk ((own base (blk 3 ixEGRESS) 1).wrS Reg.PT_PACE_CYCLE_US (wPT 3 4) 2000), ⟨by decide +kernel, by decide +kernel, by decide +kernel, (fun _ h => nomatch (show none = some _ from h)), by decide +kernel⟩⟩,
   ⟨1, blk 3 ixCULM, 255, mk (((own base (blk 3 ixCULM) 1)).wrS Reg.COMMIT_TB_LO (blk 3 ixCULM) 500), ⟨by decide +kernel, by decide +kernel, (fun _ h => nomatch (show none = some _ from h)), by decide +kernel⟩⟩,
   ⟨3, 2, 500, ⟨9,4,0,500,0,[],[]⟩, mk {memd 2 with pend := [(mpPage 3 2, ⟨9,4,0,500,0,[],[]⟩)]}, by decide +kernel⟩,
   ⟨mpPage 3 2, 499, ⟨9,4,0,500,0,[],[]⟩, mk {memd 2 with pend := [(mpPage 3 2, ⟨9,4,0,500,0,[],[]⟩)]}, by decide +kernel⟩,
   ⟨3, 2, 1000000, ⟨9,3,0,0,5,[],[2,4]⟩, mk {base with pend := [(blk 3 ixEGRESS, ⟨9,3,0,0,5,[],[2,4]⟩)]}, by decide +kernel⟩,
   ⟨3, 1, 4096, ⟨9,3,0,0,5,[],[0,1,2]⟩, mk {base with pend := [(blk 3 ixSTOLON, ⟨9,3,0,0,5,[],[0,1,2]⟩)]}, by decide +kernel⟩⟩

theorem applies_PostsEnterTheStore :
    (∃ (r : Nat) (idx : Nat) (by_ : PostBy) (ds : Desc) (s : State),
      by_ ≠ .window
      ∧ s.dev.active r = true
      ∧ s.dev.posted r by_ = some ds
      ∧ (ds.noch = true ∨ s.dev.genCurrent ds.chan ds.gen = true)
      ∧ s.dev.postStalls r ds = false
      ∧ lowestFree (s.dev.rach r).ents = some idx) ∧
    (∃ (r : Nat) (w : Nat) (idx : Nat) (ds : Desc) (s : State),
      s.dev.holds w (blk r ixRACHIS) = true
      ∧ s.dev.rd Reg.RA_POST_RESULT_BUSY (blk r ixRACHIS) = 0
      ∧ parseDesc (s.dev.raWords r Reg.RA_POST 16) = some ds
      ∧ (ds.noch = true ∨ s.dev.genCurrent ds.chan ds.gen = true)
      ∧ s.dev.postStalls r ds = false
      ∧ lowestFree (s.dev.rach r).ents = some idx) ∧
    (∃ (r : Nat) (w : Nat) (idx : Nat) (ds : Desc) (s : State),
      s.dev.holds w (blk r ixRACHIS) = true
      ∧ isHost w = false
      ∧ idx < 4096
      ∧ s.dev.rd Reg.RA_POST_RESULT_BUSY (blk r ixRACHIS) = 0
      ∧ parseDesc (s.dev.raWords r Reg.RA_POST 16) = some ds
      ∧ (ds.noch = true ∨ s.dev.genCurrent ds.chan ds.gen = true)
      ∧ s.dev.postStalls r ds = false
      ∧ tget? (s.dev.rach r).ents idx = none) ∧
    (∃ (r : Nat) (t0 : Nat) (idx : Nat) (x : Stall) (ds : Desc) (s : State),
      (s.dev.rach r).stalls = [x]
      ∧ x.post = some (ds, none)
      ∧ (ds.noch = true ∨ s.dev.genCurrent ds.chan ds.gen = true)
      ∧ (s.dev.advanceTo t0).postStalls r ds = false
      ∧ lowestFree (s.dev.rach r).ents = some idx) ∧
    (∃ (r : Nat) (s : State),
      s.dev.active r = true
      ∧ s.dev.raMode r = 1
      ∧ s.dev.rd Reg.RA_MODE_REQ_TEST (blk r ixRACHIS) = 1) ∧
    (∃ (w : Nat) (r : Nat) (s : State),
      isHost w = true
      ∧ s.dev.pageAnswers w (blk r ixRACHIS) = true) :=
  ⟨⟨3, 0, .words dscWords, dsc, mk (rachd Rachis.init), by decide +kernel⟩,
   ⟨3, 1, 0, dsc, mk (own (staged (rachd Rachis.init) Reg.RA_POST dscWords) (blk 3 ixRACHIS) 1), by decide +kernel⟩,
   ⟨3, 0x13, 4095, dsc, mk (own (staged (rachd Rachis.init) Reg.RA_POST dscWords) (blk 3 ixRACHIS) 0x13), by decide +kernel⟩,
   ⟨3, 7, 1, ⟨some (dsc, none), none, false, 9, 4, 2⟩, dsc, mk (rachd {Rachis.init with ents := [(0, .retired)], stalls := [⟨some (dsc, none), none, false, 9, 4, 2⟩]}), by decide +kernel⟩,
   ⟨3, mk ((rachd Rachis.init).wr Reg.RA_MODE_REQ_TEST (blk 3 ixRACHIS) 1), by decide +kernel⟩,
   ⟨2, 3, mk (rachd Rachis.init), by decide +kernel⟩⟩

theorem applies_TokensReachTheirSlots :
    (∃ (r : Nat) (tok : Nat) (eff : Nat) (x : Nat × Nat) (rest : List (Nat × Nat)) (ds : Desc) (vals : List (Option (Nat × Nat))) (s : State),
      s.dev.active r = true
      ∧ bitsOf tok 6 4 = 1
      ∧ kindKnown (tok % 64) = true
      ∧ s.dev.genCurrent (keyChan (keyOf tok)) (keyGen (keyOf tok)) = true
      ∧ (s.dev.rach r).openSlots (keyOf tok) = x :: rest
      ∧ tget? (s.dev.rach r).ents x.1 = some (.task ds vals .waiting eff)) ∧
    (∃ (r : Nat) (tok : Nat) (s : State),
      s.dev.active r = true
      ∧ bitsOf tok 6 4 ≠ 0
      ∧ kindKnown (tok % 64) = true
      ∧ s.dev.genCurrent (keyChan (keyOf tok)) (keyGen (keyOf tok)) = true
      ∧ (s.dev.rach r).openSlots (keyOf tok) = []) ∧
    (∃ (r : Nat) (s : State),
      s.dev.active r = true) ∧
    (∃ (r : Nat) (w : Nat) (idx : Nat) (s : State),
      let tok := (s.dev.raWords r Reg.RA_TOKEN 4).foldr (fun x acc => x + acc * 2 ^ 32) 0
      s.dev.holds w (blk r ixRACHIS) = true
      ∧ bitsOf tok 6 4 ≠ 0
      ∧ kindKnown (tok % 64) = true
      ∧ s.dev.genCurrent (keyChan (keyOf tok)) (keyGen (keyOf tok)) = true
      ∧ (s.dev.rach r).openSlots (keyOf tok) = []
      ∧ s.dev.parkStalls r (keyOf tok) = false
      ∧ lowestFree (s.dev.rach r).ents = some idx) ∧
    (∃ (r : Nat) (idx : Nat) (t0 : Nat) (k : Nat) (n : Nat) (v : Nat) (a : Nat) (u : Nat) (o : Nat) (s : State),
      tget? (s.dev.rach r).ents idx = some (.token k n v a u o)
      ∧ u ≤ (s.dev.advanceTo t0).now
      ∧ (s.dev.rach r).stalls = []) ∧
    (∃ (r : Nat) (list : Nat) (x : Nat × Nat) (ds : Desc) (vals : List (Option (Nat × Nat))) (st : TaskAt) (eff : Nat) (s : State),
      x ∈ (s.dev.delayed r list true).take (1024 - (s.dev.delayed r list false).length)
      ∧ tget? (s.dev.rach r).ents x.1 = some (.task ds vals st eff)) :=
  ⟨⟨3, 0x21+64+7*2^96, 1, (4,0), [], dsk, [none], mk (rachd {Rachis.init with ents := [(4, .task dsk [none] .waiting 1)]}), by decide +kernel⟩,
   ⟨3, 0x21+2*64+7*2^96+5*2^64, mk (rachd Rachis.init), by decide +kernel⟩,
   ⟨3, mk (rachd Rachis.init), by decide +kernel⟩,
   ⟨3, 1, 0, mk (own (staged (rachd Rachis.init) Reg.RA_TOKEN [0x21+64,0,0,9]) (blk 3 ixRACHIS) 1), by dsimp only; decide +kernel⟩,
   ⟨3, 4, 7, 0x21, 2, 9, 3, 6, 1, mk (rachd {Rachis.init with ents := [(4, .token 0x21 2 9 3 6 1)]}), by decide +kernel⟩,
   ⟨3, 1, (4,0), dsk, [none], .delayed true, 1, mk (rachd {Rachis.init with ents := [(4, .task dsk [none] (.delayed true) 1)]}), by decide +kernel⟩⟩

theorem applies_CoresAreGivenWork :
    (∃ (r : Nat) (cls : Nat) (inst : Nat) (t0 : Nat) (s : State),
      cls < 7
      ∧ (s.dev.advanceTo t0).instUp r cls inst = true
      ∧ s.dev.busyInst r cls inst = false
      ∧ (s.dev.rach r).reqs = []
      ∧ s.dev.raMode r = 1
      ∧ s.dev.pick r cls inst = none) ∧
    (∃ (r : Nat) (cls : Nat) (inst : Nat) (t0 : Nat) (idx : Nat) (ds : Desc) (vals : List (Option (Nat × Nat))) (st : TaskAt) (eff : Nat) (s : State),
      cls < 7
      ∧ (s.dev.advanceTo t0).instUp r cls inst = true
      ∧ s.dev.busyInst r cls inst = false
      ∧ (s.dev.rach r).reqs = []
      ∧ s.dev.raMode r = 1
      ∧ s.dev.pick r cls inst = some idx
      ∧ tget? (s.dev.rach r).ents idx = some (.task ds vals st eff)) ∧
    (∃ (r : Nat) (inst : Nat) (t0 : Nat) (q : Req) (s : State),
      q ∈ (s.dev.rach r).reqs
      ∧ q.cls = 5
      ∧ q.inst = inst
      ∧ q.since + s.dev.rd Reg.RA_PREEMPT_GW_TIMEOUT (blk r ixRACHIS) * 1000 ≤ (s.dev.advanceTo t0).now) :=
  ⟨⟨3, 5, 3, 7, mk (rachd {Rachis.init with ents := [(4, .task dsk [none] .waiting 1)]}), by decide +kernel⟩,
   ⟨3, 2, 0, 7, 4, dsk, [some (1,2)], .ready 3, 1, mk (rachd {Rachis.init with ents := [(4, .task dsk [some (1,2)] (.ready 3) 1)]}), by decide +kernel⟩,
   ⟨3, 2, 2000000000, ⟨5,2,9,⟨.none,[]⟩⟩, mk (rachd {Rachis.init with reqs := [⟨5,2,9,⟨.none,[]⟩⟩, ⟨5,3,9,⟨.none,[]⟩⟩]}), by decide +kernel⟩⟩

theorem applies_CompletionsEndTasks :
    (∃ (r : Nat) (idx : Nat) (gen : Nat) (inst : Nat) (eff : Nat) (intr : Option Nat) (ds : Desc) (vals : List (Option (Nat × Nat))) (s : State),
      s.dev.active r = true
      ∧ s.dev.entGen r idx = gen
      ∧ tget? (s.dev.rach r).ents idx = some (.task ds vals (.held inst intr) eff)
      ∧ inst < classSize ds.cls) ∧
    (∃ (r : Nat) (idx : Nat) (gen : Nat) (i : Instr) (s : State),
      s.dev.active r = true
      ∧ s.dev.entGen r idx ≠ gen
      ∧ i ∈ [Instr.doneOk r idx gen, .doneFailed r idx gen, .doneRepost r idx gen, .doneYield r idx gen]) ∧
    (∃ (r : Nat) (idx : Nat) (t0 : Nat) (u : Nat) (s : State),
      tget? (s.dev.rach r).ents idx = some (.quar u)
      ∧ u ≤ (s.dev.advanceTo t0).now
      ∧ (s.dev.rach r).stalls = []) :=
  ⟨⟨3, 4, 6, 0, 1, some 3, dsk, [some (1,2)], mk (rachd {Rachis.init with gens := [(4,6)], ents := [(4, .task dsk [some (1,2)] (.held 0 (some 3)) 1)]}), by decide +kernel⟩,
   ⟨3, 4, 5, .doneYield 3 4 5, mk (rachd {Rachis.init with gens := [(4,6)], ents := [(4, .task dsk [some (1,2)] (.held 0 none) 1)]}), by decide +kernel⟩,
   ⟨3, 4, 7, 6, mk (rachd {Rachis.init with ents := [(4, .quar 6)]}), by decide +kernel⟩⟩

theorem applies_FlowCommandsAnswer :
    (∃ (w : Nat) (r : Nat) (f : Nat) (gen : Nat) (s : State),
      let e := (s.dev.restartLease (blk r ixEGRESS)).egressNow r
      let vals := e.takeRows (Reg.rows_flow ++ Reg.rows_shaper) (wFLOW r f)
      let v : Row → Nat := fun row => tget vals (row.key (wFLOW r f) 0) row.reset
      r < 8
      ∧ f < 2048
      ∧ gen < 256
      ∧ s.dev.holds w (blk r ixEGRESS) = true
      ∧ e.flCheck r 1 f gen v = 0) ∧
    (∃ (w : Nat) (r : Nat) (f : Nat) (gen : Nat) (s : State),
      let e := (s.dev.restartLease (blk r ixEGRESS)).egressNow r
      let vals := e.takeRows (Reg.rows_flow ++ Reg.rows_shaper) (wFLOW r f)
      let v : Row → Nat := fun row => tget vals (row.key (wFLOW r f) 0) row.reset
      r < 8
      ∧ f < 2048
      ∧ gen < 256
      ∧ s.dev.holds w (blk r ixEGRESS) = true
      ∧ e.flCheck r 2 f gen v = 0) ∧
    (∃ (w : Nat) (r : Nat) (f : Nat) (gen : Nat) (s : State),
      let e := (s.dev.restartLease (blk r ixEGRESS)).egressNow r
      let vals := e.takeRows (Reg.rows_flow ++ Reg.rows_shaper) (wFLOW r f)
      let v : Row → Nat := fun row => tget vals (row.key (wFLOW r f) 0) row.reset
      r < 8
      ∧ f < 2048
      ∧ gen < 256
      ∧ s.dev.holds w (blk r ixEGRESS) = true
      ∧ e.flCheck r 3 f gen v = 0) ∧
    (∃ (w : Nat) (r : Nat) (f : Nat) (gen : Nat) (s : State) (op : Nat) (i : Instr),
      let e := (s.dev.restartLease (blk r ixEGRESS)).egressNow r
      let vals := e.takeRows (Reg.rows_flow ++ Reg.rows_shaper) (wFLOW r f)
      let v : Row → Nat := fun row => tget vals (row.key (wFLOW r f) 0) row.reset
      r < 8
      ∧ f < 2048
      ∧ gen < 256
      ∧ s.dev.holds w (blk r ixEGRESS) = true
      ∧ (op, i) ∈ [(1, Instr.flCreate w r f gen), (2, .flModify w r f gen), (3, .flDelete w r f gen)]
      ∧ e.flCheck r op f gen v ≠ 0) ∧
    (∃ (r : Nat) (f : Nat) (t0 : Nat) (s : State),
      let e := (s.dev.advanceTo t0).egressNow r
      e.flF r f Reg.FL_STATE_STATE = 3
      ∧ (e.flow r f).quarEnd ≤ e.now) :=
  ⟨⟨1, 3, 2047, 0, mk ((((((own egr (blk 3 ixEGRESS) 1).wrS Reg.FL_CTRL_CHANNEL (wFLOW 3 2047) 9).wrS Reg.FL_CTRL_PORT (wFLOW 3 2047) 4).wrS Reg.SH_PIR (wFLOW 3 2047) 50000).wrS Reg.SH_PBS (wFLOW 3 2047) 8000).wr Reg.SV_CTRL_PORT (wSV 3 0) 4), by dsimp only; decide +kernel⟩,
   ⟨1, 3, 2047, 1, mk ((((own (egf 0 []) (blk 3 ixEGRESS) 1).wrS Reg.SH_PIR (wFLOW 3 2047) 50000).wrS Reg.SH_PBS (wFLOW 3 2047) 8000).wr Reg.SV_CTRL_PORT (wSV 3 0) 4), by dsimp only; decide +kernel⟩,
   ⟨1, 3, 2047, 1, mk (own (egf 1 [pkt1 true]) (blk 3 ixEGRESS) 1), by dsimp only; decide +kernel⟩,
   ⟨1, 3, 2047, 2, mk (own (egf 1 [pkt1 true]) (blk 3 ixEGRESS) 1), 3, .flDelete 1 3 2047 2, by dsimp only; decide +kernel⟩,
   ⟨3, 2047, 7, mk ((egf 1 []).wr Reg.FL_STATE_STATE (wFLOW 3 2047) 3), by dsimp only; decide +kernel⟩⟩

theorem applies_PacketsLeave :
    (∃ (r : Nat) (p : Nat) (f : Nat) (t0 : Nat) (q : QPkt) (rest : List QPkt) (i : Instr) (s : State),
      let e := (s.dev.advanceTo t0).egressNow r
      let sv := e.flF r f Reg.FL_CTRL_SERVICE
      r < 8
      ∧ p < 16
      ∧ f < 2048
      ∧ (e.flow r f).queue = q :: rest
      ∧ (e.flow r f).port = p
      ∧ sv < 256
      ∧ e.portFree r p = true
      ∧ ((i = .packetDepart r f t0 ∧ e.eligiblePkt r p f = some q ∧ e.isRt r f = true ∧ q.first = true) ∨ (i = .portIdle r p t0 ∧ e.portPick r p = some f))) ∧
    (∃ (r : Nat) (f : Nat) (t0 : Nat) (s : State),
      let e := s.dev.advanceTo t0
      let x := e.flow r f
      r < 8
      ∧ f < 2048
      ∧ e.flF r f Reg.FL_STATE_STATE = 1
      ∧ x.del = none
      ∧ x.pend = none
      ∧ x.back = none
      ∧ x.resume = 0
      ∧ (∀ q, q ∈ x.queue → q.gen = e.flF r f Reg.FL_STATE_GEN)
      ∧ e.flF r f Reg.FL_STATE_DROP < 2 ^ Reg.FL_STATE_DROP.width) ∧
    (∃ (c : Nat) (rd : Nat) (t0 : Nat) (s : State),
      let r := s.dev.lead c
      let e := (s.dev.advanceTo t0).egressNow r
      let x := e.rend c rd
      e.live c = true
      ∧ e.lead c = r
      ∧ (s.dev.advanceTo t0).lead c = r
      ∧ (tget? e.rends (c * 8 + rd)).isSome = true
      ∧ cfR (e.chan c).cfg rd Reg.OUT_CTRL_ENCAP ≠ 0
      ∧ x.pcrNs ≠ 0
      ∧ (x.dus.filter (fun u => u.pkts.isSome && decide (u.dep ≤ e.now))).foldl (fun a u => max a u.dep) x.pcrNs + 35000000 ≤ e.now) :=
  ⟨⟨3, 4, 2047, 7, pkt1 true, [pkt1 false], .packetDepart 3 2047 7, mk (egf 1 [pkt1 true, pkt1 false]), by dsimp only; decide +kernel⟩,
   ⟨3, 2047, 2000000000, mk (egf 0 [pkt1 true]), by dsimp only; decide +kernel⟩,
   ⟨9, 0, 36000000, mk {egr with rends := [(72, {Rend.init with pcrNs := 5})], chans := [(9, {Chan.init with regions := [3], cfg := [(Reg.OUT_CTRL_ENCAP.key (stRN 0) 0, 1)]})]}, by dsimp only; decide +kernel⟩⟩

theorem applies_PolicersMeter :
    (∃ (r : Nat) (e : Nat) (p : Nat) (bytes : Nat) (a : Nat) (b : Nat) (h : StreamHdr) (s : State),
      tget? s.dev.pols (r * 256 + e) = some (a, b)
      ∧ s.dev.policed e p h = true
      ∧ b < bytes * 65536) ∧
    (∃ (r : Nat) (e : Nat) (p : Nat) (bytes : Nat) (a : Nat) (b : Nat) (h : StreamHdr) (s : State),
      tget? s.dev.pols (r * 256 + e) = some (a, b)
      ∧ s.dev.policed e p h = true
      ∧ bytes * 65536 ≤ b
      ∧ a < bytes * 65536) ∧
    (∃ (r : Nat) (e : Nat) (p : Nat) (bytes : Nat) (a : Nat) (b : Nat) (h : StreamHdr) (s : State),
      tget? s.dev.pols (r * 256 + e) = some (a, b)
      ∧ s.dev.policed e p h = true
      ∧ bytes * 65536 ≤ b
      ∧ bytes * 65536 ≤ a) ∧
    (∃ (e : Nat) (p : Nat) (h : StreamHdr) (s : State),
      s.dev.policed e p h = false) ∧
    (∃ (w : Nat) (r : Nat) (e : Nat) (off : Nat) (row : Row) (s : State),
      r < 8
      ∧ e < 256
      ∧ s.dev.holds w (blk r ixPOLICER) = true
      ∧ (off, row) ∈ [(0, Reg.PL_CIR), (4, Reg.PL_PIR), (8, Reg.PL_CBS), (0xC, Reg.PL_PBS)]) ∧
    (∃ (g : Nat) (fr : EthFrame) (s : State),
      s.dev.pUp (g / 16) (g % 16) = true
      ∧ fr.fcsOk = true
      ∧ fr.pause = false
      ∧ 64 ≤ fr.bytes
      ∧ fr.bytes ≤ 9216) ∧
    (∃ (g : Nat) (fr : EthFrame) (s : State),
      s.dev.pUp (g / 16) (g % 16) = true
      ∧ (fr.fcsOk = false ∨ fr.pause = true ∨ fr.bytes < 64 ∨ 9216 < fr.bytes)) ∧
    (∃ (g : Nat) (s : State),
      s.dev.pUp (g / 16) (g % 16) = true
      ∧ s.dev.active (g / 16) = true) :=
  ⟨⟨3, 254, 4, 100, 5, 99*65536, hdr9, mk (pold (5, 99*65536)), by decide +kernel⟩,
   ⟨3, 254, 4, 100, 5, 100*65536, hdr9, mk (pold (5, 100*65536)), by decide +kernel⟩,
   ⟨3, 254, 4, 100, 100*65536, 100*65536, hdr9, mk (pold (100*65536, 100*65536)), by decide +kernel⟩,
   ⟨254, 5, hdr9, mk (pold (100*65536, 100*65536)), by decide +kernel⟩,
   ⟨1, 3, 255, 8, Reg.PL_CBS, mk {own base (blk 3 ixPOLICER) 1 with pols := [(3*256+255, (100*65536, 100*65536))]}, by decide +kernel⟩,
   ⟨52, fr1, mk egr, by decide +kernel⟩,
   ⟨52, ⟨63,true,false⟩, mk egr, by decide +kernel⟩,
   ⟨52, mk egr, by decide +kernel⟩⟩

theorem applies_QueuesAreObserved :
    (∃ (r : Nat) (t0 : Nat) (f : Nat) (s : State),
      let e := (s.dev.advanceTo t0).egressNow r
      let pg := blk r ixEGRESS
      e.rd Reg.OBS_CTRL_EN pg = 1
      ∧ e.now % (max 1 (e.rd Reg.OBS_CTRL_PERIOD_US pg) * 1000) = 0
      ∧ e.active r = true
      ∧ e.liveFlows r = [f]
      ∧ (e.flow r f).obs.n + 1 < e.rd Reg.OBS_EPOCH_SAMPLES pg) ∧
    (∃ (r : Nat) (t0 : Nat) (f : Nat) (s : State),
      let e := (s.dev.advanceTo t0).egressNow r
      let pg := blk r ixEGRESS
      e.rd Reg.OBS_CTRL_EN pg = 1
      ∧ e.now % (max 1 (e.rd Reg.OBS_CTRL_PERIOD_US pg) * 1000) = 0
      ∧ e.active r = true
      ∧ e.liveFlows r = [f]
      ∧ e.rd Reg.OBS_EPOCH_SAMPLES pg ≤ (e.flow r f).obs.n + 1
      ∧ (e.flow r f).obs.dHist.length = 16
      ∧ (e.flow r f).obs.sHist.length = 16) ∧
    (∃ (w : Nat) (r : Nat) (s : State),
      r < 8
      ∧ s.dev.holds w (blk r ixEGRESS) = true) :=
  ⟨⟨3, 1000000, 2047, mk (((egf 1 []).wr Reg.OBS_CTRL_EN (blk 3 ixEGRESS) 1).wr Reg.OBS_CTRL_PERIOD_US (blk 3 ixEGRESS) 10 |>.wr Reg.OBS_EPOCH_SAMPLES (blk 3 ixEGRESS) 2), by dsimp only; decide +kernel⟩,
   ⟨3, 1000000, 2047, {mk (((egf 1 []).wr Reg.OBS_CTRL_EN (blk 3 ixEGRESS) 1).wr Reg.OBS_CTRL_PERIOD_US (blk 3 ixEGRESS) 10 |>.wr Reg.OBS_EPOCH_SAMPLES (blk 3 ixEGRESS) 1 |>.wr Reg.MP_STATE_STATE (mpPage 3 0) 2 |>.wr Reg.MP_CAP_DATA_MIB (mpPage 3 0) 16384) with ram := [(ramKey 3 0x3FF80, 9), (ramKey 3 (0x3FF80+0x100000), 9)]}, by dsimp only; decide +kernel⟩,
   ⟨1, 3, mk (own (egf 1 [pkt1 true]) (blk 3 ixEGRESS) 1), by decide +kernel⟩⟩

theorem applies_RegisterWritesAct :
    (∃ (w : Nat) (page : Nat) (v : Nat) (s : State),
      isPage page = true
      ∧ (isHost w = true → s.dev.portUp (w - 1) = true)
      ∧ v < 2 ^ 32) ∧
    (∃ (w : Nat) (tag : Nat) (c : Nat) (gen : Nat) (r : Nat) (s : State),
      (isHost w = true → s.dev.portUp (w - 1) = true)
      ∧ tag < 256
      ∧ c < 128
      ∧ gen < 256
      ∧ r < 8) ∧
    (∃ (w : Nat) (page : Nat) (ms : Nat) (s : State),
      s.dev.holds w page = true
      ∧ 0 < ms
      ∧ ms < 65536) ∧
    (∃ (w : Nat) (page : Nat) (s : State),
      isPage page = true
      ∧ s.dev.pageAnswers w page = true) ∧
    (∃ (w : Nat) (s : State),
      s.dev.holds w pSHM = true) ∧
    (∃ (w : Nat) (r : Nat) (p : Nat) (s : State),
      r < 8
      ∧ p < 4
      ∧ s.dev.holds w (mpPage r p) = true) ∧
    (∃ (w : Nat) (addr : Nat) (s : State),
      (isHost w = true → s.dev.portUp (w - 1) = true)
      ∧ addr % 4 ≠ 0) :=
  ⟨⟨2, blk 5 ixRCU, 0xFFFFFFFF, mk (own base (blk 5 ixRCU) 2), by decide +kernel⟩,
   ⟨1, 255, 127, 255, 3, mk (own (own base pSHM 1) (blk 3 ixRGN) 1), by decide +kernel⟩,
   ⟨1, blk 5 ixRCU, 65535, mk (own base (blk 5 ixRCU) 1), by decide +kernel⟩,
   ⟨1, blk 5 ixRCU, mk base, by decide +kernel⟩,
   ⟨1, mk (own base pSHM 1), by decide +kernel⟩,
   ⟨1, 3, 2, mk (own base (mpPage 3 2) 1), by decide +kernel⟩,
   ⟨1, 0x13, mk (own base (mpPage 3 2) 1), by decide +kernel⟩⟩

theorem applies_AdmissionAnswers :
    (∃ (w : Nat) (tag : Nat) (c : Nat) (gen : Nat) (op : Nat) (i : Instr) (s : State),
      (op, i) ∈ [(1, Instr.admCreate w tag c gen), (2, .admModify w tag c gen), (3, .admStop w tag c gen), (4, .admCheck w tag c gen)]
      ∧ s.dev.holds w pSHM = true
      ∧ s.dev.rd Reg.ADM_STATUS_BUSY pSHM = 0
      ∧ tag < 256
      ∧ c < 128
      ∧ gen < 256) ∧
    (∃ (w : Nat) (tag : Nat) (c : Nat) (gen : Nat) (i : Instr) (s : State),
      i ∈ [Instr.admCreate w tag c gen, .admModify w tag c gen, .admStop w tag c gen, .admCheck w tag c gen]
      ∧ s.dev.holds w pSHM = true
      ∧ s.dev.rd Reg.ADM_STATUS_BUSY pSHM = 1) ∧
    (∃ (t0 : Nat) (at_ : Nat) (q : AdmReq) (s : State),
      let e := s.dev.advanceTo t0
      e.adm = some (q, at_)
      ∧ e.rd Reg.ADM_STATUS_INTERNAL pSHM = 0
      ∧ e.sys.admOpen = true
      ∧ e.pgs.any (fun x => x.2.declared.isSome) = false
      ∧ q.chan < 128) :=
  ⟨⟨1, 255, 127, 3, 4, .admCheck 1 255 127 3, mk (own base pSHM 1), by decide +kernel⟩,
   ⟨1, 255, 127, 3, .admStop 1 255 127 3, mk (own (base.wr Reg.ADM_STATUS_BUSY pSHM 1) pSHM 1), by decide +kernel⟩,
   ⟨7, 5, ⟨1,9,3,0,8,0,0,0,8,false,[]⟩, mk {base.wr Reg.ADM_STATUS_BUSY pSHM 1 with adm := some (⟨1,9,3,0,8,0,0,0,8,false,[]⟩,5)}, by dsimp only; decide +kernel⟩⟩

theorem applies_ChannelsChangeState :
    (∃ (c : Nat) (t0 : Nat) (g : Tbl Nat) (s : State),
      let e := s.dev.advanceTo t0
      let x := e.chan c
      c < 128
      ∧ x.next = some g
      ∧ e.live c = true
      ∧ e.tickAt c x.nextK ≤ (e.nowTu : Int)) ∧
    (∃ (c : Nat) (t0 : Nat) (s : State),
      let e := s.dev.advanceTo t0
      e.chState c = 1
      ∧ e.tickAt c (e.chan c).startK ≤ (e.nowTu : Int)) ∧
    (∃ (c : Nat) (t0 : Nat) (s : State),
      let e := s.dev.advanceTo t0
      c < 128
      ∧ e.chState c = 4
      ∧ (e.chan c).quarEnd ≤ e.now) ∧
    (∃ (c : Nat) (t0 : Nat) (s : State),
      let e := s.dev.advanceTo t0
      (e.chan c).next = none ∨ (e.nowTu : Int) < e.tickAt c (e.chan c).nextK) ∧
    (∃ (c : Nat) (t0 : Nat) (s : State),
      let e := s.dev.advanceTo t0
      e.chState c ≠ 1 ∨ (e.nowTu : Int) < e.tickAt c (e.chan c).startK) ∧
    (∃ (c : Nat) (t0 : Nat) (s : State),
      let e := s.dev.advanceTo t0
      e.chState c ≠ 4 ∨ e.now < (e.chan c).quarEnd) :=
  ⟨⟨9, 1000000000, [(5,6)], mk {carry base 9 3 0 with chans := [(9, {Chan.init with regions := [3], next := some [(5,6)], nextK := 3})]}, by dsimp only; decide +kernel⟩,
   ⟨9, 1000000000, mk ((carry base 9 3 0).wr Reg.CH_STATE_STATE (wCHSTAT 9) 1), by dsimp only; decide +kernel⟩,
   ⟨9, 1000000000, mk ((carry base 9 3 0).wr Reg.CH_STATE_STATE (wCHSTAT 9) 4), by dsimp only; decide +kernel⟩,
   ⟨9, 7, mk (carry base 9 3 0), by dsimp only; decide +kernel⟩,
   ⟨9, 7, mk (carry base 9 3 0), by dsimp only; decide +kernel⟩,
   ⟨9, 7, mk (carry base 9 3 0), by dsimp only; decide +kernel⟩⟩

theorem applies_TicksFollowTheTimebase :
    (∃ (c : Nat) (t0 : Nat) (s : State),
      let e := s.dev.advanceTo t0
      let x := e.chan c
      e.live c = true
      ∧ e.allReached c (e.tickAt c x.k) = true
      ∧ x.undecided = none) ∧
    (∃ (c : Nat) (t0 : Nat) (s : State),
      let e := s.dev.advanceTo t0
      let x := e.chan c
      e.live c = true
      ∧ e.allReached c (e.slotTu c x.n) = true
      ∧ x.n < x.k * slices x.cfg
      ∧ x.undecided = none) ∧
    (∃ (c : Nat) (t0 : Nat) (s : State),
      let e := s.dev.advanceTo t0
      e.live c = false ∨ e.allReached c (e.tickAt c (e.chan c).k) = false) ∧
    (∃ (c : Nat) (t0 : Nat) (s : State),
      let e := s.dev.advanceTo t0
      e.live c = false ∨ e.allReached c (e.slotTu c (e.chan c).n) = false ∨ (e.chan c).k * slices (e.chan c).cfg ≤ (e.chan c).n) ∧
    (∃ (r : Nat) (t0 : Nat) (s : State),
      let e := (s.dev.advanceTo t0).egressNow r
      r < 8
      ∧ e.active r = true
      ∧ e.tbNs r / 1000 ≠ (e.rach r).tick) ∧
    (∃ (r : Nat) (t0 : Nat) (s : State),
      let e := (s.dev.advanceTo t0).egressNow r
      r < 8
      ∧ e.active r = false ∨ e.tbNs r / 1000 = (e.rach r).tick) :=
  ⟨⟨9, 1000000000, mk (carry base 9 3 0), by dsimp only; decide +kernel⟩,
   ⟨9, 1000000000, mk {carry base 9 3 0 with chans := [(9, {Chan.init with regions := [3], k := 1})]}, by dsimp only; decide +kernel⟩,
   ⟨9, 7, mk {carry base 9 3 0 with chans := [(9, {Chan.init with regions := [3], k := 5})]}, by dsimp only; decide +kernel⟩,
   ⟨9, 7, mk (carry base 9 3 0), by dsimp only; decide +kernel⟩,
   ⟨3, 1000000, mk (egf 1 []), by dsimp only; decide +kernel⟩,
   ⟨3, 7, mk (egf 1 []), by dsimp only; decide +kernel⟩⟩

theorem applies_SourcesReachTheirFrames :
    (∃ (c : Nat) (f : SrcFrame) (s : State),
      let e := s.dev.advanceTo (ceilDiv f.start 65536)
      let ch := e.chan c
      e.live c = true
      ∧ feedOn ch.cfg = false
      ∧ cf ch.cfg Reg.SRC_CTRL_IF = 2
      ∧ f.stby = true
      ∧ f.formatOk = true
      ∧ e.protectedCh c = true) ∧
    (∃ (c : Nat) (f : SrcFrame) (s : State),
      let e := s.dev.advanceTo (ceilDiv f.start 65536)
      let k := e.frameFrom c ((f.start : Int) - (e.phi c : Nat))
      let ch := e.chan c
      e.live c = true
      ∧ feedOn ch.cfg = false
      ∧ cf ch.cfg Reg.SRC_CTRL_IF = 2
      ∧ f.stby = false
      ∧ f.formatOk = true
      ∧ e.chState c ≠ 1
      ∧ (ch.undecided = some k ∨ (ch.undecided = none ∧ ch.k ≤ k))
      ∧ ch.startK ≤ k
      ∧ (∀ z, ch.stopK = some z → k < z)
      ∧ ch.srcs.find? (fun y => y.1 == k) = none) ∧
    (∃ (c : Nat) (f : SrcFrame) (s : State),
      let e := s.dev.advanceTo (ceilDiv f.start 65536)
      let k := e.frameFrom c ((f.start : Int) - (e.phi c : Nat))
      let ch := e.chan c
      e.live c = true
      ∧ feedOn ch.cfg = false
      ∧ cf ch.cfg Reg.SRC_CTRL_IF = 2
      ∧ f.stby = false
      ∧ f.formatOk = true
      ∧ e.chState c ≠ 1
      ∧ (ch.undecided = some k ∨ (ch.undecided = none ∧ ch.k ≤ k))
      ∧ ch.startK ≤ k
      ∧ (∀ z, ch.stopK = some z → k < z)
      ∧ (ch.srcs.find? (fun y => y.1 == k)).isSome = true) ∧
    (∃ (c : Nat) (f : SrcFrame) (s : State),
      let e := s.dev.advanceTo (ceilDiv f.start 65536)
      let ch := e.chan c
      e.live c = true
      ∧ feedOn ch.cfg = false
      ∧ cf ch.cfg Reg.SRC_CTRL_IF = 2
      ∧ f.stby = false
      ∧ f.formatOk = true
      ∧ e.chState c = 1
      ∧ ch.k ≤ ch.startK) ∧
    (∃ (c : Nat) (f : SrcFrame) (s : State),
      let e := s.dev.advanceTo (ceilDiv f.start 65536)
      let ch := e.chan c
      e.live c = true
      ∧ feedOn ch.cfg = false
      ∧ cf ch.cfg Reg.SRC_CTRL_IF = 2
      ∧ f.stby = false
      ∧ f.formatOk = false
      ∧ ch.undecided = none) ∧
    (∃ (c : Nat) (path : Nat) (seq : Nat) (h : StreamHdr) (s : State),
      let g := (s.dev.chan c).cfg
      let q := seq % 65536
      s.dev.live c = true
      ∧ feedOn g = false
      ∧ cf g Reg.SRC_CTRL_IF = 2
      ∧ (path = 0 ∨ cf g Reg.SRC_2110_DUAL ≠ 0)
      ∧ s.dev.streamOurs c (if path = 0 then cf g Reg.SRC_2110_PORT else cf g Reg.SRC_2110_PORT2) h = true
      ∧ (s.dev.chan c).seen.contains q = false) ∧
    (∃ (c : Nat) (path : Nat) (seq : Nat) (h : StreamHdr) (s : State),
      let g := (s.dev.chan c).cfg
      let q := seq % 65536
      s.dev.live c = true
      ∧ feedOn g = false
      ∧ cf g Reg.SRC_CTRL_IF = 2
      ∧ (path = 0 ∨ cf g Reg.SRC_2110_DUAL ≠ 0)
      ∧ (s.dev.streamOurs c (if path = 0 then cf g Reg.SRC_2110_PORT else cf g Reg.SRC_2110_PORT2) h = false ∨ (s.dev.chan c).seen.contains q = true)) ∧
    (∃ (c : Nat) (rd : Nat) (j : Nat) (k : Nat) (s : State),
      s.dev.live c = true
      ∧ rd < numRend (s.dev.chan c).cfg
      ∧ j < slices (s.dev.chan c).cfg
      ∧ (s.dev.chan c).undecided = none
      ∧ s.dev.arriving c = some k) ∧
    (∃ (c : Nat) (rd : Nat) (j : Nat) (k : Nat) (x : Rend) (s : State),
      s.dev.live c = true
      ∧ (s.dev.chan c).undecided = none
      ∧ (s.dev.chan c).prev = []
      ∧ tget? s.dev.olds (c * 8 + rd) = none
      ∧ tget? s.dev.rends (c * 8 + rd) = some x
      ∧ (s.dev.chan c).nextAn x = some k
      ∧ x.an % slices (s.dev.chan c).cfg = j
      ∧ k < (s.dev.chan c).k) :=
  ⟨⟨9, ⟨true, 1000000000*65536, true, [], 0, 0, ⟨[],[],[]⟩⟩, mk ((codd Rend.init).wr Reg.CH_STATE_PROTECTED (wCHSTAT 9) 1), by dsimp only; decide +kernel⟩,
   ⟨9, ⟨false, 1000000000*65536, true, [], 0, 0, ⟨[],[],[]⟩⟩, mk (codd Rend.init), by dsimp only; exact ⟨by decide +kernel, by decide +kernel, by decide +kernel, by decide +kernel, by decide +kernel, by decide +kernel, by decide +kernel, by decide +kernel, (fun _ h => nomatch (show none = some _ from h)), by decide +kernel⟩⟩,
   ⟨9, ⟨false, 1000000000*65536, true, [], 0, 0, ⟨[],[],[]⟩⟩, mk {codd Rend.init with chans := [(9, {Chan.init with regions := [3], cfg := codG, k := 9, srcs := (List.range 70).map (fun i => (i, ⟨false, 5, true, [], 0, 0, ⟨[],[],[]⟩⟩))})]}, by dsimp only; exact ⟨by decide +kernel, by decide +kernel, by decide +kernel, by decide +kernel, by decide +kernel, by decide +kernel, by decide +kernel, by decide +kernel, (fun _ h => nomatch (show none = some _ from h)), by decide +kernel⟩⟩,
   ⟨9, ⟨false, 1000000000*65536, true, [], 0, 0, ⟨[],[],[]⟩⟩, mk ({codd Rend.init with chans := [(9, {Chan.init with regions := [3], cfg := codG, startK := 99})]}.wr Reg.CH_STATE_STATE (wCHSTAT 9) 1), by dsimp only; decide +kernel⟩,
   ⟨9, ⟨false, 1000000000*65536, false, [], 0, 0, ⟨[],[],[]⟩⟩, mk (codd Rend.init), by dsimp only; decide +kernel⟩,
   ⟨9, 0, 65535, hdr9, mk ((codd Rend.init).wr Reg.LN_CFG_RATE (lanePage 52) 2), by dsimp only; decide +kernel⟩,
   ⟨9, 0, 65535, hdr9, mk {(codd Rend.init).wr Reg.LN_CFG_RATE (lanePage 52) 2 with chans := [(9, {Chan.init with regions := [3], cfg := codG, seen := [65535]})]}, by dsimp only; decide +kernel⟩,
   ⟨9, 0, 7, 4, mk {codd Rend.init with chans := [(9, {Chan.init with regions := [3], cfg := codG, k := 9, info := [(4, FrameInfo.init)]})]}, by decide +kernel⟩,
   ⟨9, 0, 5, 0, {Rend.init with an := 5}, mk (codd {Rend.init with an := 5}), by decide +kernel⟩⟩

theorem applies_LayersAndRoisCommit :
    (∃ (w : Nat) (c : Nat) (t0 : Nat) (s : State),
      let e1 := s.dev.advanceTo t0
      let pg := blk (e1.lead c) ixCOMPOSE
      let e := e1.restartLease pg
      c < 128
      ∧ e1.holds w pg = true
      ∧ e.layerWaits = true
      ∧ e.chState c = 1 ∨ e.chState c = 2) ∧
    (∃ (w : Nat) (c : Nat) (t0 : Nat) (s : State),
      let e1 := s.dev.advanceTo t0
      let pg := blk (e1.lead c) ixCOMPOSE
      let e := e1.restartLease pg
      let vals := e.takeLayers c
      c < 128
      ∧ e1.holds w pg = true
      ∧ e.layerWaits = false
      ∧ e.cmpCheck c (layerVal c vals) = none) ∧
    (∃ (w : Nat) (c : Nat) (t0 : Nat) (s : State) (x : Nat × Option Nat),
      let e1 := s.dev.advanceTo t0
      let pg := blk (e1.lead c) ixCOMPOSE
      let e := e1.restartLease pg
      let vals := e.takeLayers c
      c < 128
      ∧ e1.holds w pg = true
      ∧ e.layerWaits = false
      ∧ e.cmpCheck c (layerVal c vals) = some x) ∧
    (∃ (w : Nat) (c : Nat) (t0 : Nat) (s : State),
      let e1 := s.dev.advanceTo t0
      let pg := blk (e1.lead c) ixRCU
      let e := e1.restartLease pg
      let vals := e.takeRows Reg.rows_roi (wROI c)
      c < 128
      ∧ e1.holds w pg = true
      ∧ e.roiCheck c vals = none) ∧
    (∃ (w : Nat) (c : Nat) (t0 : Nat) (s : State) (x : Nat × Option Nat),
      let e1 := s.dev.advanceTo t0
      let pg := blk (e1.lead c) ixRCU
      let e := e1.restartLease pg
      let vals := e.takeRows Reg.rows_roi (wROI c)
      c < 128
      ∧ e1.holds w pg = true
      ∧ e.roiCheck c vals = some x) ∧
    (∃ (w : Nat) (c : Nat) (l : Nat) (s : State),
      c < 128
      ∧ l < 8
      ∧ s.dev.holds w (blk (s.dev.lead c) ixCOMPOSE) = true
      ∧ s.dev.live c = true
      ∧ s.dev.actL c l Reg.LY_CTRL_KIND = 2
      ∧ (s.dev.lay c l).queue.length < 4) ∧
    (∃ (w : Nat) (c : Nat) (l : Nat) (s : State),
      c < 128
      ∧ l < 8
      ∧ s.dev.holds w (blk (s.dev.lead c) ixCOMPOSE) = true
      ∧ s.dev.live c = true
      ∧ s.dev.actL c l Reg.LY_CTRL_KIND = 2
      ∧ 4 ≤ (s.dev.lay c l).queue.length) :=
  ⟨⟨1, 9, 7, mk ((own (codd Rend.init) (blk 3 ixCOMPOSE) 1).wr Reg.ADM_STATUS_BUSY pSHM 1), by dsimp only; decide +kernel⟩,
   ⟨1, 9, 7, mk (own (codd Rend.init) (blk 3 ixCOMPOSE) 1), by dsimp only; decide +kernel⟩,
   ⟨1, 9, 7, mk ((own (codd Rend.init) (blk 3 ixCOMPOSE) 1).wr Reg.CH_STATE_STATE (wCHSTAT 9) 0), ((0x36, none) : Nat × Option Nat), by dsimp only; decide +kernel⟩,
   ⟨1, 9, 7, mk (own (codd Rend.init) (blk 3 ixRCU) 1), by dsimp only; decide +kernel⟩,
   ⟨1, 9, 7, mk ((own (codd Rend.init) (blk 3 ixRCU) 1).wr Reg.CH_STATE_STATE (wCHSTAT 9) 0), ((0x36, none) : Nat × Option Nat), by dsimp only; decide +kernel⟩,
   ⟨1, 9, 7, mk ((own (codd Rend.init) (blk 3 ixCOMPOSE) 1).wr Reg.LY_CTRL_KIND (wLY 9 7) 2), by decide +kernel⟩,
   ⟨1, 9, 7, mk {(own (codd Rend.init) (blk 3 ixCOMPOSE) 1).wr Reg.LY_CTRL_KIND (wLY 9 7) 2 with chans := [(9, {Chan.init with regions := [3], cfg := codG, lays := [(7, {LaySt.init with queue := [(0,1),(1,2),(2,3),(3,4)]})]})]}, by decide +kernel⟩⟩

theorem applies_TablesAndStatistics :
    (∃ (w : Nat) (r : Nat) (s : State),
      r < 8
      ∧ s.dev.holds w (blk r ixCOMPOSE) = true) ∧
    (∃ (w : Nat) (c : Nat) (rd : Nat) (s : State),
      c < 128
      ∧ rd < 8
      ∧ s.dev.holds w (blk (s.dev.lead c) ixRGN) = true) ∧
    (∃ (c : Nat) (rd : Nat) (t0 : Nat) (key : Nat) (a : PicAcc) (s : State),
      let e := s.dev.advanceTo t0
      let v := e.viewAs c rd a.k
      let b := wLIVE c rd
      let bytes := v.statBytes c rd a (e.statOf c rd).2
      let n := bytes.length
      let wr := e.rd Reg.STAT_WR b
      let size := e.rd Reg.STAT_SIZE b
      let pad := if size < wr + n then size - wr else 0
      let room := (((e.rd Reg.STAT_RD b : Int) - (wr : Int) - 64) % (size : Int)).toNat
      let at_ := if pad = 0 then wr else 0
      let r := e.lead c
      let addr (i : Nat) : Nat := e.rdPair Reg.STAT_BASE_LO Reg.STAT_BASE_HI b + i
      c < 128
      ∧ rd < 8
      ∧ tget? e.olds (c * 8 + rd) = none
      ∧ (e.rend c rd).accs.head? = some (key, a)
      ∧ e.live c = true
      ∧ picSlices (v.chan c).cfg ≤ a.slices
      ∧ pad + n ≤ room
      ∧ (∀ i, i < n → (e.portFor r (addr (at_ + i))).isSome = true)
      ∧ (pad = 0 ∨ ∀ i, i < 64 → (e.portFor r (addr (wr + i))).isSome = true)) ∧
    (∃ (c : Nat) (rd : Nat) (t0 : Nat) (key : Nat) (a : PicAcc) (s : State),
      let e := s.dev.advanceTo t0
      let v := e.viewAs c rd a.k
      let b := wLIVE c rd
      let bytes := v.statBytes c rd a (e.statOf c rd).2
      let n := bytes.length
      let wr := e.rd Reg.STAT_WR b
      let size := e.rd Reg.STAT_SIZE b
      let pad := if size < wr + n then size - wr else 0
      let room := (((e.rd Reg.STAT_RD b : Int) - (wr : Int) - 64) % (size : Int)).toNat
      c < 128
      ∧ rd < 8
      ∧ tget? e.olds (c * 8 + rd) = none
      ∧ (e.rend c rd).accs.head? = some (key, a)
      ∧ e.live c = true
      ∧ picSlices (v.chan c).cfg ≤ a.slices
      ∧ room < pad + n) :=
  ⟨⟨1, 3, mk ((own ((codd Rend.init).wr Reg.LUT_VALID (blk 3 ixCOMPOSE) 6) (blk 3 ixCOMPOSE) 1).wr Reg.LY_CTRL_CHAIN_EN (wLY 9 7) 1 |>.wr Reg.LY_CTRL_LUT_SET (wLY 9 7) 2), by decide +kernel⟩,
   ⟨1, 9, 7, mk (own (codd Rend.init) (blk 3 ixRGN) 1), by decide +kernel⟩,
   ⟨9, 0, 7, 0, {PicAcc.init 0 false with slices := 8}, mk (statd {PicAcc.init 0 false with slices := 8} 64 64), by dsimp only; decide +kernel⟩,
   ⟨9, 0, 7, 0, {PicAcc.init 0 false with slices := 8}, mk (statd {PicAcc.init 0 false with slices := 8} 64 128), by dsimp only; decide +kernel⟩⟩

theorem applies_SlicesAreCoded :
    (∃ (c : Nat) (rd : Nat) (j : Nat) (t0 : Nat) (k : Nat) (x : Rend) (s : State),
      let e := s.dev.advanceTo t0
      let v := e.viewAs c rd k
      let g := (v.chan c).cfg
      let z := slot4 g rd x (stopFor (v.chan c) x) x.i
      rd < 8
      ∧ e.live c = true
      ∧ (e.chan c).undecided = none
      ∧ tget? e.olds (c * 8 + rd) = none
      ∧ tget? e.rends (c * 8 + rd) = some x
      ∧ e.grantFrame c rd j x = some k
      ∧ (e.chan c).prev = []
      ∧ ladder g = false
      ∧ z.jj ≠ 0) ∧
    (∃ (r : Nat) (ce : Nat) (j : CeJob) (z : RowCtx) (s : State),
      let v := s.dev.viewAs j.c j.rd j.k
      let g := (v.chan j.c).cfg
      let after := reserveFrom g j.rd z.kinds (j.x + 1)
      tget? s.dev.ces (ceKey r ce) = some j
      ∧ s.dev.live j.c = true
      ∧ v.rowCtx j = some z
      ∧ j.x < z.kinds.length
      ∧ v.wppOpen j z = true
      ∧ j.spent ≤ j.budget
      ∧ after ≤ j.budget - j.spent
      ∧ j.x + 1 ≠ (if rowCtus g j.rd j.row = 2 * ctuCols g j.rd ∧ codec g j.rd = 0 then ctuCols g j.rd + min 2 (ctuCols g j.rd) else min 2 z.kinds.length)) ∧
    (∃ (r : Nat) (ce : Nat) (j : CeJob) (z : RowCtx) (s : State),
      let v := s.dev.viewAs j.c j.rd j.k
      tget? s.dev.ces (ceKey r ce) = some j
      ∧ s.dev.live j.c = true
      ∧ v.rowCtx j = some z
      ∧ z.kinds.length ≤ j.x ∨ v.wppOpen j z = false) ∧
    (∃ (r : Nat) (ce : Nat) (j : CeJob) (z : RowCtx) (s : State),
      let v := s.dev.viewAs j.c j.rd j.k
      j.rd < 8
      ∧ tget? s.dev.ces (ceKey r ce) = some j
      ∧ s.dev.live j.c = true
      ∧ v.rowCtx j = some z
      ∧ (s.dev.chan j.c).prev = []
      ∧ tget? s.dev.olds (j.c * 8 + j.rd) = none
      ∧ z.kinds.length ≤ j.x
      ∧ v.deblockOpen j z = true) ∧
    (∃ (r : Nat) (ce : Nat) (j : CeJob) (z : RowCtx) (s : State),
      let v := s.dev.viewAs j.c j.rd j.k
      j.rd < 8
      ∧ tget? s.dev.ces (ceKey r ce) = some j
      ∧ s.dev.live j.c = true
      ∧ v.rowCtx j = some z
      ∧ (s.dev.chan j.c).prev = []
      ∧ tget? s.dev.olds (j.c * 8 + j.rd) = none
      ∧ j.x < z.kinds.length ∨ v.deblockOpen j z = false) ∧
    (∃ (r : Nat) (c : Nat) (rd : Nat) (row : Nat) (k : Nat) (s : State),
      s.dev.live c = true
      ∧ (s.dev.chan c).regions.contains r = true
      ∧ tget? (s.dev.rend c rd).recon row = some k) :=
  ⟨⟨9, 0, 1, 1000000000, 0, {Rend.init with i := 1, an := 8}, mk (codd {Rend.init with i := 1, an := 8}), by dsimp only; decide +kernel⟩,
   ⟨3, 2, cejob 5 100000, rowZ 5, mk (codx 5 100000), by dsimp only; decide +kernel⟩,
   ⟨3, 2, cejob 99 100000, rowZ 99, mk (codx 99 100000), by dsimp only; decide +kernel⟩,
   ⟨3, 2, cejob 30 100000, rowZ 30, mk (codx 30 100000), by dsimp only; decide +kernel⟩,
   ⟨3, 2, cejob 3 100000, rowZ 3, mk (codx 3 100000), by dsimp only; decide +kernel⟩,
   ⟨3, 9, 0, 3, 5, mk (codd {Rend.init with recon := [(3, 5)]}), by decide +kernel⟩⟩

theorem applies_DecodingIsBounded :
    (∃ (r : Nat) (de : Nat) (t0 : Nat) (cycles : Nat) (code : Nat) (x : List DecNal) (i : Instr) (row : Row) (j : DeJob) (s : State),
      let e0 := s.dev.advanceTo t0
      let use := ((tget? e0.strms (slotKey r j.slot)).map (·.use)).getD 0
      let e := e0.readNals r j.slot use x
      (i, code, row) ∈ [(Instr.cycleBudget r ⟨de, t0, cycles, x⟩, 0x21, Reg.DE_WD_BUDGET), (.wdExpiry r ⟨de, t0, cycles, x⟩, 0x20, Reg.DE_WD_EXPIRED)]
      ∧ r < 8
      ∧ de < 2
      ∧ j.slot < 1152
      ∧ tget? e0.des (deKey r de) = some j
      ∧ j.ended ≠ none ∨ (e.decSlot r j.slot).cur = none) ∧
    (∃ (r : Nat) (de : Nat) (t0 : Nat) (cycles : Nat) (code : Nat) (x : List DecNal) (i : Instr) (row : Row) (j : DeJob) (s : State) (p : PicNow),
      let e0 := s.dev.advanceTo t0
      let use := ((tget? e0.strms (slotKey r j.slot)).map (·.use)).getD 0
      let e := e0.readNals r j.slot use x
      let blocks := p.missing (blocksIn p.seq (e.jobLines r j use p.seq))
      let w := e.slotWeights j.slot
      let lines := e.jobLines r j use p.seq
      (i, code, row) ∈ [(Instr.cycleBudget r ⟨de, t0, cycles, x⟩, 0x21, Reg.DE_WD_BUDGET), (.wdExpiry r ⟨de, t0, cycles, x⟩, 0x20, Reg.DE_WD_EXPIRED)]
      ∧ r < 8
      ∧ de < 2
      ∧ j.slot < 1152
      ∧ tget? e0.des (deKey r de) = some j
      ∧ j.ended = none
      ∧ (e.decSlot r j.slot).cur = some p
      ∧ blocks ≠ []
      ∧ (code = 0x21 → cycleBudget (e.rd Reg.DE_BOUND_CYC_MULT (blk r (ixDE + de))) (p.seq.width * (lines.2 - lines.1)) w.1 w.2 ≤ cycles)
      ∧ (code = 0x20 → 3 * j.deadline ≤ 3 * e.now + 80 * blocks.length)
      ∧ (∀ n, x.getLast? = some n → n.reach ≤ (e0.decSlot r j.slot).input)) ∧
    (∃ (r : Nat) (slot : Nat) (t0 : Nat) (x : List DecNal) (y : Strm) (p : PicNow) (s : State),
      let e0 := s.dev.advanceTo t0
      let e := e0.readNals r slot 0 x
      let blocks := p.missing (blocksIn p.seq (e.bandLines r slot p.seq))
      r < 8
      ∧ slot < 1152
      ∧ tget? e0.strms (slotKey r slot) = some y
      ∧ y.use = 0
      ∧ e0.active r = true
      ∧ (e.decSlot r slot).cur = some p
      ∧ p.use = .decode
      ∧ blocks = []
      ∧ p.conc = []
      ∧ p.gap = false
      ∧ (e.bandCtus r slot p.seq).2 ≤ p.next
      ∧ (e.decSlot r slot).bufFail = false
      ∧ (p.kind = .idr ∨ p.kind = .cra)) ∧
    (∃ (r : Nat) (slot : Nat) (t0 : Nat) (x : List DecNal) (y : Strm) (p : PicNow) (s : State),
      let e0 := s.dev.advanceTo t0
      let e := e0.readNals r slot 0 x
      let blocks := p.missing (blocksIn p.seq (e.bandLines r slot p.seq))
      r < 8
      ∧ slot < 1152
      ∧ tget? e0.strms (slotKey r slot) = some y
      ∧ y.use = 0
      ∧ e0.active r = true
      ∧ (e.decSlot r slot).cur = some p
      ∧ p.use = .decode
      ∧ blocks ≠ []) ∧
    (∃ (r : Nat) (slot : Nat) (enc : List Nat) (dec : List Nat) (x : Strm) (s : State),
      r < 8
      ∧ slot < 1152
      ∧ tget? s.dev.strms (slotKey r slot) = some x
      ∧ x.use = 0
      ∧ s.dev.active r = true
      ∧ rowCrc enc = rowCrc dec) ∧
    (∃ (r : Nat) (slot : Nat) (enc : List Nat) (dec : List Nat) (x : Strm) (s : State),
      r < 8
      ∧ slot < 1152
      ∧ tget? s.dev.strms (slotKey r slot) = some x
      ∧ x.use = 0
      ∧ s.dev.active r = true
      ∧ rowCrc enc ≠ rowCrc dec) ∧
    (∃ (c : Nat) (t0 : Nat) (r : Nat) (p : FeedPkt) (s : State),
      let e := s.dev.advanceTo t0
      r < 8
      ∧ c < 128
      ∧ (e.feedRegions c).find? (fun r => (r == e.lead c) != p.stby) = some r
      ∧ e.feedOurs c p r = false) ∧
    (∃ (c : Nat) (t0 : Nat) (r : Nat) (p : FeedPkt) (s : State),
      let e := s.dev.advanceTo t0
      let g := (e.chan c).cfg
      let x := e.decSlot r (1024 + c)
      let q := pktNum g p
      r < 8
      ∧ c < 128
      ∧ (e.feedRegions c).find? (fun r => (r == e.lead c) != p.stby) = some r
      ∧ e.feedOurs c p r = true
      ∧ x.seen.any (fun y => y.1 == q) = true) ∧
    (∃ (c : Nat) (t0 : Nat) (r : Nat) (p : FeedPkt) (s : State),
      let e := s.dev.advanceTo t0
      let g := (e.chan c).cfg
      let x := e.decSlot r (1024 + c)
      let q := pktNum g p
      r < 8
      ∧ c < 128
      ∧ (e.feedRegions c).find? (fun r => (r == e.lead c) != p.stby) = some r
      ∧ e.feedOurs c p r = true
      ∧ x.seen.any (fun y => y.1 == q) = false
      ∧ (∃ au, x.auNext = some au ∧ p.au < au)) ∧
    (∃ (c : Nat) (t0 : Nat) (r : Nat) (p : FeedPkt) (s : State),
      let e := s.dev.advanceTo t0
      let g := (e.chan c).cfg
      let x := e.decSlot r (1024 + c)
      let q := pktNum g p
      r < 8
      ∧ c < 128
      ∧ (e.feedRegions c).find? (fun r => (r == e.lead c) != p.stby) = some r
      ∧ e.feedOurs c p r = true
      ∧ x.seen.any (fun y => y.1 == q) = false
      ∧ (∀ au, x.auNext = some au → au ≤ p.au)) ∧
    (∃ (c : Nat) (t0 : Nat) (r : Nat) (au : Nat) (from_ : Nat) (s : State),
      let e := s.dev.advanceTo t0
      let x := e.decSlot r (1024 + c)
      e.feedRegions c = [r]
      ∧ x.auNext = some au
      ∧ tget? x.lastAt au = some from_
      ∧ from_ + cf (e.chan c).cfg Reg.FEED_BUF_DELAY * 100000 ≤ e.now) ∧
    (∃ (c : Nat) (t0 : Nat) (r : Nat) (au : Nat) (from_ : Nat) (s : State),
      let e := s.dev.advanceTo t0
      let x := e.decSlot r (1024 + c)
      e.feedRegions c = [r]
      ∧ x.auNext = some au
      ∧ tget? x.lastAt au = some from_
      ∧ e.now < from_ + cf (e.chan c).cfg Reg.FEED_BUF_DELAY * 100000) :=
  ⟨⟨3, 1, 7, 5, 0x21, [], .cycleBudget 3 ⟨1, 7, 5, []⟩, Reg.DE_WD_BUDGET, dejT 72 (some 0x20), mk (decd none (some 0x20)), by dsimp only; decide +kernel⟩,
   ⟨3, 1, 7, 1000000, 0x21, [], .cycleBudget 3 ⟨1, 7, 1000000, []⟩, Reg.DE_WD_BUDGET, dejT 72 none, mk (decd (some (picT [])) none), picT [], by dsimp only; exact ⟨by decide +kernel, by decide +kernel, by decide +kernel, by decide +kernel, by decide +kernel, by decide +kernel, by decide +kernel, by decide +kernel, by decide +kernel, by decide +kernel, (fun _ h => nomatch (show none = some _ from h))⟩⟩,
   ⟨3, 72, 7, [], ⟨1,10,0⟩, picT [0,1], mk ((decd (some (picT [0,1])) none).wr Reg.DS_STATE_TAINTED (wDS 3 72) 1), by dsimp only; decide +kernel⟩,
   ⟨3, 72, 7, [], ⟨1,10,0⟩, picT [0], mk (decd (some (picT [0])) none), by dsimp only; decide +kernel⟩,
   ⟨3, 72, [1,2], [1,2], ⟨1,10,0⟩, mk (decd none none), by decide +kernel⟩,
   ⟨3, 72, [1,2], [1,3], ⟨1,10,0⟩, mk (decd none none), by decide +kernel⟩,
   ⟨9, 7, 3, {fpkt 5 0 true with path := 1}, mk (feedd DecSlot.init), by dsimp only; decide +kernel⟩,
   ⟨9, 7, 3, fpkt 5 0 true, mk (feedd {DecSlot.init with seen := [(5, 0)]}), by dsimp only; decide +kernel⟩,
   ⟨9, 7, 3, fpkt 5 0 true, mk (feedd {DecSlot.init with auNext := some 3}), by dsimp only; exact ⟨by decide +kernel, by decide +kernel, by decide +kernel, by decide +kernel, by decide +kernel, ⟨3, by decide +kernel⟩⟩⟩,
   ⟨9, 7, 3, fpkt 5 3 false, mk (feedd {DecSlot.init with auNext := some 3}), by dsimp only; exact ⟨by decide +kernel, by decide +kernel, by decide +kernel, by decide +kernel, by decide +kernel, (fun a h => by cases (show some 3 = some a from h); decide +kernel)⟩⟩,
   ⟨9, 2000000000, 3, 3, 7, mk (feedd {DecSlot.init with auNext := some 3, lastAt := [(3, 7)]}), by dsimp only; decide +kernel⟩,
   ⟨9, 7, 3, 3, 7, mk (feedd {DecSlot.init with auNext := some 3, lastAt := [(3, 7)]}), by dsimp only; decide +kernel⟩⟩

theorem applies_PersonalityAnswersCommands :
    (∃ (n : Nat) (s : State) (code : Nat) (i : Instr),
      let running : Bool := s.dev.chState n == 1 || s.dev.chState n == 2
      n < 4
      ∧ s.dev.cl4On = true
      ∧ s.dev.cl4Ready = true
      ∧ s.dev.sys.cl4Cmd = none
      ∧ s.dev.rd Reg.ADM_STATUS_INTERNAL pSHM = 0
      ∧ s.dev.sys.admOpen = true
      ∧ ((code = 1 ∧ s.dev.cl4Bad n = true ∧ i ∈ [Instr.cl4Start n, .cl4Apply n]) ∨ (code = 2 ∧ s.dev.cl4Bad n = false ∧ s.dev.live n = true ∧ i = .cl4Start n) ∨ (code = 2 ∧ s.dev.cl4Bad n = false ∧ running = true ∧ s.dev.cl4Now n ≠ s.dev.cl4Settings n ∧ i = .cl4Apply n) ∨ (code = 4 ∧ s.dev.cl4Bad n = false ∧ s.dev.live n = false ∧ s.dev.cl4Format n = true ∧ i ∈ [Instr.cl4Start n, .cl4Apply n]) ∨ (code = 3 ∧ running = false ∧ i = .cl4Stop n))) ∧
    (∃ (n : Nat) (s : State),
      let running : Bool := s.dev.chState n == 1 || s.dev.chState n == 2
      n < 4
      ∧ s.dev.cl4On = true
      ∧ s.dev.cl4Ready = true
      ∧ s.dev.sys.cl4Cmd = none
      ∧ s.dev.rd Reg.ADM_STATUS_INTERNAL pSHM = 0
      ∧ s.dev.sys.admOpen = true
      ∧ running = true) ∧
    (∃ (n : Nat) (s : State) (op : Nat) (i : Instr),
      let running : Bool := s.dev.chState n == 1 || s.dev.chState n == 2
      n < 4
      ∧ s.dev.cl4On = true
      ∧ s.dev.cl4Ready = true
      ∧ s.dev.sys.cl4Cmd = none
      ∧ s.dev.rd Reg.ADM_STATUS_INTERNAL pSHM = 0
      ∧ s.dev.sys.admOpen = true
      ∧ (op, i) ∈ [(1, Instr.cl4Start n), (3, .cl4Apply n)]
      ∧ s.dev.cl4Bad n = false
      ∧ s.dev.cl4Format n = false
      ∧ (op = 1 → s.dev.live n = false)
      ∧ (op = 3 → running = false ∨ s.dev.cl4Now n = s.dev.cl4Settings n)) ∧
    (∃ (n : Nat) (op : Nat) (i : Instr) (x : Nat × Nat) (s : State),
      (op, i) ∈ [(1, Instr.cl4Start n), (2, .cl4Stop n), (3, .cl4Apply n)]
      ∧ s.dev.sys.cl4Cmd = some x
      ∧ x ≠ (op, n)) ∧
    (∃ (s : State),
      s.dev.cl4On = true
      ∧ s.dev.active 0 = true) :=
  ⟨⟨2, mk (cl4c.wr Reg.CH_PROG (cl4Ch 2) 0), 1, .cl4Start 2, by dsimp only; decide +kernel⟩,
   ⟨2, mk { cl4c.wr Reg.CH_STATE_STATE (wCHSTAT 2) 2 with chans := [(2, { Chan.init with regions := [0], cfg := cl4c.cl4Desc 2 })] }, by dsimp only; decide +kernel⟩,
   ⟨2, mk cl4m, 1, .cl4Start 2, by dsimp only; decide +kernel⟩,
   ⟨2, 1, .cl4Start 2, (2, 1), mk {cl4c with sys := {cl4c.sys with cl4Cmd := some (2, 1)}}, by decide +kernel⟩,
   ⟨mk { cl4c.wr Reg.CH_STATE_STATE (wCHSTAT 2) 2 with chans := [(2, { Chan.init with regions := [0], cfg := cl4c.cl4Desc 2 })] }, by decide +kernel⟩⟩

theorem applies_ControlPortReadsAndWrites :
    (∃ (n : Nat) (s : State),
      n < 4
      ∧ s.dev.cl4On = true
      ∧ s.dev.cl4Ready = true) ∧
    (∃ (header : Nat) (s : State),
      s.dev.cl4On = true
      ∧ (bitOf header 15 = true ∨ bitsOf header 10 4 ≠ 0)) ∧
    (∃ (header : Nat) (s : State),
      s.dev.cl4On = true
      ∧ bitOf header 15 = true
      ∧ bitsOf header 10 4 = 0) ∧
    (∃ (n : Nat) (t0 : Nat) (s : State),
      let e := s.dev.advanceTo t0
      let free := (tget e.sys.tsOut n (0, 0, 0)).2.2
      n < 4
      ∧ e.cl4On = true
      ∧ e.cl4Ready = true
      ∧ bitOf (e.rd Reg.ASI_CTRL_EN cl4B) n = true
      ∧ e.lnMode (4 + n) = 4
      ∧ (e.region 0).killed = false
      ∧ e.live n = true
      ∧ e.now < free) ∧
    (∃ (n : Nat) (t0 : Nat) (s : State),
      let e := s.dev.advanceTo t0
      let len := e.asiPacketNs n
      let free := (tget e.sys.tsOut n (0, 0, 0)).2.2
      n < 4
      ∧ e.cl4On = true
      ∧ e.cl4Ready = true
      ∧ bitOf (e.rd Reg.ASI_CTRL_EN cl4B) n = true
      ∧ e.lnMode (4 + n) = 4
      ∧ (e.region 0).killed = false
      ∧ e.live n = true
      ∧ free ≤ e.now
      ∧ (e.tsNext n n = none ∨ (∃ x, e.tsNext n n = some x ∧ e.now + len < x.1))) ∧
    (∃ (n : Nat) (t0 : Nat) (s : State) (x : Nat × Nat × TsPkt),
      let e := s.dev.advanceTo t0
      let free := (tget e.sys.tsOut n (0, 0, 0)).2.2
      n < 4
      ∧ e.cl4On = true
      ∧ e.cl4Ready = true
      ∧ bitOf (e.rd Reg.ASI_CTRL_EN cl4B) n = true
      ∧ e.lnMode (4 + n) = 4
      ∧ (e.region 0).killed = false
      ∧ e.live n = true
      ∧ free ≤ e.now
      ∧ e.tsNext n n = some x
      ∧ x.1 ≤ e.now) ∧
    (∃ (n : Nat) (t0 : Nat) (s : State) (x : Nat × Nat × TsPkt),
      let e := s.dev.advanceTo t0
      let len := e.asiPacketNs n
      let free := (tget e.sys.tsOut n (0, 0, 0)).2.2
      n < 4
      ∧ e.cl4On = true
      ∧ e.cl4Ready = true
      ∧ bitOf (e.rd Reg.ASI_CTRL_EN cl4B) n = true
      ∧ e.lnMode (4 + n) = 4
      ∧ (e.region 0).killed = false
      ∧ e.live n = true
      ∧ free ≤ e.now
      ∧ e.tsNext n n = some x
      ∧ e.now < x.1
      ∧ x.1 ≤ e.now + len) ∧
    (∃ (r : Nat),
      r ≠ 0) :=
  ⟨⟨3, mk cl4c, by decide +kernel⟩,
   ⟨0x8043, mk cl4c, by decide +kernel⟩,
   ⟨0xC042, mk cl4c, by decide +kernel⟩,
   ⟨2, 7, mk (asid 99 []), by dsimp only; decide +kernel⟩,
   ⟨2, 7, mk (asid 0 []), by dsimp only; exact ⟨by decide +kernel, by decide +kernel, by decide +kernel, by decide +kernel, by decide +kernel, by decide +kernel, by decide +kernel, by decide +kernel, .inl (by decide +kernel)⟩⟩,
   ⟨2, 7, mk (asid 0 [tsDu]), (5, 0, patPkt), by dsimp only; decide +kernel⟩,
   ⟨2, 4, mk (asid 0 [tsDu]), (5, 0, patPkt), by dsimp only; decide +kernel⟩,
   ⟨5, by decide +kernel⟩⟩

theorem applies_StepTakesTheFront :
    (∃ (c : Instr) (rest : List Instr) (s : State),
      s.pending = c :: rest) ∧
    (∃ (s : State),
      s.pending = []) :=
  ⟨⟨.rachisTick 1 7, [.rachisTick 2 7], {mk base with pending := [.rachisTick 1 7, .rachisTick 2 7]}, by decide +kernel⟩,
   ⟨mk base, by decide +kernel⟩⟩

theorem applies_TimebaseCountsEachClock :
    (∃ (s : State) (r : Nat),
      r < 8
      ∧ (r = s.dev.holder ∨ (s.dev.tb r).ofs = 0)) ∧
    (∃ (w : Nat) (r : Nat) (s : State),
      r < 8
      ∧ s.dev.readable w (blk r ixTIMEBASE + 0x100) = true) :=
  ⟨⟨mk base, 5, by decide +kernel⟩,
   ⟨1, 3, mk base, by decide +kernel⟩⟩

theorem applies_RegionMemorySurvives :
    (∃ (w : Nat) (r : Nat) (t0 : Nat) (i : Instr),
      i ∈ [Instr.pwrActive w r, .pwrIdle w r, .pwrNap w r, .pwrPark w r, .powerTransitionDone r t0]) ∧
    (∃ (page : Nat),
      (∀ r p, r < 8 → p < 4 → page ≠ mpPage r p)
      ∧ (∀ r, r < 8 → page ≠ blk r ixRGN)) ∧
    (∃ (straps : List Straps) (us : Nat),
      straps.length = 8
      ∧ 10 ≤ us) ∧
    (∃ (w : Nat) (r : Nat) (s : State),
      r < 8
      ∧ s.dev.holds w (blk r ixRGN) = true
      ∧ (s.dev.region r).held = false
      ∧ (¬ (s.dev.sys.mode = 1 ∧ (s.dev.region r).pwr = .park))) ∧
    (∃ (r : Nat) (p : Nat) (s : State),
      r < 8
      ∧ p < 4
      ∧ s.dev.rd Reg.MP_STATE_STATE (mpPage r p) = 3
      ∧ (s.dev.mp r p).panic = []) :=
  ⟨⟨1, 3, 7, .pwrPark 1 3, by decide +kernel⟩,
   ⟨blk 3 ixRCU, ⟨fun r p h1 h2 => (by decide +kernel : ∀ r, r < 8 → ∀ p, p < 4 → blk 3 ixRCU ≠ mpPage r p) r h1 p h2, by decide +kernel⟩⟩,
   ⟨List.replicate 8 ⟨0,0,0⟩, 10, by decide +kernel⟩,
   ⟨1, 3, {mk (own base (blk 3 ixRGN) 1) with ram := [(ramKey 3 5, 1)]}, by decide +kernel⟩,
   ⟨3, 2, {mk (memd 3) with ram := [(ramKey 3 (2*0x800000000), 1)]}, by decide +kernel⟩⟩

theorem applies_FusesOnlyGrow :
    (∃ (s : State) (t : State) (i : Nat),
      step s = .next t
      ∧ i < 3) ∧
    (∃ (s : State) (t : State) (k : List Nat),
      step s = .next t
      ∧ s.otp.custKey = some k) ∧
    (∃ (c : Instr) (s : State) (t : State),
      exec c s = .next t
      ∧ t.otp.svn ≠ s.otp.svn) ∧
    (∃ (w : Nat) (s : State),
      s.dev.holds w pGLUME = true) :=
  ⟨⟨mk base, (match step (mk base) with | .next t => t | _ => mk base), 2, ⟨rfl, by decide +kernel⟩⟩,
   ⟨{mk base with otp := {(mk base).otp with custKey := some [5]}}, (match step ({mk base with otp := {(mk base).otp with custKey := some [5]}}) with | .next t => t | _ => mk base), [5], ⟨rfl, by decide +kernel⟩⟩,
   ⟨.glSvnCommit 1 5, mk {own base pGLUME 1 with sys := {base.sys with svnRun := [5,6,7]}}, (match exec (.glSvnCommit 1 5) (mk {own base pGLUME 1 with sys := {base.sys with svnRun := [5,6,7]}}) with | .next t => t | _ => mk base), ⟨rfl, by decide +kernel⟩⟩,
   ⟨1, mk {own base pGLUME 1 with sys := {base.sys with svnRun := [5,6,7]}}, by decide +kernel⟩⟩

theorem applies_MemoryStaysCanonical :
    (∃ (s : State) (t : State),
      s.ramWf
      ∧ step s = .next t) :=
  ⟨mk base, (match step (mk base) with | .next t => t | _ => mk base), ⟨rfl, rfl⟩⟩

end Sys2Proof.Tests
end

section
/-! PROOFS. The timebase (R36, R37, R369, R384): what one clock adds to each region's count, and what a read of TB_NOW shows of it. -/

namespace Sys2Proof.Machine

/-! ### Folds over tables -/

/-- A fold that changes one entry per key leaves each key's change under that key. -/
theorem tget_foldl_tmod {α : Type} {l : List Nat} (hl : l.Nodup) (t : Tbl α) (x : α) (f : Nat → α → α) (k : Nat) :
    tget (l.foldl (fun m r => tmod m r x (f r)) t) k x = if k ∈ l then f k (tget t k x) else tget t k x := by
  induction l generalizing t with
  | nil => rfl
  | cons a l ih =>
    obtain ⟨ha, hl⟩ := List.nodup_cons.1 hl
    rw [List.foldl_cons, ih hl]
    by_cases hk : k = a
    · subst hk
      simp [ha]
    · simp [hk, tget_tmod_ne t x x (f a) hk]

/-- A fold that lists one value per element, under distinct keys, leaves each element's value under its key. -/
theorem tget_foldl_tput {α : Type} {key : Nat → Nat} (hkey : key.Injective) (val : Nat → α) (l : List Nat) (t : Tbl α) (x : α) (j : Nat) :
    tget (l.foldl (fun m i => tput m (key i) (val i)) t) (key j) x = if j ∈ l then val j else tget t (key j) x := by
  induction l generalizing t with
  | nil => rfl
  | cons a l ih =>
    rw [List.foldl_cons, ih]
    by_cases hj : j = a
    · subst hj
      simp
    · simp [hj, tget_tput_ne t (val a) x (hkey.ne hj)]

/-! ### The slew and the advance of time -/

/-- R37: the slew removes at most 100 ns per second, a ten-millionth of the time that passes. -/
theorem TbSt.natAbs_slew_le (x : TbSt) (delta : Nat) : (x.slew delta).natAbs ≤ delta / 10000000 := by
  unfold TbSt.slew clampInt
  omega

/-- A timebase on the holder's time is not slewed. -/
theorem TbSt.slew_of_ofs_zero {x : TbSt} (h : x.ofs = 0) (delta : Nat) : x.slew delta = 0 := by
  unfold TbSt.slew clampInt
  omega

/-- The slew never stops or turns back a count: what passes is added, less what the slew removes. -/
theorem TbSt.run_cnt (x : TbSt) (delta : Nat) : ((x.run delta).cnt : Int) = (x.cnt : Int) + (delta : Int) - x.slew delta := by
  have h := x.natAbs_slew_le delta
  simp only [TbSt.run]
  omega

/-- R36, R37: as time passes the holder's timebase takes all of it, every other region's its slewed part. -/
theorem Dev.advance_tb (d : Dev) (delta : Nat) {r : Nat} (hr : r < 8) :
    (d.advance delta).tb r = if r = d.holder then { d.tb r with cnt := (d.tb r).cnt + delta } else (d.tb r).run delta := by
  have hfold := tget_foldl_tmod (l := regions) List.nodup_range d.tbs ⟨0, 0⟩
    (fun r x => if r = d.holder then { x with cnt := x.cnt + delta } else x.run delta) r
  rw [if_pos (show r ∈ regions from List.mem_range.2 hr)] at hfold
  exact hfold

/-- A timebase that holds the package's time, or is level with it, advances by exactly the time that passes. -/
theorem Dev.advance_tb_of_level (d : Dev) (delta : Nat) {r : Nat} (hr : r < 8) (h : r = d.holder ∨ (d.tb r).ofs = 0) :
    (d.advance delta).tb r = ⟨(d.tb r).cnt + delta, (d.tb r).ofs⟩ := by
  rw [d.advance_tb delta hr]
  split
  · rfl
  · next hne =>
    have hofs := h.resolve_left hne
    simp [TbSt.run, TbSt.slew_of_ofs_zero hofs]

/-- Each timebase advances by the time that passes less a slew of at most 100 ns per second, which its offset loses. -/
theorem Dev.advance_tb_slewed (d : Dev) (delta : Nat) {r : Nat} (hr : r < 8) :
    ∃ z : Int, z.natAbs ≤ delta / 10000000 ∧ (((d.advance delta).tb r).cnt : Int) = ((d.tb r).cnt : Int) + (delta : Int) - z
      ∧ ((d.advance delta).tb r).ofs = (d.tb r).ofs - z := by
  rw [d.advance_tb delta hr]
  split
  · exact ⟨0, Nat.zero_le _, by simp, by simp⟩
  · exact ⟨(d.tb r).slew delta, (d.tb r).natAbs_slew_le delta, (d.tb r).run_cnt delta, rfl⟩

/-! ### The words of TB_NOW -/

/-- R384: a count in units of 2^-16 ns is the fraction, the nanoseconds of the second and the seconds of 48 bits. -/
theorem tbCount_mod_eq (u : Nat) :
    u % (2 ^ 16 * 1000000000 * 2 ^ 48) = u % 2 ^ 16 + 2 ^ 16 * (u / 2 ^ 16 % 1000000000 + 1000000000 * (u / 2 ^ 16 / 1000000000 % 2 ^ 48)) := by
  rw [Nat.mul_assoc, Nat.mod_mul, Nat.mod_mul]

/-- Three words that pack a 16-bit fraction, the nanoseconds of a second and 48-bit seconds give each part back (R384). -/
theorem tbWords_unpack {frac ns sec : Nat} (hf : frac < 2 ^ 16) (hn : ns < 1000000000) (hs : sec < 2 ^ 48) :
    let w0 := frac + ns % 2 ^ 16 * 2 ^ 16
    let w1 := ns / 2 ^ 16 + sec % 2 ^ 16 * 2 ^ 16
    let w2 := sec / 2 ^ 16
    (w0 < 2 ^ 32 ∧ w1 < 2 ^ 32 ∧ w2 < 2 ^ 32) ∧
      w0 % 2 ^ 16 = frac ∧ w0 / 2 ^ 16 + w1 % 2 ^ 16 * 2 ^ 16 = ns ∧ w1 / 2 ^ 16 + w2 * 2 ^ 16 = sec := by
  intro w0 w1 w2
  omega

/-- R36, R384: the three words are of 32 bits and hold the region's count down to 2^-16 ns, its nanoseconds below a second. -/
theorem Dev.tbWords_hold_count (d : Dev) (r : Nat) :
    ∃ w0 w1 w2, d.tbWords r = [w0, w1, w2] ∧ w0 < 2 ^ 32 ∧ w1 < 2 ^ 32 ∧ w2 < 2 ^ 32 ∧
      w0 / 2 ^ 16 + w1 % 2 ^ 16 * 2 ^ 16 < 1000000000 ∧
      w0 % 2 ^ 16 + 2 ^ 16 * (w0 / 2 ^ 16 + w1 % 2 ^ 16 * 2 ^ 16 + 1000000000 * (w1 / 2 ^ 16 + w2 * 2 ^ 16))
        = (d.tb r).cnt / 2 ^ 16 % (2 ^ 16 * 1000000000 * 2 ^ 48) := by
  have hns : (d.tb r).cnt / 2 ^ 16 / 2 ^ 16 % 1000000000 < 1000000000 := Nat.mod_lt _ (by decide)
  obtain ⟨⟨h0, h1, h2⟩, hfrac, hn, hsec⟩ :=
    tbWords_unpack (Nat.mod_lt ((d.tb r).cnt / 2 ^ 16) (Nat.two_pow_pos 16)) hns
      (Nat.mod_lt ((d.tb r).cnt / 2 ^ 16 / 2 ^ 16 / 1000000000) (Nat.two_pow_pos 48))
  refine ⟨_, _, _, rfl, h0, h1, h2, ?_, ?_⟩
  · rw [hn]
    exact hns
  · rw [hfrac, hn, hsec, tbCount_mod_eq]

/-! ### TB_NOW_READ -/

/-- What a read of TB_NOW needs of its address `a` in region `r`: the four words lie in the timebase block outside the MSI-X tables,
and only the lowest is read without a capture (R384, R392). -/
structure IsTbNow (r a : Nat) : Prop where
  place : ∀ i < 4, placeOf (a + 4 * i) = .block r ixTIMEBASE
  off : ∀ i < 4, pageOff (a + 4 * i) = 0x100 + 4 * i
  high : ∀ i < 4, isHighWord (a + 4 * i) = decide (i ≠ 0)
  words : multiWords a = 4
  aboveTables : 0xF01004 < a
  below : a + 12 < 0x40000000

/-- R384, R391: the address of each region's TB_NOW. -/
theorem isTbNow_blk {r : Nat} (hr : r < 8) : IsTbNow r (blk r ixTIMEBASE + 0x100) where
  place := (by decide +kernel : ∀ r < 8, ∀ i < 4, placeOf (blk r ixTIMEBASE + 0x100 + 4 * i) = .block r ixTIMEBASE) r hr
  off := (by decide +kernel : ∀ r < 8, ∀ i < 4, pageOff (blk r ixTIMEBASE + 0x100 + 4 * i) = 0x100 + 4 * i) r hr
  high := (by decide +kernel : ∀ r < 8, ∀ i < 4, isHighWord (blk r ixTIMEBASE + 0x100 + 4 * i) = decide (i ≠ 0)) r hr
  words := (by decide +kernel : ∀ r < 8, multiWords (blk r ixTIMEBASE + 0x100) = 4) r hr
  aboveTables := by simp only [blk, regBase]; omega
  below := by simp only [blk, regBase, ixTIMEBASE]; omega

/-- A reader's snapshot keeps each word of a field under a key of its own (R392). -/
theorem snapKey_word_injective (w a : Nat) : (fun i => snapKey w (a + 4 * i)).Injective := by
  intro i j h
  simp only [snapKey] at h
  omega

/-- A capture keeps every word of a multi-word field as it is at that clock (R392). -/
theorem Dev.capture_snaps (d : Dev) (w a : Nat) {i : Nat} (hi : i < multiWords a) :
    tget (d.capture w a).snaps (snapKey w (a + 4 * i)) 0 = d.liveWord w (a + 4 * i) := by
  have hfold := tget_foldl_tput (snapKey_word_injective w a) (fun i => d.liveWord w (a + 4 * i)) (List.range (multiWords a)) d.snaps 0 i
  rw [if_pos (List.mem_range.2 hi)] at hfold
  exact hfold

@[simp] theorem Dev.capture_readable (d : Dev) (w a v b : Nat) : (d.capture w a).readable v b = d.readable v b := rfl
@[simp] theorem Dev.capture_out (d : Dev) (w a : Nat) : (d.capture w a).out = d.out := rfl
@[simp] theorem Dev.capture_tbWords (d : Dev) (w a r : Nat) : (d.capture w a).tbWords r = d.tbWords r := rfl
@[simp] theorem Dev.capture_tbStatus (d : Dev) (w a r : Nat) : (d.capture w a).tbStatus r = d.tbStatus r := rfl

/-- The words of TB_NOW are readable together. -/
theorem IsTbNow.readable_word {r a : Nat} (ha : IsTbNow r a) (d : Dev) (w : Nat) {i : Nat} (hi : i < 4) :
    d.readable w (a + 4 * i) = d.readable w a := by
  have hbelow := ha.below
  have hplace0 : placeOf a = .block r ixTIMEBASE := ha.place 0 (by decide)
  have hlt : a + 4 * i < 0x40000000 := by omega
  have hlt0 : a < 0x40000000 := by omega
  rw [Dev.readable, Dev.readable, decide_eq_true hlt, decide_eq_true hlt0, guardOf, guardOf, ha.place i hi, hplace0]

/-- R384: the device computes the words of TB_NOW, and the status after them, when they are read. -/
theorem Dev.derived_tbNow (d : Dev) (w : Nat) {r addr o : Nat} (hplace : placeOf addr = .block r ixTIMEBASE) (hoff : pageOff addr = o)
    (hlo : 0x100 ≤ o) (hhi : o ≤ 0x10C) :
    d.derived w addr = if o < 0x10C then (d.tbWords r)[(o - 0x100) / 4]? else some (d.tbStatus r) := by
  have h0 : o ≠ 0 := by omega
  have h18 : o ≠ 0x18 := by omega
  have h38 : o ≠ 0x38 := by omega
  have h3C : o ≠ 0x3C := by omega
  have hrgn : ixTIMEBASE ≠ ixRGN := by decide
  have hcompose : ixTIMEBASE ≠ ixCOMPOSE := by decide
  rw [Dev.derived, hplace, hoff]
  simp only [h0, h18, h38, h3C, hrgn, hcompose, hlo, if_false, false_and, true_and]
  by_cases h : o < 0x10C
  · rw [if_pos h, if_pos h]
  · rw [if_neg h, if_neg h, if_pos (by omega)]

/-- Choosing among three words by offset, and the status past them, is the lookup in the list of four. -/
theorem words_or_status_eq_getD {i : Nat} (hi : i < 4) (w0 w1 w2 st : Nat) :
    (if 0x100 + 4 * i < 0x10C then [w0, w1, w2][(0x100 + 4 * i - 0x100) / 4]? else some st) = some (([w0, w1, w2] ++ [st]).getD i 0) := by
  obtain rfl | rfl | rfl | rfl : i = 0 ∨ i = 1 ∨ i = 2 ∨ i = 3 := by omega
  all_goals rfl

/-- R384: live, the four words are those of the region's count and its status. -/
theorem IsTbNow.liveWord_word {r a : Nat} (ha : IsTbNow r a) (d : Dev) (w : Nat) {i : Nat} (hi : i < 4) :
    d.liveWord w (a + 4 * i) = (d.tbWords r ++ [d.tbStatus r]).getD i 0 := by
  obtain ⟨w0, w1, w2, hwords, -⟩ := d.tbWords_hold_count r
  have hderived := d.derived_tbNow w (ha.place i hi) (ha.off i hi) (by omega) (by omega)
  rw [hwords, words_or_status_eq_getD hi] at hderived
  rw [Dev.liveWord, hderived, hwords]

/-- After a capture each word of TB_NOW reads as captured (R369). -/
theorem IsTbNow.capture_readWord {r a w : Nat} (ha : IsTbNow r a) {d : Dev} (h : d.readable w a = true) {i : Nat} (hi : i < 4) :
    (d.capture w a).readWord w (a + 4 * i) = (d.tbWords r ++ [d.tbStatus r]).getD i 0 := by
  have habove := ha.aboveTables
  have hread : d.readable w (a + 4 * i) = true := (ha.readable_word d w hi).trans h
  have hmsix : ¬ (0xF00000 ≤ a + 4 * i ∧ a + 4 * i < 0xF00400) := by omega
  have hpba0 : a + 4 * i ≠ 0xF01000 := by omega
  have hpba1 : a + 4 * i ≠ 0xF01004 := by omega
  rw [Dev.readWord, Dev.capture_readable, hread, if_neg (by decide), if_neg hmsix, if_neg hpba0, if_neg hpba1, ha.high i hi]
  by_cases hi0 : i = 0
  · rw [if_neg (by simp [hi0]), ha.liveWord_word _ w hi, Dev.capture_tbWords, Dev.capture_tbStatus]
  · rw [if_pos (by simp [hi0]), d.capture_snaps w a (ha.words ▸ hi), ha.liveWord_word d w hi]

/-- R369, R384: TB_NOW_READ by a reader that the page answers gives the three words and the status of one clock. -/
theorem execTbNowRead_of_readable {w r : Nat} {s : State} (hr : r < 8) (h : s.dev.readable w (blk r ixTIMEBASE + 0x100) = true) :
    execTbNowRead w r s = .next { s with dev :=
      (s.dev.capture w (blk r ixTIMEBASE + 0x100)).emit (.hostData w (s.dev.tbWords r ++ [s.dev.tbStatus r])) } := by
  have ha := isTbNow_blk hr
  simp only [execTbNowRead, State.onDev_eq, h, if_true]
  generalize blk r ixTIMEBASE + 0x100 = a at ha h
  have hlist : ∀ w0 w1 w2 st : Nat, (List.range 4).map (fun i => ([w0, w1, w2] ++ [st]).getD i 0) = [w0, w1, w2] ++ [st] :=
    fun _ _ _ _ => rfl
  obtain ⟨w0, w1, w2, htb, -⟩ := s.dev.tbWords_hold_count r
  have hwords : (List.range 4).map (fun i => (s.dev.capture w a).readWord w (a + 4 * i)) = s.dev.tbWords r ++ [s.dev.tbStatus r] :=
    calc (List.range 4).map (fun i => (s.dev.capture w a).readWord w (a + 4 * i))
        = (List.range 4).map (fun i => (s.dev.tbWords r ++ [s.dev.tbStatus r]).getD i 0) :=
          List.map_congr_left fun i hi => ha.capture_readWord h (List.mem_range.1 hi)
      _ = s.dev.tbWords r ++ [s.dev.tbStatus r] := by rw [htb, hlist]
  rw [hwords]

/-- The meaning of TB_NOW_READ. -/
theorem exec_tbNowRead (w r : Nat) (s : State) : exec (.tbNowRead w r) s = execTbNowRead w r s := rfl

/-! ### The obligation -/

/-- R36: TB_INC is 2 ns, in units of 2^-32 ns, after reset. -/
theorem State.reset_tbInc : State.reset.dev.tbInc = 0x200000000 := by decide

/-- Settles O55: one clock is the advance of every timebase by TB_INC and no other change; the words of TB_NOW are the count in
base 2^16, 10^9 and 2^48; TB_NOW_READ captures them at one clock. -/
theorem timebaseCountsEachClock : Obligations.TimebaseCountsEachClock := by
  unfold Obligations.TimebaseCountsEachClock
  refine ⟨fun s => ⟨fun r hr hlevel => ?_, fun r hr => s.dev.advance_tb_slewed s.dev.tbInc hr, rfl, rfl, rfl, rfl, rfl, rfl⟩,
    Dev.tbWords_hold_count, fun w r s hr hread => ?_, State.reset_tbInc⟩
  · have htb : s.clock.dev.tb r = ⟨(s.dev.tb r).cnt + s.dev.tbInc, (s.dev.tb r).ofs⟩ := s.dev.advance_tb_of_level s.dev.tbInc hr hlevel
    rw [htb]
    exact ⟨rfl, rfl⟩
  · rw [answers_iff ((exec_tbNowRead w r s).trans (execTbNowRead_of_readable hr hread)), Dev.emit_out, Dev.capture_out]

end Sys2Proof.Machine
end

section
/-! PROOFS. The Culm arbiters (R15, R288 to R300): what the third failure of one operation does to the registers where the
stored status registers of a replaced rendition list a key outside their windows (R119). -/

namespace Sys2Proof.Machine

/-! ### A replaced rendition whose status registers list a Culm counter -/

/-- A coding task that CE 0 holds, still with slack for its cost. -/
def heldCodingTask : Entry :=
  .task { cls := 0, aff := 0, nslot := 0, opt := 0, chan := 0, noch := false, gen := 0, rd := 0, cost := 0, deadline := 0,
          wake := 0, ctx := 0, keys := [] } [] (.held 0 none) 0

/-- Its row: frame 0 of rendition 0 of channel 0, as entry 0 of the store. -/
def heldCodingJob : CeJob :=
  { task := 0, gen := 0, c := 0, rd := 0, k := 0, j := 0, i := 0, row := 0, budget := 0, level := 0, floor := false,
    minimal := false, x := 0, cycles := 0, allow := 0, spent := 0, cDone := 0, qrow := 0, lines := (0, 0) }

/-- Requester 4, which is CE 0, owns target 0 since cycle 0, and its operation has failed twice. -/
def twiceFailedArb : Arb := { Arb.init with owner := some (4, 1, 0), fails := [(4, 2)] }

/-- Region 0 runs while CE 0 codes a frame of a replaced rendition, whose stored status registers list 7 under the key of
CU_REQ_4.REVOKE, outside the rendition's windows. No run from reset stores such a table; `State` admits it. -/
def misfiledRevokeDev : Dev :=
  { Dev.reset with
    rgn := [(0, { Rgn.init with core := .run })]
    arbs := [(0, twiceFailedArb)]
    ras := [(0, { Rachis.init with ents := [(0, heldCodingTask)] })]
    ces := [(0, heldCodingJob)]
    olds := [(0, ({ Rend.init with ended := some 1 }, [(Reg.CU_REQ_REVOKE.key (cuPage 0) 4, 7)]))] }

/-- The state with that device. -/
def misfiledRevokeState : State := { State.reset with dev := misfiledRevokeDev }

/-- No revocation of CE 0 is counted yet (R296). -/
theorem misfiledRevokeState_revoke :
    misfiledRevokeState.dev.rd Reg.CU_REQ_REVOKE (cuPage 0) 4 = 0 := by decide +kernel

/-- The third revocation reposts the task under the replaced rendition, and the exchange of its status registers overwrites the count
of one with the 7 that they list. -/
theorem culmRevoke_misfiledRevokeState :
    Answers (.culmRevoke 0 0 64) misfiledRevokeState (fun t => t.dev.rd Reg.CU_REQ_REVOKE (cuPage 0) 4 = 7) :=
  ⟨_, rfl, by decide +kernel⟩

/-- A command answers one next state, which has all that it is said to answer. -/
theorem Answers.and {i : Instr} {s : State} {P Q : State → Prop} (hp : Answers i s P) (hq : Answers i s Q) :
    Answers i s (fun t => P t ∧ Q t) :=
  let ⟨t, ht, h⟩ := hp
  ⟨t, ht, h, (answers_iff ht).1 hq⟩

/-- Refutes O33: its clause on revoked grants is about every `State`, and one of them keeps, with a replaced rendition, a value for
CU_REQ_4.REVOKE. The third failure of CE 0's operation goes to its coding task, whose repost exchanges the two renditions
(`Dev.swapOld`); the listed value stands where the count should. The stored tables of a run from reset list keys of the rendition's
own windows only. -/
theorem not_arbitersGrant : ¬ Obligations.ArbitersGrant := by
  intro h
  unfold Obligations.ArbitersGrant at h
  obtain ⟨-, -, -, hrevoke, -⟩ := h
  have hcounted := hrevoke 0 0 64 4 1 0 misfiledRevokeState (by decide +kernel) (by decide) (by decide +kernel) (by decide) (by decide)
  obtain ⟨t, -, ⟨-, -, hone, -⟩, hseven⟩ := hcounted.and culmRevoke_misfiledRevokeState
  rw [misfiledRevokeState_revoke, hseven] at hone
  exact absurd hone (by decide)

end Sys2Proof.Machine
end

section
/-! PROOFS. The fuses (R433, R444): SVN_COMMIT and CUST_KEY are the only commands that program them, each as a command of its own or as a
write of GL_CMD; neither takes back what is fused. -/

namespace Sys2Proof.Machine

/-! ### Operations that leave the fuses alone -/

/-- A fold of operations that each leave the fuses alone does so too. -/
theorem State.foldl_otp {α : Type} (l : List α) (f : State → α → State) (s : State) (h : ∀ x a, (f x a).otp = x.otp) :
    (l.foldl f s).otp = s.otp :=
  List.foldlRecOn l f (motive := fun x => x.otp = s.otp) rfl fun x hx a _ => (h x a).trans hx

@[simp] theorem State.memPut_otp (s : State) (r addr : Nat) (bytes : List Byte) : (s.memPut r addr bytes).otp = s.otp := rfl

@[simp] theorem State.loseRam_otp (s : State) (r lo hi : Nat) : (s.loseRam r lo hi).otp = s.otp := rfl

@[simp] theorem State.memLoad_otp (s : State) (r addr len : Nat) (errs : List Nat) : (s.memLoad r addr len errs).1.otp = s.otp := rfl

@[simp] theorem State.readNow_otp (s : State) (r : Nat) (x : WaitRead) : (s.readNow r x).otp = s.otp := rfl

@[simp] theorem State.serveRead_otp (s : State) (r p : Nat) (x : WaitRead) : (s.serveRead r p x).otp = s.otp := rfl

@[simp] theorem State.serveReads_otp (r p n : Nat) (s : State) : (s.serveReads r p n).otp = s.otp := by
  induction n generalizing s with
  | zero => rfl
  | succ n ih =>
    unfold State.serveReads
    split
    · exact ih _
    · rfl

@[simp] theorem State.pumpReads_otp (s : State) (r p : Nat) : (s.pumpReads r p).otp = s.otp := State.serveReads_otp r p _ s

@[simp] theorem State.readsFirst_otp (s : State) (r q : Nat) (cws : List (Nat × Nat × Nat)) : (s.readsFirst r q cws).otp = s.otp :=
  State.foldl_otp _ _ s fun x p => State.foldl_otp _ _ x fun y rd => y.serveRead_otp r p rd

@[simp] theorem State.memStore_otp (s : State) (r q addr : Nat) (data : List Byte) (errs : List Nat) :
    (s.memStore r q addr data errs).otp = s.otp := by
  simp only [State.memStore, State.memPut_otp, State.readsFirst_otp]

@[simp] theorem State.dropLost_otp (s : State) (r p : Nat) : (s.dropLost r p).otp = s.otp := by
  unfold State.dropLost
  split <;> rfl

@[simp] theorem State.statPut_otp (s : State) (c rd : Nat) (bytes : List Nat) : (s.statPut c rd bytes).otp = s.otp := by
  simp only [State.statPut, apply_ite State.otp, State.memPut_otp, ite_self]

@[simp] theorem State.obsFlow_otp (s : State) (r f : Nat) : (s.obsFlow r f).otp = s.otp := by
  simp only [State.obsFlow, apply_ite State.otp, State.memPut_otp, ite_self]

@[simp] theorem State.powerReset_otp (s : State) (pin : Bool) (straps : List Straps) : (s.powerReset pin straps).otp = s.otp := by
  unfold State.powerReset
  split <;> rfl

@[simp] theorem State.regionReset_otp (s : State) (r cause down : Nat) : (s.regionReset r cause down).otp = s.otp := by
  unfold State.regionReset
  split <;> rfl

/-- The lock rules around a command that leaves the fuses alone. -/
theorem State.lockedS_otp (s : State) (w page : Nat) {f : State → State} (h : ∀ x, (f x).otp = x.otp) :
    (s.lockedS w page f).otp = s.otp := by
  unfold State.lockedS
  split
  · exact h _
  · rfl

@[simp] theorem State.softReset_otp (s : State) (page : Nat) : (s.softReset page).otp = s.otp := by
  unfold State.softReset
  split
  case h_1 => split <;> rfl
  case h_2 =>
    split
    · exact State.regionReset_otp ..
    · dsimp only
      split <;> rfl
  case h_3 => rfl

@[simp] theorem State.ctrlWrite_otp (s : State) (w page v : Nat) : (s.ctrlWrite w page v).otp = s.otp :=
  s.lockedS_otp w page fun x => by
    dsimp only
    split
    · exact State.softReset_otp _ page
    · rfl

@[simp] theorem State.commonWrite_otp (s : State) (w page o v : Nat) : (s.commonWrite w page o v).otp = s.otp := by
  simp only [State.commonWrite, apply_ite State.otp, State.ctrlWrite_otp, ite_self]

@[simp] theorem State.bar2_otp (s : State) (h off len : Nat) (wdata : Option (List Byte)) (errs : List Nat) :
    (s.bar2 h off len wdata errs).otp = s.otp := by
  cases wdata with
  | some data => simp only [State.bar2, apply_ite State.otp, State.memStore_otp, ite_self]
  | none =>
    simp only [State.bar2, apply_ite State.otp]
    split
    · rfl
    · split
      · rfl
      · split <;> rfl

/-! ### Commands that leave the fuses alone -/

/-- The outcome is a next state with the fuses of `s`. -/
inductive KeepsFuses (s : State) : Host.Outcome State Fault Refusal → Prop
  | next {t : State} (h : t.otp = s.otp) : KeepsFuses s (.next t)

theorem KeepsFuses.otp_eq {s t : State} (h : KeepsFuses s (.next t)) : t.otp = s.otp := by
  cases h
  assumption

theorem execStatRecordWrite_keepsFuses (c rd k t : Nat) (s : State) : KeepsFuses s (execStatRecordWrite c rd k t s) := by
  -- Only the name is unfolded: given its operands, the kernel would evaluate what the match looks at, with 2^32 in unary.
  conv in execStatRecordWrite => delta execStatRecordWrite
  extract_lets d s' first acc
  clear_value acc
  split
  · exact .next rfl
  · extract_lets v bytes s''
    split
    · exact .next rfl
    · exact .next (State.statPut_otp ..)

theorem execObsSample_keepsFuses (r t : Nat) (s : State) : KeepsFuses s (execObsSample r t s) := by
  unfold execObsSample
  extract_lets d pg s'
  split
  · exact .next (State.foldl_otp _ _ _ fun x f => x.obsFlow_otp r f)
  · exact .next rfl

theorem execMemRead_keepsFuses (r : Nat) (q : MemReq) (addr len need : Nat) (errs : List Nat) (s : State) :
    KeepsFuses s (execMemRead r q addr len need errs s) := by
  unfold execMemRead
  split
  · exact .next rfl
  split
  · exact .next rfl
  extract_lets s' x
  split
  · exact .next (State.readNow_otp ..)
  · split <;> exact .next (State.pumpReads_otp ..)

theorem execMemWrite_keepsFuses (r : Nat) (q : MemReq) (addr need : Nat) (data : MemData) (s : State) :
    KeepsFuses s (execMemWrite r q addr need data s) := by
  unfold execMemWrite
  split
  · exact .next rfl
  split
  · exact .next rfl
  · extract_lets s'
    split
    · exact .next (State.memStore_otp ..)
    · exact .next rfl

theorem execWriteQueueIssue_keepsFuses (r p : Nat) (s : State) : KeepsFuses s (execWriteQueueIssue r p s) := by
  unfold execWriteQueueIssue
  extract_lets d
  split
  · exact .next rfl
  split
  · exact .next rfl
  · exact .next (State.pumpReads_otp ..)

theorem execTrainingComplete_keepsFuses (r p : Nat) (o : TrainOutcome) (temp margin : Nat) (s : State) :
    KeepsFuses s (execTrainingComplete r p o temp margin s) := by
  unfold execTrainingComplete
  split
  · exact .next (State.dropLost_otp ..)
  · exact .next rfl

theorem execRetrainEnd_keepsFuses (r p : Nat) (pass : Bool) (temp margin t : Nat) (s : State) :
    KeepsFuses s (execRetrainEnd r p pass temp margin t s) := by
  unfold execRetrainEnd
  extract_lets d
  split
  · exact .next rfl
  · exact .next ((State.pumpReads_otp ..).trans (State.dropLost_otp ..))

theorem execPinReset_keepsFuses (straps : List Straps) (us : Nat) (s : State) : KeepsFuses s (execPinReset straps us s) :=
  .next (by split <;> simp)

theorem execRailFault_keepsFuses (rail : RailMv) (ns : Nat) (straps : List Straps) (s : State) :
    KeepsFuses s (execRailFault rail ns straps s) :=
  .next (by split <;> simp)

theorem execRegionReset_keepsFuses (w r : Nat) (s : State) : KeepsFuses s (execRegionReset w r s) :=
  .next <| by
    split
    · exact s.lockedS_otp w _ fun x => x.regionReset_otp r 3 3
    · rfl

theorem execThermalTrip_keepsFuses (r : Nat) (tj : Int) (s : State) : KeepsFuses s (execThermalTrip r tj s) := by
  unfold execThermalTrip
  split
  · exact .next rfl
  · extract_lets b d d'
    split
    · exact .next rfl
    · exact .next (State.regionReset_otp ..)

theorem execReturnReset_keepsFuses (n slot t : Nat) (s : State) : KeepsFuses s (execReturnReset n slot t s) := by
  -- The name alone, as for STAT_RECORD_WRITE.
  conv in execReturnReset => delta execReturnReset
  extract_lets d s'
  split
  · extract_lets r
    split
    · exact .next (State.regionReset_otp ..)
    · exact .next rfl
  · exact .next rfl

/-- No command but those listed as programming fuses changes one: the effect of most lies in the device alone, and those that reach
further write or lose region memory. -/
theorem exec_keepsFuses {i : Instr} (h : i.programsFuses = false) (s : State) : KeepsFuses s (exec i s) := by
  cases i with
  | glSvnCommit | glCustKey | registerWrite => cases h
  | statRecordWrite => exact execStatRecordWrite_keepsFuses ..
  | obsSample => exact execObsSample_keepsFuses ..
  | memRead => exact execMemRead_keepsFuses ..
  | memWrite => exact execMemWrite_keepsFuses ..
  | writeQueueIssue => exact execWriteQueueIssue_keepsFuses ..
  | trainingComplete => exact execTrainingComplete_keepsFuses ..
  | retrainEnd => exact execRetrainEnd_keepsFuses ..
  | por => exact .next (State.powerReset_otp ..)
  | pinReset => exact execPinReset_keepsFuses ..
  | railFault => exact execRailFault_keepsFuses ..
  | regionReset => exact execRegionReset_keepsFuses ..
  | thermalTrip => exact execThermalTrip_keepsFuses ..
  | returnReset => exact execReturnReset_keepsFuses ..
  | blockReset w page => exact .next (s.lockedS_otp w page fun x => x.softReset_otp page)
  | bar2Access => exact .next (State.bar2_otp ..)
  | _ => exact .next rfl

/-! ### What programming does to the fuses -/

/-- What one command can do to the fuses: nothing; raise the SVNs to those that run, where `commit` says that it is an SVN_COMMIT; or
fuse the hash of a customer key where none is. -/
inductive FuseChange (commit : Prop) (s t : State) : Prop
  | kept (h : t.otp = s.otp)
  | svnRaised (hc : commit) (h : t.otp = { s.otp with svn := svnMax s.otp.svn s.dev.sys.svnRun })
  | keyFused (hnone : s.otp.custKey = none) (hash : List Nat) (h : t.otp = { s.otp with custKey := some hash })

theorem FuseChange.imp {p q : Prop} {s t : State} (h : FuseChange p s t) (f : p → q) : FuseChange q s t := by
  cases h with
  | kept h => exact .kept h
  | svnRaised hc h => exact .svnRaised (f hc) h
  | keyFused hnone hash h => exact .keyFused hnone hash h

/-- SVN_COMMIT fuses the running SVNs, or nothing when the page does not take it. -/
theorem State.svnCommit_fuseChange (s : State) (w tag : Nat) : FuseChange True s (s.svnCommit w tag) := by
  by_cases hopen : s.dev.glOpen w = true
  · exact .svnRaised trivial (if_pos hopen)
  · exact .kept (if_neg hopen)

/-- CUST_KEY fuses a hash only where none is. -/
theorem State.custKey_fuseChange (s : State) (w tag : Nat) : FuseChange False s (s.custKey w tag) := by
  by_cases hfuse : (s.dev.glOpen w && !s.otp.custKey.isSome) = true
  · exact .keyFused (by simpa using (Bool.and_eq_true_iff.1 hfuse).2) _ (if_pos hfuse)
  · exact .kept (if_neg hfuse)

/-- R444: of the OPs of GL_CMD only 4 changes an SVN. -/
theorem State.glCommand_fuseChange (s : State) (w op tag : Nat) : FuseChange (op = 4) s (s.glCommand w op tag) := by
  unfold State.glCommand
  split
  · exact .kept rfl
  split
  · exact .kept rfl
  split
  · exact .kept rfl
  split
  · next hop => exact (s.svnCommit_fuseChange w tag).imp fun _ => hop
  split
  · exact (s.custKey_fuseChange w tag).imp False.elim
  · exact .kept rfl

theorem State.glWord_fuseChange (s : State) (w v : Nat) : FuseChange (v % 16 = 4) s (s.glWord w v) := by
  simp only [State.glWord]
  split
  · refine .kept ?_
    repeat' split
    all_goals rfl
  · exact s.glCommand_fuseChange w _ _

/-- Of the chip pages' words beyond the common layout only GL_CMD reaches the fuses. -/
theorem State.chipWrite_fuseChange (s : State) (w j o v : Nat) :
    FuseChange ((j = 1 ∧ o = 0x100) ∧ v % 16 = 4) s (s.chipWrite w j o v) := by
  simp only [State.chipWrite]
  split
  · exact .kept rfl
  split
  · next hcmd => exact (s.glWord_fuseChange w v).imp fun hop => ⟨hcmd, hop⟩
  · refine .kept ?_
    repeat' split
    all_goals rfl

/-- No window is a chip page. -/
theorem windowAt_ne_chip (r o j : Nat) : windowAt r o ≠ .chip j := by
  simp [windowAt, apply_ite (· = Place.chip j)]

/-- R391: the address of GL_CMD is the only one at that place. -/
theorem eq_glCmd_of_place {addr : Nat} (hplace : placeOf addr = .chip 1) (hoff : pageOff addr = 0x100) : addr = 0x1100 := by
  unfold placeOf at hplace
  unfold pageOff at hoff
  split at hplace
  · have hpage : addr / 0x1000 = 1 := Place.chip.inj hplace
    omega
  dsimp only at hplace
  split at hplace
  · cases hplace
  split at hplace
  · cases hplace
  split at hplace
  · split at hplace <;> cases hplace
  split at hplace
  · split at hplace <;> cases hplace
  split at hplace
  · cases hplace
  · exact absurd hplace (windowAt_ne_chip _ _ _)

/-- R391, R433: of the writes of BAR0 only that of GL_CMD with OP 4 changes an SVN. -/
theorem State.regWrite_fuseChange (s : State) (w addr v : Nat) :
    FuseChange (addr = 0x1100 ∧ v % 16 = 4) s (s.regWrite w addr v) := by
  simp only [State.regWrite]
  split
  · exact .kept rfl
  split
  · exact .kept rfl
  split
  · exact .kept rfl
  split
  · split <;> exact .kept rfl
  split
  case h_1 => exact .kept rfl
  case h_2 j hplace =>
    split
    · exact .kept (State.commonWrite_otp ..)
    · refine (s.chipWrite_fuseChange w j _ _).imp ?_
      rintro ⟨⟨rfl, hoff⟩, hop⟩
      exact ⟨eq_glCmd_of_place hplace hoff, by omega⟩
  case h_3 =>
    split
    · exact .kept (State.commonWrite_otp ..)
    · exact .kept rfl
  case h_4 => exact .kept rfl

/-- SVN_COMMIT (R433), as a command or as a write of GL_CMD with OP 4. -/
def IsSvnCommit (c : Instr) : Prop :=
  (∃ w tag, c = .glSvnCommit w tag) ∨ (∃ w v, c = .registerWrite w 0x1100 v ∧ v % 16 = 4)

/-- What each command does to the fuses. -/
theorem exec_fuseChange {c : Instr} {s t : State} (h : exec c s = .next t) : FuseChange (IsSvnCommit c) s t := by
  by_cases hfuses : c.programsFuses = false
  · exact .kept ((h ▸ exec_keepsFuses hfuses s).otp_eq)
  cases c with
  | glSvnCommit w tag =>
    cases h
    exact (s.svnCommit_fuseChange w tag).imp fun _ => .inl ⟨w, tag, rfl⟩
  | glCustKey w tag =>
    cases h
    exact (s.custKey_fuseChange w tag).imp False.elim
  | registerWrite w addr v =>
    cases h
    refine (s.regWrite_fuseChange w addr v).imp ?_
    rintro ⟨rfl, hop⟩
    exact .inr ⟨w, v, rfl, hop⟩
  | _ => exact absurd rfl hfuses

/-! ### What a change of the fuses keeps -/

/-- Of each class the fused SVN after SVN_COMMIT. -/
theorem getD_svnMax (fused run : List Nat) {i : Nat} (hi : i < 3) :
    (svnMax fused run).getD i 0 = max (fused.getD i 0) (run.getD i 0) := by
  simp [svnMax, List.getD_eq_getElem?_getD, hi]

/-- No change of the fuses lowers an SVN. -/
theorem FuseChange.svn_le {p : Prop} {s t : State} (h : FuseChange p s t) {i : Nat} (hi : i < 3) :
    s.otp.svn.getD i 0 ≤ t.otp.svn.getD i 0 := by
  cases h with
  | kept h => exact Nat.le_of_eq (congrArg (·.svn.getD i 0) h.symm)
  | svnRaised _ h =>
    have hmax : t.otp.svn.getD i 0 = max (s.otp.svn.getD i 0) (s.dev.sys.svnRun.getD i 0) :=
      (congrArg (·.svn.getD i 0) h).trans (getD_svnMax _ _ hi)
    exact hmax ▸ Nat.le_max_left ..
  | keyFused _ _ h => exact Nat.le_of_eq (congrArg (·.svn.getD i 0) h.symm)

/-- No change of the fuses reaches a key hash that is fused. -/
theorem FuseChange.custKey_eq {p : Prop} {s t : State} (h : FuseChange p s t) {k : List Nat} (hk : s.otp.custKey = some k) :
    t.otp.custKey = some k := by
  cases h with
  | kept h => rw [h, hk]
  | svnRaised _ h => rw [h, hk]
  | keyFused hnone _ _ => rw [hk] at hnone; cases hnone

/-- No change of the fuses reaches the consent bit or the serial number. -/
theorem FuseChange.consent_serial_eq {p : Prop} {s t : State} (h : FuseChange p s t) :
    t.otp.consent = s.otp.consent ∧ t.otp.serial = s.otp.serial := by
  cases h with
  | kept h => rw [h]; exact ⟨rfl, rfl⟩
  | svnRaised _ h => rw [h]; exact ⟨rfl, rfl⟩
  | keyFused _ _ h => rw [h]; exact ⟨rfl, rfl⟩

/-- A change of the SVNs is an SVN_COMMIT's. -/
theorem FuseChange.of_svn_ne {p : Prop} {s t : State} (h : FuseChange p s t) (hne : t.otp.svn ≠ s.otp.svn) :
    t.otp.svn = svnMax s.otp.svn s.dev.sys.svnRun ∧ p := by
  cases h with
  | kept h => exact absurd (congrArg Otp.svn h) hne
  | svnRaised hc h => exact ⟨congrArg Otp.svn h, hc⟩
  | keyFused _ _ h => exact absurd (congrArg Otp.svn h) hne

/-- A step changes the fuses as a command does; one clock changes nothing. -/
theorem step_fuseChange {s t : State} (h : step s = .next t) : FuseChange True s t := by
  unfold step at h
  split at h
  · cases h
    exact .kept rfl
  · cases exec_fuseChange h with
    | kept h => exact .kept h
    | svnRaised _ h => exact .svnRaised trivial h
    | keyFused hnone hash h => exact .keyFused hnone hash h

/-! ### The fuse commands under the lock of GLUME -/

/-- A GL_CMD of the lock's holder takes effect. -/
theorem Dev.glOpen_of_holds {d : Dev} {w : Nat} (h : d.holds w pGLUME = true) : d.glOpen w = true := by
  simp only [Dev.holds, Bool.and_eq_true, Bool.not_eq_true', bne_iff_ne] at h
  obtain ⟨⟨⟨⟨-, hanswers⟩, hsuspect⟩, howns⟩, hlease⟩ := h
  simp [Dev.glOpen, Dev.expire_of_lease hlease, Dev.gate, hanswers, hsuspect, howns]

/-- R444: the code that a result shows. -/
theorem Dev.glPost_code (d : Dev) (tag code : Nat) : (d.glPost tag code).rd Reg.GL_RESULT_CODE pGLUME = code % 2 ^ 8 := by
  unfold Dev.glPost
  rw [Dev.rd_wr_ne _ _ _ _ _ _ _ _ (by decide), Dev.rd_wr_ne _ _ _ _ _ _ _ _ (by decide)]
  exact Dev.rd_wr_same ..

/-- R398, R444: the code that a GL_CMD of the lock's holder answers. -/
theorem Dev.glCmd_code_of_holds {d : Dev} {w : Nat} (h : d.holds w pGLUME = true) (f : Dev → Dev) (tag code : Nat) :
    (d.glCmd w (fun d => (f d).glPost tag code)).rd Reg.GL_RESULT_CODE pGLUME = code % 2 ^ 8 := by
  unfold Dev.glCmd
  rw [Dev.locked_of_holds h]
  exact Dev.glPost_code ..

/-- R433: SVN_COMMIT under the lock fuses the SVNs that run. -/
theorem State.svnCommit_otp_svn {s : State} {w : Nat} (h : s.dev.holds w pGLUME = true) (tag : Nat) :
    (s.svnCommit w tag).otp.svn = svnMax s.otp.svn s.dev.sys.svnRun :=
  congrArg Otp.svn (if_pos (Dev.glOpen_of_holds h))

/-- R433: CUST_KEY under the lock fuses the hash of the key at GL_TOKEN where none is fused. -/
theorem State.custKey_fuses_hash {s : State} {w : Nat} (h : s.dev.holds w pGLUME = true) (hnone : s.otp.custKey = none) (tag : Nat) :
    (s.custKey w tag).otp.custKey = some (Config.shake256 ((s.dev.glBytes Reg.GL_TOKEN 128).take 57)) := by
  have hfuse : (s.dev.glOpen w && !s.otp.custKey.isSome) = true := by simp [Dev.glOpen_of_holds h, hnone]
  exact congrArg Otp.custKey (if_pos hfuse)

/-- R433: a second CUST_KEY changes no fuse. -/
theorem State.custKey_otp_of_fused {s : State} (hfused : s.otp.custKey.isSome = true) (w tag : Nat) :
    (s.custKey w tag).otp = s.otp := if_neg (by simp [hfused])

/-- What CUST_KEY does to the device: GL_STATE follows the fuses, and the code is FUSE_LOCKED where a key is fused. -/
theorem State.custKey_dev (s : State) (w tag : Nat) :
    (s.custKey w tag).dev = s.dev.glCmd w (fun d =>
      (d.syncGl (s.custKey w tag).otp).glPost (tag % 256) (if s.otp.custKey.isSome then 0x4D else 0)) := rfl

/-- R433: a second CUST_KEY under the lock answers FUSE_LOCKED. -/
theorem State.custKey_code_of_fused {s : State} {w : Nat} (h : s.dev.holds w pGLUME = true) (hfused : s.otp.custKey.isSome = true)
    (tag : Nat) : (s.custKey w tag).dev.rd Reg.GL_RESULT_CODE pGLUME = 0x4D := by
  have hcode : (if s.otp.custKey.isSome then 0x4D else 0) = 0x4D := if_pos hfused
  rw [State.custKey_dev, hcode]
  exact Dev.glCmd_code_of_holds h (fun d => d.syncGl (s.custKey w tag).otp) (tag % 256) 0x4D

/-! ### The obligation -/

/-- Settles O58: every command's effect on the fuses is a `FuseChange`, which keeps what is fused; under the lock SVN_COMMIT and
CUST_KEY do what R433 says. -/
theorem fusesOnlyGrow : Obligations.FusesOnlyGrow := by
  unfold Obligations.FusesOnlyGrow
  refine ⟨fun s t h => ?_, fun c s t h hne => (exec_fuseChange h).of_svn_ne hne, fun w tag s h => ?_, fun w tag s h => ?_⟩
  · have hchange := step_fuseChange h
    exact ⟨fun i hi => hchange.svn_le hi, fun k hk => hchange.custKey_eq hk, hchange.consent_serial_eq⟩
  · exact ⟨_, rfl, State.svnCommit_otp_svn h tag⟩
  · refine ⟨_, rfl, fun hnone => State.custKey_fuses_hash h hnone tag, fun hsome => ?_⟩
    have hfused := Option.isSome_iff_ne_none.2 hsome
    exact ⟨State.custKey_otp_of_fused hfused w tag, State.custKey_code_of_fused h hfused tag⟩

end Sys2Proof.Machine
end

section
/-! PROOFS. The loss of a memory port (R320, R456): what the end of a failed retraining does to region memory where the stored status
registers of a replaced rendition list the port's state (R119). -/

namespace Sys2Proof.Machine

/-! ### A replaced rendition whose status registers list a port's state -/

/-- A coding task that is ready for CE 0: its one slot, BUDGET_GRANTED (R224) for row 0 of frame 0 of rendition 0 of channel 0, is filled. -/
def readyCodingTask : Entry :=
  .task { cls := 0, aff := 1, nslot := 1, opt := 0, chan := 0, noch := false, gen := 0, rd := 0, cost := 1, deadline := 0,
          wake := 0, ctx := 0, keys := [mkKey 4 0 0 0 0 0] } [some (0, 0)] (.ready 0) 1

/-- The dispatcher of a region where that task is ready and CE 0 asks for work. -/
def askedRachis : Rachis :=
  { Rachis.init with ents := [(0, readyCodingTask)], reqs := [⟨0, 0, 0, ⟨.none, []⟩⟩] }

/-- Region 0 runs in NORMAL dispatch while its port 0 retrains. The stored status registers of a replaced rendition list the port as in
service, under a key outside the rendition's windows. No run from reset stores such a table; `State` admits it. -/
def misfiledPortDev : Dev :=
  { Dev.reset with
    regs := [(Reg.RA_MODE_MODE.key (blk 0 ixRACHIS) 0, 1), (Reg.MP_STATE_STATE.key (mpPage 0 0) 0, 3)]
    rgn := [(0, { Rgn.init with core := .run })]
    ras := [(0, askedRachis)]
    olds := [(0, ({ Rend.init with ended := some 1 }, [(Reg.MP_STATE_STATE.key (mpPage 0 0) 0, 2)]))] }

/-- The state with that device, and a byte at address 0 of region 0, in the window of port 0. -/
def misfiledPortState : State := { State.reset with ram := [(ramKey 0 0, 7)], dev := misfiledPortDev }

/-- Port 0 retrains, and no requester is in panic (R319). -/
theorem misfiledPortState_retrains :
    misfiledPortState.dev.rd Reg.MP_STATE_STATE (mpPage 0 0) = 3 ∧ (misfiledPortState.dev.mp 0 0).panic = [] := by decide +kernel

/-- The failed retraining puts the port out of service and the region into RECOVERY; CE 0 is given its task there, and the exchange of the
replaced rendition's status registers (`Dev.swapOld`) overwrites the port's state with the 2 that they list. The port counts as in
service, and its window keeps the byte. -/
theorem retrainEnd_misfiledPortState :
    Answers (.retrainEnd 0 0 false 0 0 0) misfiledPortState (fun t =>
      t.dev.rd Reg.MP_STATE_STATE (mpPage 0 0) = 2 ∧ ramGet t.ram (ramKey 0 0) = 7) :=
  ⟨_, rfl, by decide +kernel⟩

/-! ### The obligation -/

/-- Refutes O57: its clause on lost ports is about every `State`, and one of them keeps, with a replaced rendition, a value for the
port's MP_STATE.STATE. The retraining of port 0 of region 0 fails there, and the byte at address 0 still reads 7. The stored tables
of a run from reset list keys of the rendition's own windows only. -/
theorem not_regionMemorySurvives : ¬ Obligations.RegionMemorySurvives := by
  intro h
  unfold Obligations.RegionMemorySurvives at h
  obtain ⟨-, -, -, -, -, hlost⟩ := h
  obtain ⟨hretrains, hcalm⟩ := misfiledPortState_retrains
  have hlost := hlost 0 0 0 0 0 misfiledPortState (by decide) (by decide) hretrains hcalm
  obtain ⟨t, -, hgone, -, hkept⟩ := hlost.and retrainEnd_misfiledPortState
  have hzero : ramGet t.ram (ramKey 0 0) = 0 := hgone 0 (by decide) (by decide)
  rw [hkept] at hzero
  exact absurd hzero (by decide)

end Sys2Proof.Machine
end
